-- ==== Sys2Proof/Word.lean ====
section
/-! DEFINITION. The word types of the module and the type of its sparse stores. -/

namespace Sys2Proof

/-- A byte of memory. -/
abbrev Byte := BitVec 8

/-- A 64-bit register, word or virtual address (00_scope R9: multi-byte values are little-endian). -/
abbrev Word := BitVec 64

/-- A sparse store: pairs of a key and a value, keys strictly rising, no pair whose value is the store's default.
The operations over it, and the proof that they keep this form, are in Machine/Map.lean and Laws/Map.lean. -/
abbrev SMap (α : Type) := List (Nat × α)

end Sys2Proof
end

