-- ==== Sys2Proof/Config.lean ====
section
/-! DEFINITION. What an implementation fixes, and the free values: constants without a body, about which nothing
can be proved (assumption log entries 4, 5, 7, 8, 9, 13, 14, 15, 33, 37, 41, 50, 54). -/

namespace Sys2Proof.Config

/-- Major stepping number in `DEVID` (00_scope R6): the same for every die of a module, fixed by manufacture. -/
opaque stepMaj : BitVec 4

/-- Minor stepping number in `DEVID`, a digit (00_scope R6). -/
opaque stepMin : Fin 10

/-- The serial number of the module, 16 ASCII bytes, fixed by manufacture: a directory written where none is valid takes it
(02 R67; log entry 54). -/
opaque serial : List (BitVec 8)

/-- The calibration store as written at manufacture (19 R451): its two directory copies, false the one at offset 0h, and the data of
its entries by their `OFFSET` (log entry 7). -/
opaque shippedDirectory : Bool → List (BitVec 8)
opaque shippedData : List (Nat × List (BitVec 8))

/-- The firmware that the module ships with (19 R451): of the management or, true, the host firmware, the bytes of slot A or, true,
slot B (log entry 7). -/
opaque shippedFirmware : Bool → Bool → List (BitVec 8)

/-- The security version of the shipped firmware, at which the fused rollback floor stands (19 R451; 17 R421; log entry 7). -/
opaque shippedVersion : Nat

/-- The power rails that the module trims: 02 R68 names them as the instances of type 0003h and does not list them (log
entry 54). -/
opaque rails : List Nat

/-- What a maximum or minimum over no active element of an integer format gives (10 R251; log entry 33): by opcode and
format code, the same in every run (00 R4). -/
opaque emptyReduce : Nat → Nat → BitVec 64

/-- The bits of the last byte beyond the last converted element (12 R292; log entry 41): by source format, destination format
and source bits, the same in every run (00 R4). -/
opaque convertTail : Nat → Nat → Nat → BitVec 8

/-- A 64-bit value that the spec leaves open; the argument is `State.fresh` at its use (log entry 5). -/
opaque freeWord : Nat → BitVec 64

/-- A byte that the spec leaves open; the arguments are `State.fresh` at its use and the byte's index (log entry 5). -/
opaque freeByte : Nat → Nat → BitVec 8

/-- How many ticks of a free-running counter pass before a sample of it: the model has no time base (log entry 4). -/
opaque elapsed : Nat → Nat

/-- The leaf that the MMU of a Hazia core finds in the operating system's tables, whose layout the spec does not give (01 R30, 06
R179). Arguments: the core, the 4 KiB page of the virtual address, whether the access writes, whether it fetches, and
`State.fresh`. The level is 0 for a page of 1 GiB, 1 for 2 MiB, 2 for 4 KiB, with the number of the frame of that size; `none` is
a page fault (log entry 9). -/
opaque haziaTranslate : Nat → Nat → Bool → Bool → Nat → Option (Fin 3 × Nat)

/-- Whether a drain of a partition has a full result queue: a matter of cycles, which the model does not count (03 R83, R85; log entry 4).
Arguments: `State.fresh` and the number of the quadrant. -/
opaque drainFull : Nat → Nat → Bool

/-- How an outbound PCIe read of an agent other than a core ends: 0 with data, 1 with an error status, 2 by a time-out; what a device
does is outside the module (17 R412; log entry 37). The argument is `State.fresh`. -/
opaque pcieAnswer : Nat → Fin 3

/-- The configuration space of the root port, bus 0 device 0 (17 R412): the byte at an offset before any write, and what the byte
there becomes by a write, from the offset, the old byte and the byte written. The PCI Express Base Specification, which the spec
names, lays it out (log entry 37). -/
opaque rootCfg : Nat → BitVec 8
opaque rootCfgWrite : Nat → BitVec 8 → BitVec 8 → BitVec 8

/-- Ed25519 verification: public key, message, signature (log entry 13). -/
opaque ed25519Verify : List (BitVec 8) → List (BitVec 8) → List (BitVec 8) → Bool

/-- ML-DSA-65 verification: public key, message, signature (log entry 13). -/
opaque mlDsaVerify : List (BitVec 8) → List (BitVec 8) → List (BitVec 8) → Bool

/-- Bytes of a cryptographic computation named by reference in 17 (key agreement, derivation, tags, signatures):
a tag that names the computation, and its input (log entry 13). -/
opaque crypto : Nat → List (BitVec 8) → List (BitVec 8)

/-- The identity keys of the module, created at manufacture (17 R420; log entry 13). -/
opaque identityKeys : List (BitVec 8)

/-- The physical addresses of the management address block, which 17 R414 names and does not place (log entry 50). -/
opaque mgmtBlock : Nat → Bool

/-- Whether a firmware image verifies under the keys whose digests the ROM holds (17 R421; log entry 13). -/
opaque fwVerifies : List (BitVec 8) → Bool

/-- The security version of a firmware image (17 R421; log entry 13). -/
opaque fwVersion : List (BitVec 8) → Nat

/-- The LZ4 block the compressor writes for a chunk: 11 R287 does not fix its bytes (log entry 14). -/
opaque lz4Block : List (BitVec 8) → List (BitVec 8)

/-- A transcendental result whose rounding the interval search of Machine/Txe.lean does not decide within its fuel:
function code, operand bits (log entry 15). -/
opaque txeUndecided : Nat → Nat → Nat

end Sys2Proof.Config
end

