-- ==== Sys2Proof/Syntax.lean ====
section
/-! DEFINITION. The commands of the block: one constructor per row of the table of operations and events, in the
table's order, with the row's operands. The docstring of a constructor names its row and the rule that governs it. -/

namespace Sys2Proof

/-- The agents that execute Zizil: sequencer `nn` of compute die `cd`, or Hazia core `k` (01 R15, R16). -/
inductive CoreId where
  | sycen (cd : Fin 4) (nn : Fin 24)
  | hazia (k : Fin 64)
deriving DecidableEq, Repr

/-- The immediate-extension prefixes E0h and E1h (07 R182). -/
inductive ImmExt where
  | none | bytes4 | bytes8
deriving DecidableEq, Repr

/-- The prefixes of an instruction (07 R182). `type` is the format byte that follows EFh. -/
structure Pfx where
  ext : ImmExt
  pred : Option (Fin 8)
  nt : Bool
  ar : Bool
  upper : Bool
  type : Option Byte
deriving DecidableEq, Repr

/-- An instruction without prefixes. -/
def Pfx.plain : Pfx := { ext := .none, pred := none, nt := false, ar := false, upper := false, type := none }

/-- An operand that is an A or a D register ("X" of 07 R192). D registers are named 0-31; 16-31 carry U = 1 (R184). -/
inductive XReg where
  | a (n : Fin 16)
  | d (n : Fin 32)
deriving DecidableEq, Repr

/-- The register operand of a customer instruction (07 R195). -/
inductive AnyReg where
  | a (n : Fin 16)
  | d (n : Fin 32)
  | v (n : Fin 32)
  | p (n : Fin 8)
deriving DecidableEq, Repr

/-- The address modes of a memory operand (07 R187). -/
inductive AddrMode where
  | base
  | disp16 (disp : BitVec 16)
  | disp32 (disp : BitVec 32)
  | index (k : Fin 32) (scale : Fin 4)
deriving DecidableEq, Repr

/-- A memory operand: the base register and the address mode (07 R187). -/
structure MemOp where
  base : Fin 16
  mode : AddrMode
deriving DecidableEq, Repr

/-- The second operand of the shifts of A registers: an i8 or a D register (07 R192). -/
inductive ShiftCount where
  | imm (i : Byte)
  | reg (k : Fin 32)
deriving DecidableEq, Repr

/-- The source of `ADDA` and `MOVA`: a register, or an immediate in its encoded form (07 R192). -/
inductive XImm where
  | reg (x : XReg)
  | imm (i : Word)
deriving DecidableEq, Repr

/-- The count of `LOOP`: an immediate in its encoded form, or a D register (07 R192). -/
inductive LoopCount where
  | imm (i : Word)
  | reg (k : Fin 32)
deriving DecidableEq, Repr

/-- The displacement of `BR`: 2 or 4 bytes (07 R192). -/
inductive BrDisp where
  | d16 (d : BitVec 16)
  | d32 (d : BitVec 32)
deriving DecidableEq, Repr

/-- The width of a scalar load or store: `.B`, `.H`, `.W`, `.D` (07 R192). -/
inductive MemWidth where
  | b | h | w | d
deriving DecidableEq, Repr

/-- What the decoder met when it refuses an instruction (07 R181, R184 to R190; 06 R153). -/
inductive IllegalForm where
  | reservedOpcode | prefixes | specifier | reservedField | tooLong
deriving DecidableEq, Repr

/-- The condition that an instruction fetch meets (09 R225 item 1). -/
inductive FetchCondition where
  | address | segment (outside : Bool) | page | bus
deriving DecidableEq, Repr

/-- A partition: compute die, cluster, array and lead quadrant (03 R76, R93). -/
structure PartId where
  cd : Fin 4
  cl : Fin 24
  arr : Fin 4
  q : Fin 4
deriving DecidableEq, Repr

/-- A tile of a cluster (01 R16). -/
structure TileId where
  cd : Fin 4
  cl : Fin 24
  t : Fin 16
deriving DecidableEq, Repr

/-- The engines of a compute die (11 R272). -/
inductive EngineKind where
  | txe | sel | gse | rand | cre | tre | lze
deriving DecidableEq, Repr

/-- An engine of a compute die. -/
structure EngineId where
  cd : Fin 4
  kind : EngineKind
deriving DecidableEq, Repr

/-- A mover channel (12 R288): cluster mover `m` of a cluster, bulk mover of a compute die, mover of HD. -/
inductive MoverId where
  | cluster (cd : Fin 4) (cl : Fin 24) (m : Fin 2)
  | bulk (cd : Fin 4) (m : Fin 16)
  | host (m : Fin 16)
deriving DecidableEq, Repr

/-- The ETUs (12 R297): those of CD0 to CD3 and that of HD. -/
inductive EtuId where
  | cd (d : Fin 4)
  | hd
deriving DecidableEq, Repr

/-- What an access of an engine is for: the data of its command, a descriptor, or its completion ring (12 R302). -/
inductive EngAccess where
  | data | desc | ring
deriving DecidableEq, Repr

/-- A requester of an ETU (12 R302). `desc` marks its descriptor, command-word or ring accesses; `loadb` marks a feeder's reads
for a LOADB, which go on beside those for the A stream (03 R79); `rec` marks the writes of completion records. -/
inductive Requester where
  | feeder (p : PartId) (loadb : Bool)
  | drain (p : PartId) (rec' : Bool)
  | sequencer (cd : Fin 4) (nn : Fin 24)
  | mover (m : MoverId) (desc : Bool)
  | engine (e : EngineId) (acc : EngAccess)
deriving DecidableEq, Repr

/-- The kind of an access (12 R298). -/
inductive Access where
  | read | write | fetch
deriving DecidableEq, Repr

/-- The thermal sensors of the memories (14 R355). -/
inductive MemSensor where
  | stack (d : Fin 4) (s : Fin 4)
  | module (m : Fin 12)
deriving DecidableEq, Repr

/-- The memory blocks with seal logic (14 R341): MB0 to MB3 and the tier 2 logic of HD. -/
inductive MemBlockId where
  | mb (d : Fin 4)
  | hd
deriving DecidableEq, Repr

/-- The caches of the module (13 R308). -/
inductive CacheId where
  | l1i (c : CoreId)
  | l1d (c : CoreId)
  | engineLines (cd : Fin 4) (u : Fin 8)
  | l2 (cd : Fin 4)
  | haziaL2 (k : Fin 64)
  | l3
deriving DecidableEq, Repr

/-- Where a cache shows a parity error: its data, its tag or state, or a directory vector, F or owner field (13 R313). -/
inductive ParityAt where
  | data
  | tag
  | directory
deriving DecidableEq, Repr

/-- What a DRAM read meets in the array (14 R332). -/
inductive DramOutcome where
  | clean
  | corrected (multiBit : Bool)
  | uncorrectable
deriving DecidableEq, Repr

/-- What the comparison of a tile with its stored seal finds: agreement, a mismatch that the second reading clears, or one
that persists (14 R336, R337). -/
inductive SealOutcome where
  | agrees
  | clears
  | persists
deriving DecidableEq, Repr

/-- An error that a partition detects in its own hardware (03 R95): a residue-3 mismatch in a column path, a parity error in a B
buffer, a parity error in the drain pipeline. -/
inductive ArrayError where
  | residue | bParity | drainParity
deriving DecidableEq, Repr

/-- An error that an engine detects in itself (11 R280): a parity error in its datapath, an ECC error in its buffers. An operation
carries the number of the row, chunk or flit that the error hits; one without units is hit at once. -/
inductive EngineError where
  | datapath | buffer
deriving DecidableEq, Repr

/-- Who makes a seal-verifying read (14 R336, R337): a feeder, an engine, a mover, the seal engine of a memory block, or the copier of
snapshots and rollbacks (16 R389, R402). -/
inductive SealReader where
  | feeder (p : PartId)
  | engine (e : EngineId)
  | mover (m : MoverId)
  | sealEngine (b : MemBlockId)
  | copier
deriving DecidableEq, Repr

/-- A die-to-die link (01 R18). -/
inductive LinkId where
  | hd (d : Fin 4)
  | ring (i : Fin 4)
  | bond (d : Fin 4)
deriving DecidableEq, Repr

/-- The dies of the module as a machine-check record names them: 0 HD, 1-4 CD0-3, 5-8 MB0-3 (18 R430). -/
abbrev DieId := Fin 9

/-- A datagram of a management session as it arrives (17 R414): the fields of its header, its payload and its tag. The operands of
the command that carries it are what the payload says, whose encoding the spec does not give. `late`: the controller answers it
with an ACK and executes it later (17 R417; log entry 50). -/
structure VmpReq where
  magic : BitVec 16
  ver : Byte
  mtype : Byte
  flags : Byte
  status : Byte
  plen : BitVec 16
  sid : Nat
  mseq : Nat
  echo : Nat
  payload : List Byte
  tag : List Byte
  late : Bool
deriving DecidableEq, Repr

/-- An event of the PCIe root port (17 R413): the link trains, comes up with lanes and speed, or goes down, or AER reports
an error. -/
inductive PcieEvent where
  | training
  | up (width : BitVec 5) (speed : BitVec 3)
  | down
  | aer (correctable : Bool)
deriving DecidableEq, Repr

/-- What a REPAIR message reaches (14 R354): an entry of a CAM, a spare row of a bank, a spare column, a fuse word, a memory BIST. -/
inductive RepairOp where
  | readCam (t : MemSensor) (row : Nat)
  | writeCam (t : MemSensor) (row : Nat) (spare : Option (Fin 8))
  | readSpare (t : MemSensor) (bank : Nat) (i : Fin 8)
  | markSpare (t : MemSensor) (bank : Nat) (i : Fin 8) (bad : Bool)
  | readColumn (t : MemSensor) (i : Nat)
  | writeColumn (t : MemSensor) (i : Nat) (v : Word)
  | readFuse (t : MemSensor) (i : Nat)
  | writeFuse (t : MemSensor) (i : Nat) (v : Word)
  | bist (t : MemSensor)
deriving DecidableEq, Repr

/-- What a Tether port receives of a token besides its kind and its arguments: the port, `ORIGIN`, `TSEQ`, whether `TCRC` passes, and
`half`: of a token with an extension block, the first block alone has come (15 R371, R373). -/
structure TokenIn where
  port : Fin 8
  origin : BitVec 20
  tseq : BitVec 12
  crcOk : Bool
  half : Bool
deriving DecidableEq, Repr

/-- Where a Tether token comes from: a port, or the module's own software or hardware. -/
inductive TetherFrom where
  | port (t : TokenIn)
  | own
deriving DecidableEq, Repr

/-- The commands. -/
inductive Instr where
  /-- `POWER_ON` (R429). -/
  | powerOn
  /-- `POWER_LOSS` (R426). -/
  | powerLoss
  /-- `INPUT_VOLTAGE_SAMPLE` (R426): `vin` in 10 mV units; `header` is 1 while the PFW_IN_N input is asserted (low). -/
  | inputVoltageSample (vin : BitVec 16) (header : Bool)
  /-- `MRST_N` (R446). -/
  | mrstN
  /-- `POWER_WINDOW` (R425): the mean input power of the window. -/
  | powerWindow (watts : BitVec 16)
  /-- `CD_THERMAL_SAMPLE` (R424): the sample in degrees Celsius, none when the sensor has failed. -/
  | cdThermalSample (d : Fin 4) (sample : Option Byte)
  /-- `STACK_THERMAL_SAMPLE` (R355): the sample in degrees Celsius, none when the sensor has failed. -/
  | stackThermalSample (t : MemSensor) (sample : Option Byte)
  /-- `PSTEP_COMPLETE` (R87). -/
  | pstepComplete (d : Fin 4)
  /-- `CD_IDLE_ENTRY` (R423). -/
  | cdIdleEntry (d : Fin 4)
  /-- `REF_CLOCK_CHECK` (R449): whether each reference is present. -/
  | refClockCheck (ok156 ok100 : Bool)
  /-- `START_UP_STEP1` (R427). -/
  | startUpStep1
  /-- `START_UP_STEP2` (R427): the Tether ports whose training locks. -/
  | startUpStep2 (locked : BitVec 8)
  /-- `START_UP_STEP3` (R427): the die links that have a bad lane, each with whether the stored repair values route around it. -/
  | startUpStep3 (lanes : List (LinkId × Bool))
  /-- `START_UP_STEP4` (R427): whether host firmware sets the 100 MHz input as independent of the downstream device. -/
  | startUpStep4 (sris : Bool)
  /-- `ACTIVATION` (R61). -/
  | activation
  /-- `MODULE_RESET` (R429): `kind` is payload byte 0: 01h, or a value that names no reset. -/
  | moduleReset (rq : VmpReq) (kind : Byte)
  /-- `HOST_RESET` (R429). -/
  | hostReset (rq : VmpReq)
  /-- `FAIL_STOP_POWER_DOWN` (R437). -/
  | failStopPowerDown
  /-- `LOAD_WINDOW_WRITE` (R59). -/
  | loadWindowWrite (offset : Nat) (data : List Byte)
  /-- `SICTL_VALIDATE` (R58). -/
  | sictlValidate
  /-- `IMAGE_VALIDATION_COMPLETE` (R55). -/
  | imageValidationComplete
  /-- `SICTL_ARM` (R63). -/
  | sictlArm
  /-- `SICTL_DISARM` (R58). -/
  | sictlDisarm
  /-- `SICTL_CLEAR` (R58). -/
  | sictlClear
  /-- `FLIP_QUIESCENT` (R64). -/
  | flipQuiescent
  /-- `FLIP_APPLY_DONE` (R66). -/
  | flipApplyDone
  /-- `FLIP_ABANDON_TIMEOUT` (R65). -/
  | flipAbandonTimeout
  /-- `CAL_WRITE` (R69). -/
  | calWrite (rq : VmpReq) (type inst : BitVec 16) (stamp : Word) (data : List Byte)
  /-- `ACMD` (R127). -/
  | acmd (c : CoreId) (p : Pfx) (vs : Fin 32) (dq : Fin 32)
  /-- `QPOST_WRITE` (R128). -/
  | qpostWrite (part : PartId) (value : Word)
  /-- `QPOST_FETCH_COMPLETE` (R128). -/
  | qpostFetchComplete (part : PartId)
  /-- `LOADB` (R137): an error that the partition detects, with the vector or row that it hits. -/
  | loadb (part : PartId) (bad : Option (Nat × ArrayError))
  /-- `MXA` (R138): an error that the partition detects, with the vector or row that it hits. -/
  | mxa (part : PartId) (bad : Option (Nat × ArrayError))
  /-- `MXZ` (R138): an error that the partition detects, with the vector or row that it hits. -/
  | mxz (part : PartId) (bad : Option (Nat × ArrayError))
  /-- `DRAIN` (R139): an error that the partition detects, with the vector or row that it hits. -/
  | drain (part : PartId) (bad : Option (Nat × ArrayError))
  /-- `TILECLR` (R140). -/
  | tileclr (part : PartId)
  /-- `FENCE` (R145). -/
  | fence (part : PartId)
  /-- `COMMAND_RETIRE` (R146): `n` is the sequence number of the command that retires. -/
  | commandRetire (part : PartId) (n : BitVec 16)
  /-- `QCTL_RECOVER` (R96). -/
  | qctlRecover (part : PartId)
  /-- `QCPLBASE_WRITE` (R133). -/
  | qcplbaseWrite (part : PartId) (value : Word)
  /-- `TCTL_CLRFLAGS` (R150). -/
  | tctlClrflags (tile : TileId)
  /-- `NOP` (R192). -/
  | nop (c : CoreId) (p : Pfx)
  /-- `HALT` (R161). -/
  | halt (c : CoreId) (p : Pfx)
  /-- `MODE` (R165). -/
  | mode (c : CoreId) (p : Pfx) (m : Byte)
  /-- `RTE` (R234). -/
  | rte (c : CoreId) (p : Pfx)
  /-- `IFENCE` (R219). -/
  | ifence (c : CoreId) (p : Pfx)
  /-- `MFENCE` (R172). -/
  | mfence (c : CoreId) (p : Pfx)
  /-- `MFC` (R156): `num` is the c16 field. -/
  | mfc (c : CoreId) (p : Pfx) (x : XReg) (num : BitVec 16)
  /-- `MTC` (R213). -/
  | mtc (c : CoreId) (p : Pfx) (num : BitVec 16) (x : XReg)
  /-- `MFB` (R160): `b16` is the bank operand (R189). -/
  | mfb (c : CoreId) (p : Pfx) (x : XReg) (b16 : BitVec 16)
  /-- `MTB` (R160). -/
  | mtb (c : CoreId) (p : Pfx) (b16 : BitVec 16) (x : XReg)
  /-- `TRAP` (R223). -/
  | trap (c : CoreId) (p : Pfx) (i : Byte)
  /-- `WAIT` (R233). -/
  | wait (c : CoreId) (p : Pfx)
  /-- `WAIT_WAKE` (R233). -/
  | waitWake (c : CoreId)
  /-- `INTERRUPT_ACCEPT` (R220). -/
  | interruptAccept (c : CoreId)
  /-- `L1D_FILL_COMPLETE` (R206). -/
  | l1dFillComplete (c : CoreId)
  /-- `STORE_BUFFER_DRAIN` (R215). -/
  | storeBufferDrain (c : CoreId)
  /-- `LOOP` (R167). -/
  | loop (c : CoreId) (p : Pfx) (k : Fin 3) (n : LoopCount) (endDisp : BitVec 16)
  /-- `BR` (R166): `slot` is the length in bytes of the instruction in the delay slot. -/
  | br (c : CoreId) (p : Pfx) (disp : BrDisp) (slot : Fin 17)
  /-- `CALL` (R240). -/
  | call (c : CoreId) (p : Pfx) (disp : BitVec 32) (slot : Fin 17)
  /-- `CALLR` (R240). -/
  | callr (c : CoreId) (p : Pfx) (an : Fin 16) (slot : Fin 17)
  /-- `JMP` (R166). -/
  | jmp (c : CoreId) (p : Pfx) (an : Fin 16) (slot : Fin 17)
  /-- `RET` (R240). -/
  | ret (c : CoreId) (p : Pfx) (slot : Fin 17)
  /-- `BZ` (R166). -/
  | bz (c : CoreId) (p : Pfx) (dn : Fin 32) (disp : BitVec 16) (slot : Fin 17)
  /-- `BNZ` (R166). -/
  | bnz (c : CoreId) (p : Pfx) (dn : Fin 32) (disp : BitVec 16) (slot : Fin 17)
  /-- `BEQ` (R453). -/
  | beq (c : CoreId) (p : Pfx) (da db : Fin 32) (disp : BitVec 16) (slot : Fin 17)
  /-- `BNE` (R453). -/
  | bne (c : CoreId) (p : Pfx) (da db : Fin 32) (disp : BitVec 16) (slot : Fin 17)
  /-- `BLT` (R453). -/
  | blt (c : CoreId) (p : Pfx) (da db : Fin 32) (disp : BitVec 16) (slot : Fin 17)
  /-- `BGE` (R453). -/
  | bge (c : CoreId) (p : Pfx) (da db : Fin 32) (disp : BitVec 16) (slot : Fin 17)
  /-- `BLTU` (R453). -/
  | bltu (c : CoreId) (p : Pfx) (da db : Fin 32) (disp : BitVec 16) (slot : Fin 17)
  /-- `BGEU` (R453). -/
  | bgeu (c : CoreId) (p : Pfx) (da db : Fin 32) (disp : BitVec 16) (slot : Fin 17)
  /-- `BEQA` (R453). -/
  | beqa (c : CoreId) (p : Pfx) (aa ab : Fin 16) (disp : BitVec 16) (slot : Fin 17)
  /-- `BLTUA` (R453). -/
  | bltua (c : CoreId) (p : Pfx) (aa ab : Fin 16) (disp : BitVec 16) (slot : Fin 17)
  /-- `ADDA` (R453). -/
  | adda (c : CoreId) (p : Pfx) (ad aa : Fin 16) (src : XImm)
  /-- `SUBA` (R453). -/
  | suba (c : CoreId) (p : Pfx) (ad aa : Fin 16) (x : XReg)
  /-- `SHLA` (R453). -/
  | shla (c : CoreId) (p : Pfx) (ad aa : Fin 16) (n : ShiftCount)
  /-- `SHRA` (R453). -/
  | shra (c : CoreId) (p : Pfx) (ad aa : Fin 16) (n : ShiftCount)
  /-- `CMPEQA` (R453). -/
  | cmpeqa (c : CoreId) (p : Pfx) (dd : Fin 32) (aa ab : Fin 16)
  /-- `CMPLTUA` (R453). -/
  | cmpltua (c : CoreId) (p : Pfx) (dd : Fin 32) (aa ab : Fin 16)
  /-- `MOVA` (R192). -/
  | mova (c : CoreId) (p : Pfx) (ad : Fin 16) (src : XImm)
  /-- `MOVDA` (R192). -/
  | movda (c : CoreId) (p : Pfx) (dd : Fin 32) (aa : Fin 16)
  /-- `LEA` (R187). -/
  | lea (c : CoreId) (p : Pfx) (ad : Fin 16) (m : MemOp)
  /-- `ADD` (R453). -/
  | add (c : CoreId) (p : Pfx) (dd da db : Fin 32)
  /-- `SUB` (R453). -/
  | sub (c : CoreId) (p : Pfx) (dd da db : Fin 32)
  /-- `ADDI` (R453): `i` is the immediate field in its encoded size. -/
  | addi (c : CoreId) (p : Pfx) (dd da : Fin 32) (i : Word)
  /-- `MUL` (R453). -/
  | mul (c : CoreId) (p : Pfx) (dd da db : Fin 32)
  /-- `MULH` (R453). -/
  | mulh (c : CoreId) (p : Pfx) (dd da db : Fin 32)
  /-- `MULHU` (R453). -/
  | mulhu (c : CoreId) (p : Pfx) (dd da db : Fin 32)
  /-- `DIV` (R453). -/
  | div (c : CoreId) (p : Pfx) (dd da db : Fin 32)
  /-- `DIVU` (R453). -/
  | divu (c : CoreId) (p : Pfx) (dd da db : Fin 32)
  /-- `REM` (R453). -/
  | rem (c : CoreId) (p : Pfx) (dd da db : Fin 32)
  /-- `REMU` (R453). -/
  | remu (c : CoreId) (p : Pfx) (dd da db : Fin 32)
  /-- `AND` (R192). -/
  | and (c : CoreId) (p : Pfx) (dd da db : Fin 32)
  /-- `OR` (R192). -/
  | or (c : CoreId) (p : Pfx) (dd da db : Fin 32)
  /-- `XOR` (R192). -/
  | xor (c : CoreId) (p : Pfx) (dd da db : Fin 32)
  /-- `ANDI` (R183). -/
  | andi (c : CoreId) (p : Pfx) (dd da : Fin 32) (i : Word)
  /-- `ORI` (R183). -/
  | ori (c : CoreId) (p : Pfx) (dd da : Fin 32) (i : Word)
  /-- `XORI` (R183). -/
  | xori (c : CoreId) (p : Pfx) (dd da : Fin 32) (i : Word)
  /-- `SHL` (R453). -/
  | shl (c : CoreId) (p : Pfx) (dd da db : Fin 32)
  /-- `SHR` (R453). -/
  | shr (c : CoreId) (p : Pfx) (dd da db : Fin 32)
  /-- `SAR` (R453). -/
  | sar (c : CoreId) (p : Pfx) (dd da db : Fin 32)
  /-- `SHLI` (R453). -/
  | shli (c : CoreId) (p : Pfx) (dd da : Fin 32) (i : Byte)
  /-- `SHRI` (R453). -/
  | shri (c : CoreId) (p : Pfx) (dd da : Fin 32) (i : Byte)
  /-- `SARI` (R453). -/
  | sari (c : CoreId) (p : Pfx) (dd da : Fin 32) (i : Byte)
  /-- `CMPEQ` (R453). -/
  | cmpeq (c : CoreId) (p : Pfx) (dd da db : Fin 32)
  /-- `CMPLT` (R453). -/
  | cmplt (c : CoreId) (p : Pfx) (dd da db : Fin 32)
  /-- `CMPLTU` (R453). -/
  | cmpltu (c : CoreId) (p : Pfx) (dd da db : Fin 32)
  /-- `MIN` (R453). -/
  | min (c : CoreId) (p : Pfx) (dd da db : Fin 32)
  /-- `MAX` (R453). -/
  | max (c : CoreId) (p : Pfx) (dd da db : Fin 32)
  /-- `MOV` (R192). -/
  | mov (c : CoreId) (p : Pfx) (dd da : Fin 32)
  /-- `MOVI` (R192). -/
  | movi (c : CoreId) (p : Pfx) (dd : Fin 32) (i : Word)
  /-- `EXT` (R453). -/
  | ext (c : CoreId) (p : Pfx) (dd da : Fin 32) (i : Byte)
  /-- `CLZ` (R453). -/
  | clz (c : CoreId) (p : Pfx) (dd da : Fin 32)
  /-- `POPC` (R453). -/
  | popc (c : CoreId) (p : Pfx) (dd da : Fin 32)
  /-- `FADD` (R452). -/
  | fadd (c : CoreId) (p : Pfx) (dd da db : Fin 32)
  /-- `FSUB` (R452). -/
  | fsub (c : CoreId) (p : Pfx) (dd da db : Fin 32)
  /-- `FMUL` (R452). -/
  | fmul (c : CoreId) (p : Pfx) (dd da db : Fin 32)
  /-- `FMA` (R452). -/
  | fma (c : CoreId) (p : Pfx) (dd da db dc : Fin 32)
  /-- `FDIV` (R452). -/
  | fdiv (c : CoreId) (p : Pfx) (dd da db : Fin 32)
  /-- `FSQRT` (R452). -/
  | fsqrt (c : CoreId) (p : Pfx) (dd da : Fin 32)
  /-- `FMIN` (R452). -/
  | fmin (c : CoreId) (p : Pfx) (dd da db : Fin 32)
  /-- `FMAX` (R452). -/
  | fmax (c : CoreId) (p : Pfx) (dd da db : Fin 32)
  /-- `FCMPEQ` (R452). -/
  | fcmpeq (c : CoreId) (p : Pfx) (dd da db : Fin 32)
  /-- `FCMPLT` (R452). -/
  | fcmplt (c : CoreId) (p : Pfx) (dd da db : Fin 32)
  /-- `FCMPLE` (R452). -/
  | fcmple (c : CoreId) (p : Pfx) (dd da db : Fin 32)
  /-- `FCVT` (R185): `i` is the source format. -/
  | fcvt (c : CoreId) (p : Pfx) (dd da : Fin 32) (i : Byte)
  /-- `FABS` (R192). -/
  | fabs (c : CoreId) (p : Pfx) (dd da : Fin 32)
  /-- `FNEG` (R192). -/
  | fneg (c : CoreId) (p : Pfx) (dd da : Fin 32)
  /-- `LD` (R162). -/
  | ld (c : CoreId) (p : Pfx) (mw : MemWidth) (x : XReg) (m : MemOp)
  /-- `LDS` (R162). -/
  | lds (c : CoreId) (p : Pfx) (mw : MemWidth) (dd : Fin 32) (m : MemOp)
  /-- `ST` (R215). -/
  | st (c : CoreId) (p : Pfx) (mw : MemWidth) (x : XReg) (m : MemOp)
  /-- `LR` (R176): `wide` for .D, else .W. -/
  | lr (c : CoreId) (p : Pfx) (wide : Bool) (dd : Fin 32) (m : MemOp)
  /-- `SC` (R176). -/
  | sc (c : CoreId) (p : Pfx) (wide : Bool) (dstat dval : Fin 32) (m : MemOp)
  /-- `TAS` (R175). -/
  | tas (c : CoreId) (p : Pfx) (dd : Fin 32) (m : MemOp)
  /-- `VADD` (R249). -/
  | vadd (c : CoreId) (p : Pfx) (vd va vb : Fin 32)
  /-- `VSUB` (R249). -/
  | vsub (c : CoreId) (p : Pfx) (vd va vb : Fin 32)
  /-- `VMUL` (R249). -/
  | vmul (c : CoreId) (p : Pfx) (vd va vb : Fin 32)
  /-- `VFMS` (R249). -/
  | vfms (c : CoreId) (p : Pfx) (vd va vb vc : Fin 32)
  /-- `VFMA` (R249). -/
  | vfma (c : CoreId) (p : Pfx) (vd va vb vc : Fin 32)
  /-- `VDIV` (R249). -/
  | vdiv (c : CoreId) (p : Pfx) (vd va vb : Fin 32)
  /-- `VSQRT` (R249). -/
  | vsqrt (c : CoreId) (p : Pfx) (vd va : Fin 32)
  /-- `VMIN` (R247). -/
  | vmin (c : CoreId) (p : Pfx) (vd va vb : Fin 32)
  /-- `VMAX` (R247). -/
  | vmax (c : CoreId) (p : Pfx) (vd va vb : Fin 32)
  /-- `VAND` (R249). -/
  | vand (c : CoreId) (p : Pfx) (vd va vb : Fin 32)
  /-- `VOR` (R249). -/
  | vor (c : CoreId) (p : Pfx) (vd va vb : Fin 32)
  /-- `VXOR` (R249). -/
  | vxor (c : CoreId) (p : Pfx) (vd va vb : Fin 32)
  /-- `VSHL` (R249). -/
  | vshl (c : CoreId) (p : Pfx) (vd va : Fin 32) (i : Byte)
  /-- `VSHR` (R249). -/
  | vshr (c : CoreId) (p : Pfx) (vd va : Fin 32) (i : Byte)
  /-- `VSAR` (R249). -/
  | vsar (c : CoreId) (p : Pfx) (vd va : Fin 32) (i : Byte)
  /-- `VBCST` (R248). -/
  | vbcst (c : CoreId) (p : Pfx) (vd : Fin 32) (i : Word)
  /-- `VADDI` (R248). -/
  | vaddi (c : CoreId) (p : Pfx) (vd va : Fin 32) (i : Word)
  /-- `VMULI` (R248). -/
  | vmuli (c : CoreId) (p : Pfx) (vd va : Fin 32) (i : Word)
  /-- `VMAXI` (R248). -/
  | vmaxi (c : CoreId) (p : Pfx) (vd va : Fin 32) (i : Word)
  /-- `VMINI` (R248). -/
  | vmini (c : CoreId) (p : Pfx) (vd va : Fin 32) (i : Word)
  /-- `VCMPEQ` (R249). -/
  | vcmpeq (c : CoreId) (p : Pfx) (pd : Fin 8) (va vb : Fin 32)
  /-- `VCMPLT` (R249). -/
  | vcmplt (c : CoreId) (p : Pfx) (pd : Fin 8) (va vb : Fin 32)
  /-- `VCMPLE` (R249). -/
  | vcmple (c : CoreId) (p : Pfx) (pd : Fin 8) (va vb : Fin 32)
  /-- `VSEL` (R249). -/
  | vsel (c : CoreId) (p : Pfx) (vd va vb : Fin 32) (pc : Fin 8)
  /-- `VMOV` (R249). -/
  | vmov (c : CoreId) (p : Pfx) (vd va : Fin 32)
  /-- `VLD` (R250). -/
  | vld (c : CoreId) (p : Pfx) (vd : Fin 32) (m : MemOp)
  /-- `VST` (R250). -/
  | vst (c : CoreId) (p : Pfx) (vs : Fin 32) (m : MemOp)
  /-- `PAND` (R249). -/
  | pand (c : CoreId) (p : Pfx) (pd pa pb : Fin 8)
  /-- `POR` (R249). -/
  | por (c : CoreId) (p : Pfx) (pd pa pb : Fin 8)
  /-- `PXOR` (R249). -/
  | pxor (c : CoreId) (p : Pfx) (pd pa pb : Fin 8)
  /-- `PNOT` (R249). -/
  | pnot (c : CoreId) (p : Pfx) (pd pa : Fin 8)
  /-- `PSET` (R249). -/
  | pset (c : CoreId) (p : Pfx) (pd : Fin 8)
  /-- `PCLR` (R249). -/
  | pclr (c : CoreId) (p : Pfx) (pd : Fin 8)
  /-- `PLEN` (R249). -/
  | plen (c : CoreId) (p : Pfx) (pd : Fin 8) (dn : Fin 32)
  /-- `PCNT` (R249). -/
  | pcnt (c : CoreId) (p : Pfx) (dd : Fin 32) (pa : Fin 8)
  /-- `VREDSUM` (R251). -/
  | vredsum (c : CoreId) (p : Pfx) (dd va : Fin 32)
  /-- `VREDMAX` (R251). -/
  | vredmax (c : CoreId) (p : Pfx) (dd va : Fin 32)
  /-- `VREDMIN` (R251). -/
  | vredmin (c : CoreId) (p : Pfx) (dd va : Fin 32)
  /-- `VCVT` (R252). -/
  | vcvt (c : CoreId) (p : Pfx) (vd va : Fin 32) (i : Byte)
  /-- `VPERM` (R253). -/
  | vperm (c : CoreId) (p : Pfx) (vd va vb : Fin 32)
  /-- `VSLIDEUP` (R253). -/
  | vslideup (c : CoreId) (p : Pfx) (vd va : Fin 32) (i : BitVec 16)
  /-- `VSLIDEDN` (R253). -/
  | vslidedn (c : CoreId) (p : Pfx) (vd va : Fin 32) (i : BitVec 16)
  /-- `VADD_T` (R257). -/
  | vaddT (c : CoreId) (p : Pfx) (ad aa ab : Fin 16)
  /-- `VSUB_T` (R257). -/
  | vsubT (c : CoreId) (p : Pfx) (ad aa ab : Fin 16)
  /-- `VMUL_T` (R257). -/
  | vmulT (c : CoreId) (p : Pfx) (ad aa ab : Fin 16)
  /-- `VMAX_T` (R257). -/
  | vmaxT (c : CoreId) (p : Pfx) (ad aa ab : Fin 16)
  /-- `VMIN_T` (R257). -/
  | vminT (c : CoreId) (p : Pfx) (ad aa ab : Fin 16)
  /-- `VFMA_T` (R257). -/
  | vfmaT (c : CoreId) (p : Pfx) (ad aa ab ac : Fin 16)
  /-- `VCVT_T` (R257). -/
  | vcvtT (c : CoreId) (p : Pfx) (ad aa : Fin 16)
  /-- `VSCALE_T` (R257). -/
  | vscaleT (c : CoreId) (p : Pfx) (ad aa : Fin 16) (i : Word)
  /-- `VFMAI_T` (R257). -/
  | vfmaiT (c : CoreId) (p : Pfx) (ad aa ac : Fin 16) (i : Word)
  /-- `VCOPY_T` (R257). -/
  | vcopyT (c : CoreId) (p : Pfx) (ad aa : Fin 16)
  /-- `DRAIN_INSTRUCTION` (R263): `t` is the tile field. -/
  | drainInstruction (c : CoreId) (p : Pfx) (vd : Fin 32) (t : Byte) (dr : Fin 32)
  /-- `TILE_RD` (R262). -/
  | tileRd (c : CoreId) (p : Pfx) (vd : Fin 32) (t : Byte) (dr : Fin 32)
  /-- `TILE_WR` (R262). -/
  | tileWr (c : CoreId) (p : Pfx) (t : Byte) (dr vs : Fin 32)
  /-- `CLEAN` (R325). -/
  | clean (c : CoreId) (p : Pfx) (m : MemOp)
  /-- `INVAL` (R325). -/
  | inval (c : CoreId) (p : Pfx) (m : MemOp)
  /-- `CLEANINVAL` (R325). -/
  | cleaninval (c : CoreId) (p : Pfx) (m : MemOp)
  /-- `PREFETCH` (R453). -/
  | prefetch (c : CoreId) (p : Pfx) (m : MemOp)
  /-- `BSWAP` (R453). -/
  | bswap (c : CoreId) (p : Pfx) (dd da : Fin 32)
  /-- `ROL` (R453). -/
  | rol (c : CoreId) (p : Pfx) (dd da db : Fin 32)
  /-- `ROR` (R453). -/
  | ror (c : CoreId) (p : Pfx) (dd da db : Fin 32)
  /-- `ROLI` (R453). -/
  | roli (c : CoreId) (p : Pfx) (dd da : Fin 32) (i : Byte)
  /-- `BEXT` (R453). -/
  | bext (c : CoreId) (p : Pfx) (dd da db : Fin 32)
  /-- `BDEP` (R453). -/
  | bdep (c : CoreId) (p : Pfx) (dd da db : Fin 32)
  /-- `CUSTOMER_INSTRUCTION` (R198). -/
  | customerInstruction (c : CoreId) (p : Pfx) (entry : Byte) (ops : List AnyReg) (i : Word)
  /-- `BREAK` (R223). -/
  | breakI (c : CoreId) (p : Pfx)
  /-- `SEQDB_RING` (R232). -/
  | seqdbRing (cd : Fin 4) (cl : Fin 24)
  /-- `SEQRUN_RELEASE` (R411). -/
  | seqrunRelease (cd : Fin 4) (cl : Fin 24)
  /-- `SEQRUN_HALTREQ` (R411). -/
  | seqrunHaltreq (cd : Fin 4) (cl : Fin 24)
  /-- `SEQUENCER_HALT` (R411). -/
  | sequencerHalt (cd : Fin 4) (cl : Fin 24)
  /-- `SEQRUN_RESET` (R411). -/
  | seqrunReset (cd : Fin 4) (cl : Fin 24)
  /-- `EPOST_WRITE` (R273): `cd`, `cl` is the cluster of the sequencer that writes. -/
  | epostWrite (e : EngineId) (cd : Fin 4) (cl : Fin 24) (value : Word)
  /-- `EPOSTX_WRITE` (R273). -/
  | epostxWrite (e : EngineId) (ctx : BitVec 6) (value : Word)
  /-- `ENGINE_WORD_FETCH_COMPLETE` (R274). -/
  | engineWordFetchComplete (e : EngineId)
  /-- `FUNC` (R281). -/
  | func (e : EngineId) (bad : Option (Nat × EngineError))
  /-- `SORT` (R282). -/
  | sort (e : EngineId) (bad : Option (Nat × EngineError))
  /-- `TOPK` (R282). -/
  | topk (e : EngineId) (bad : Option (Nat × EngineError))
  /-- `GATHER` (R283). -/
  | gather (e : EngineId) (bad : Option (Nat × EngineError))
  /-- `SCATTER` (R283). -/
  | scatter (e : EngineId) (bad : Option (Nat × EngineError))
  /-- `SCATTERADD` (R283). -/
  | scatteradd (e : EngineId) (bad : Option (Nat × EngineError))
  /-- `SETSTREAM` (R284). -/
  | setstream (e : EngineId) (bad : Option (Nat × EngineError))
  /-- `GETSTREAM` (R284). -/
  | getstream (e : EngineId) (bad : Option (Nat × EngineError))
  /-- `FREESTREAM` (R284). -/
  | freestream (e : EngineId) (bad : Option (Nat × EngineError))
  /-- `FILL` (R284). -/
  | fill (e : EngineId) (bad : Option (Nat × EngineError))
  /-- `COMBINE` (R286). -/
  | combine (e : EngineId) (bad : Option (Nat × EngineError))
  /-- `COLLSEND` (R366). -/
  | collsend (e : EngineId) (bad : Option (Nat × EngineError))
  /-- `COLLRECV` (R367). -/
  | collrecv (e : EngineId) (bad : Option (Nat × EngineError))
  /-- `COLLECTIVE_TIMEOUT` (R369). -/
  | collectiveTimeout (e : EngineId)
  /-- `TRANSPOSE` (R287). -/
  | transpose (e : EngineId) (bad : Option (Nat × EngineError))
  /-- `COMPRESS` (R287). -/
  | compress (e : EngineId) (bad : Option (Nat × EngineError))
  /-- `DECOMPRESS` (R287). -/
  | decompress (e : EngineId) (bad : Option (Nat × EngineError))
  /-- `ENGINE_COMMAND_RETIRE` (R279). -/
  | engineCommandRetire (e : EngineId)
  /-- `ECTL_RECOVER` (R280). -/
  | ectlRecover (e : EngineId)
  /-- `ECPLBASE_WRITE` (R279). -/
  | ecplbaseWrite (e : EngineId) (ctx : BitVec 6) (value : Word)
  /-- `RAND_CAPTURE` (R285). -/
  | randCapture (d : Fin 4)
  /-- `SCRUB` (R269): `store` is a cluster's tile store, none for the commons. -/
  | scrub (d : Fin 4) (store : Option (Fin 24)) (offset : Nat) (outcome : DramOutcome)
  /-- `MVCTL_KICK` (R290). -/
  | mvctlKick (m : MoverId)
  /-- `MVCTL_RESUME` (R296). -/
  | mvctlResume (m : MoverId)
  /-- `MVCTL_ABORT` (R296). -/
  | mvctlAbort (m : MoverId)
  /-- `MVCTL_RESET` (R296). -/
  | mvctlReset (m : MoverId)
  /-- `MOVER_COPY` (R292). -/
  | moverCopy (m : MoverId)
  /-- `MOVER_CONVERT` (R292). -/
  | moverConvert (m : MoverId)
  /-- `MOVER_COMPRESS` (R292). -/
  | moverCompress (m : MoverId)
  /-- `MOVER_DECOMPRESS` (R292). -/
  | moverDecompress (m : MoverId)
  /-- `TRANSLATION` (R298). -/
  | translation (e : EtuId) (ctx : BitVec 6) (va : Word) (acc : Access) (req : Requester)
  /-- `TRANSLATION_PREFETCH` (R301): `stream` numbers the streams that the requester has announced. -/
  | translationPrefetch (req : Requester) (stream : Nat)
  /-- `FAULT_BATCH_TIMER` (R303). -/
  | faultBatchTimer (e : EtuId)
  /-- `FBDONE` (R304). -/
  | fbdone (e : EtuId) (value : Word)
  /-- `WITHDRAW` (R305). -/
  | withdraw (e : EtuId) (value : Word)
  /-- `WITHDRAW_ACK` (R305). -/
  | withdrawAck (e : EtuId) (req : Requester)
  /-- `WITHDRAW_TIMEOUT` (R305). -/
  | withdrawTimeout (e : EtuId)
  /-- `READ_REQUEST` (R318): `more` says that other messages for the line arrive on the same cycle (R321); `par` names a cache whose
  copy or entry of the line shows a parity error (R313). -/
  | readRequest (cache : CacheId) (line : Nat) (more : Bool) (par : Option (CacheId × ParityAt))
  /-- `OWNERSHIP_REQUEST` (R318): `more` as at READ_REQUEST. -/
  | ownershipRequest (cache : CacheId) (line : Nat) (more : Bool)
  /-- `UPGRADE_REQUEST` (R317). -/
  | upgradeRequest (cache : CacheId) (line : Nat) (more : Bool)
  /-- `WRITEBACK` (R321). -/
  | writeback (cache : CacheId) (line : Nat) (more : Bool)
  /-- `CLEAN_EVICTION_NOTICE` (R317). -/
  | cleanEvictionNotice (cache : CacheId) (line : Nat) (more : Bool)
  /-- `SNOOP` (R317): `more` says that other messages for the line arrive at the die directory on the same cycle (R321). -/
  | snoop (cache : CacheId) (line : Nat) (more : Bool)
  /-- `FILL_ACK` (R317). -/
  | fillAck (cache : CacheId) (line : Nat)
  /-- `UNCACHED_READ` (R319): `more` as in SNOOP; `src` is the die whose L2, or L3, serves the request. -/
  | uncachedRead (src : EtuId) (addr : BitVec 52) (size : Nat) (more : Bool)
  /-- `UNCACHED_WRITE` (R319): `more` as in SNOOP; `cls` is the requester's class among the way masks of the L2 or the L3 (02 R49). -/
  | uncachedWrite (src : EtuId) (cls : Fin 5) (addr : BitVec 52) (data : List Byte) (more : Bool)
  /-- `HOLD_WINDOW_END` (R320). -/
  | holdWindowEnd (cache : CacheId) (line : Nat)
  /-- `FILL_RETRY` (R322). -/
  | fillRetry (cache : CacheId) (line : Nat)
  /-- `DIE_LINK_FLIT_RECEIVE` (R21): the direction: towards the second end of the link, in the order HD, CD, next CD of the ring, MB. -/
  | dieLinkFlitReceive (l : LinkId) (fwd crcOk : Bool)
  /-- `DRAM_READ` (R332). -/
  | dramRead (addr : BitVec 52) (outcome : DramOutcome)
  /-- `DRAM_LINE_WRITE` (R335). -/
  | dramLineWrite (addr : BitVec 52) (data : List Byte)
  /-- `SEAL_CACHE_EVICT` (R335). -/
  | sealCacheEvict (b : MemBlockId) (tile : Nat)
  /-- `SEAL_VERIFYING_READ` (R336). -/
  | sealVerifyingRead (addr : BitVec 52) (who : SealReader) (cmp : SealOutcome)
  /-- `PATROL` (R339): `line` is the line of the tile that `outcome` concerns. -/
  | patrol (b : MemBlockId) (line : Fin 32) (outcome : DramOutcome) (cmp : SealOutcome)
  /-- `ROW_REMAP` (R345): `bad` are the lines of the row that are uncorrectable while it is copied. -/
  | rowRemap (b : MemBlockId) (bad : List (Fin 8))
  /-- `READSEAL` (R342). -/
  | readseal (b : MemBlockId) (value : Word)
  /-- `VERIFY` (R342). -/
  | verify (b : MemBlockId) (value : Word)
  /-- `LISTPOISON` (R342). -/
  | listpoison (b : MemBlockId) (value : Word)
  /-- `RESEAL` (R342). -/
  | reseal (b : MemBlockId) (value : Word)
  /-- `MOVE` (R352). -/
  | move (b : MemBlockId) (value : Word)
  /-- `PAGE_MOVE_COMPLETE` (R352). -/
  | pageMoveComplete (b : MemBlockId)
  /-- `RETQ_READ` (R350). -/
  | retqRead (b : MemBlockId)
  /-- `MCACK` (R433). -/
  | mcack (die : DieId) (value : Word)
  /-- `FLIT_RECEIVE` (R360): `data` are the 256 bytes that arrive, as the wire leaves them. -/
  | flitReceive (port : Fin 12) (data : List Byte)
  /-- `COLL_FLIT` (R368): `port` is the port whose buffer holds the flit, none for a flit of the module's own sender. -/
  | collFlit (cd : Fin 4) (port : Option (Fin 12))
  /-- `LINKCTL_NACK` (R360): `port` is the port whose buffer holds the flit of the NACK; `failed`: it answers a replay of the flit that
  it names, and not a flit of the burst that was replayed already. -/
  | linkctlNack (port : Fin 12) (failed : Bool)
  /-- `FEC_ALIGNMENT_LOSS` (R361). -/
  | fecAlignmentLoss (port : Fin 12)
  /-- `PORT_TRAINING_COMPLETE` (R362). -/
  | portTrainingComplete (port : Fin 12) (peer : Nat) (peerPort : Nat)
  /-- `RETRAIN_TIMEOUT` (R361). -/
  | retrainTimeout (port : Fin 12)
  /-- `NOMATCH_TIMEOUT` (R368). -/
  | nomatchTimeout (cd : Fin 4)
  /-- `BRIDLE_PAIRING` (R395): `port` is the port whose buffer holds the flit. -/
  | bridlePairing (port : Fin 12)
  /-- `BRIDLE_PAIRING_TIMER` (R395). -/
  | bridlePairingTimer
  /-- `BRIDLE_SLOT_DATA` (R396): `port` is the port whose buffer holds the flit. -/
  | bridleSlotData (port : Fin 12)
  /-- `BRIDLE_MANIFEST` (R396): `port` is the port whose buffer holds the flit. -/
  | bridleManifest (port : Fin 12)
  /-- `BRIDLE_END_OF_STREAM` (R396): `port` is the port whose buffer holds the flit; `answer` says that it answers the module's own
  stream. -/
  | bridleEndOfStream (port : Fin 12) (answer : Bool)
  /-- `STOP` (R381). -/
  | stop (src : TetherFrom) (cause : Byte)
  /-- `TCTL_STOP` (R383). -/
  | tctlStop
  /-- `TCTL_NOTE` (R383). -/
  | tctlNote
  /-- `FLIP_ARRIVE` (R379). -/
  | flipArrive (t : TokenIn)
  /-- `FLIP_OPEN` (R379). -/
  | flipOpen (src : TetherFrom)
  /-- `FLIP_COMPLETE` (R65). -/
  | flipComplete (t : TokenIn)
  /-- `FLIP_ABANDON` (R65). -/
  | flipAbandon (t : TokenIn)
  /-- `TBAR` (R378). -/
  | tbar (value : Word)
  /-- `BARRIER_ARRIVE` (R378). -/
  | barrierArrive (t : TokenIn) (id : BitVec 16)
  /-- `BARRIER_COMPLETE` (R378). -/
  | barrierComplete (t : TokenIn) (id : BitVec 16)
  /-- `TREDCTL` (R380). -/
  | tredctl (value : Word)
  /-- `REDUCE_UP` (R380). -/
  | reduceUp (t : TokenIn) (slot : Fin 4) (op : BitVec 3) (id : BitVec 11) (x : Word)
  /-- `REDUCE_RESULT` (R380). -/
  | reduceResult (t : TokenIn) (slot : Fin 4) (op : BitVec 3) (id : BitVec 11) (x : Word)
  /-- `NOTICE_FAULT` (R376). -/
  | noticeFault (t : TokenIn) (subject : BitVec 20) (cause : Byte)
  /-- `NOTICE_THERMAL_SLOW` (R376). -/
  | noticeThermalSlow (t : TokenIn) (factor : Byte)
  /-- `NOTICE_CLEAR` (R376). -/
  | noticeClear (t : TokenIn)
  /-- `HEARTBEAT` (R377). -/
  | heartbeat (t : TokenIn)
  /-- `TETHER_HEARTBEAT_TIMER` (R377). -/
  | tetherHeartbeatTimer
  /-- `HEARTBEAT_LOST` (R377). -/
  | heartbeatLost (p : Fin 8)
  /-- `TNOTQ_READ` (R383). -/
  | tnotqRead
  /-- `SNAPCTL_ARRIVE` (R386). -/
  | snapctlArrive
  /-- `SNAPSHOT_CLEAN_COMPLETE` (R386). -/
  | snapshotCleanComplete
  /-- `DEMAND_COPY_COMPLETE` (R388). -/
  | demandCopyComplete (granule : Nat)
  /-- `BACKGROUND_COPY` (R389). -/
  | backgroundCopy
  /-- `COMMIT_ARRIVE` (R390). -/
  | commitArrive
  /-- `SNAPCTL_DRAIN` (R398). -/
  | snapctlDrain
  /-- `CABINET_DRAIN_TIMER` (R398). -/
  | cabinetDrainTimer
  /-- `CABINET_DRAIN_COMPLETE` (R398). -/
  | cabinetDrainComplete
  /-- `SNAPCTL_ROLLBACK` (R402). -/
  | snapctlRollback
  /-- `ROLLBACK_COMPLETE` (R402). -/
  | rollbackComplete
  /-- `SNAPCTL_RESUME` (R405). -/
  | snapctlResume
  /-- `SNAPCTL_SENDWARD` (R403). -/
  | snapctlSendward
  /-- `TAKEOVER` (R403): the value written to `TAKEOVER`. -/
  | takeover (value : Word)
  /-- `RESTORE_COMPLETE` (R403). -/
  | restoreComplete
  /-- `HIC_SOURCE_EVENT` (R409). -/
  | hicSourceEvent (src : Fin 1024)
  /-- `HIRTE_WRITE` (R409). -/
  | hirteWrite (src : Fin 1024) (value : Word)
  /-- `HIPI` (R408). -/
  | hipi (value : Word)
  /-- `HAZIA_INTERRUPT_ACCEPT` (R409). -/
  | haziaInterruptAccept (k : Fin 64)
  /-- `PCIE_INBOUND_REQUEST` (R413): `data` for a write, none for a read. -/
  | pcieInboundRequest (rid : BitVec 16) (va : Word) (size : Nat) (data : Option (List Byte))
  /-- `PCIE_MSI` (R413). -/
  | pcieMsi (rid : BitVec 16) (value : BitVec 32)
  /-- `PCIE_COMPLETION` (R412). -/
  | pcieCompletion (c : CoreId) (ok : Bool) (data : List Byte)
  /-- `PCIE_COMPLETION_TIMEOUT` (R412). -/
  | pcieCompletionTimeout (c : CoreId)
  /-- `PCIE_LINK_EVENT` (R413). -/
  | pcieLinkEvent (ev : PcieEvent)
  /-- `SESSION_INIT` (R416): `claim` is 1 while the CLAIM strap is asserted; `msg` is the payload after the slot and before the
  signatures. -/
  | sessionInit (claim : Bool) (slot : Nat) (msg sig1 sig2 : List Byte)
  /-- `SESSION_CLOSE` (R415). -/
  | sessionClose (rq : VmpReq)
  /-- `SESSION_IDLE_TIMEOUT` (R416). -/
  | sessionIdleTimeout (sid : Nat)
  /-- `READ_STATUS` (R417). -/
  | readStatus (rq : VmpReq) (block : Byte)
  /-- `READ_REG` (R417). -/
  | readReg (rq : VmpReq) (addr : BitVec 52) (size : Nat)
  /-- `WRITE_REG` (R415). -/
  | writeReg (rq : VmpReq) (addr : BitVec 52) (data : List Byte)
  /-- `IMAGE_WRITE` (R59). -/
  | imageWrite (rq : VmpReq) (offset : Nat) (data : List Byte)
  /-- `IMAGE_READ` (R59). -/
  | imageRead (rq : VmpReq) (shadow : Bool) (offset size : Nat)
  /-- `KEYSLOT_SET` (R42). -/
  | keyslotSet (rq : VmpReq) (slot : Nat) (ed ml : List Byte)
  /-- `MGMTKEY_SET` (R416). -/
  | mgmtkeySet (rq : VmpReq) (slot : Nat) (role : Byte) (ed ml : List Byte)
  /-- `CAL_READ` (R415). -/
  | calRead (rq : VmpReq) (entry : Option (BitVec 16 × BitVec 16))
  /-- `CABINET_READ` (R399). -/
  | cabinetRead (rq : VmpReq) (epoch : BitVec 32) (offset size : Nat)
  /-- `TEST_HOLD` (R418). -/
  | testHold (rq : VmpReq)
  /-- `TEST_RELEASE` (R418). -/
  | testRelease (rq : VmpReq)
  /-- `REPAIR` (R354). -/
  | repair (rq : VmpReq) (op : RepairOp)
  /-- `PPR_COMMIT` (R349). -/
  | pprCommit (rq : VmpReq) (die : Nat)
  /-- `FW_STAGE` (R421). -/
  | fwStage (rq : VmpReq) (host : Bool) (offset : Nat) (data : List Byte)
  /-- `FW_ACTIVATE` (R421). -/
  | fwActivate (rq : VmpReq) (host : Bool)
  /-- `FW_COMMIT` (R421). -/
  | fwCommit (rq : VmpReq) (host : Bool)
  /-- `ATTEST` (R420). -/
  | attest (rq : VmpReq) (nonce : List Byte)
  /-- `IDENTITY` (R420). -/
  | identity (rq : VmpReq)
  /-- `SUBSCRIBE` (R419). -/
  | subscribe (rq : VmpReq)
  /-- `MGMT_HEARTBEAT_TIMER` (R419). -/
  | mgmtHeartbeatTimer
  /-- `REGISTER_WRITE` (R10). -/
  | registerWrite (addr : BitVec 52) (data : List Byte)
  /-- `IMAGE_CTL` (R415). -/
  | imageCtl (rq : VmpReq) (action : Byte)
  /-- `REGISTER_READ_CLEAR` (R10). -/
  | registerReadClear (addr : BitVec 52) (size : Nat)
  /-- `RESERVED_OPCODE` (R190). -/
  | reservedOpcode (c : CoreId) (form : IllegalForm)
  /-- `INSTRUCTION_FETCH_FAULT` (R188). -/
  | instructionFetchFault (c : CoreId) (cond : FetchCondition) (va : Word)
  /-- `TETHER_BLOCK_LOCK` (R400). -/
  | tetherBlockLock (p : Fin 8)
  /-- `REGULATOR_FAULT` (R432). -/
  | regulatorFault (rail : Byte)
  /-- `SEAL_ENGINE_COMMAND_COMPLETE` (R342). -/
  | sealEngineCommandComplete (b : MemBlockId)
deriving DecidableEq, Repr

end Sys2Proof
end

