-- ==== Sys2Proof/Decode.lean ====
section
/-! DEFINITION. The command that a word spells by the table's bits: the table gives no row bits, so no word spells one. -/

namespace Sys2Proof

/-- No row of the table of operations and events carries an encoding: every word is refused. -/
def decodeTableWord (_nbits _w : Nat) : Option Instr := none

end Sys2Proof
end

