-- ==== Sys2Proof/Machine/Map.lean ====
section
/-! DEFINITION. The operations over sparse stores, and the byte and bit helpers of the model. -/

namespace Sys2Proof.Machine

/-- The value of a sparse store at a key; `d` is what an unlisted key reads as. -/
def mget {α : Type} (d : α) : SMap α → Nat → α
  | [], _ => d
  | (k', v) :: m, k => if k = k' then v else mget d m k

/-- Insert a pair at its place, replacing a pair of the same key. -/
def minsert {α : Type} (k : Nat) (v : α) : SMap α → SMap α
  | [] => [(k, v)]
  | (k', v') :: m => if k < k' then (k, v) :: (k', v') :: m else if k = k' then (k, v) :: m else (k', v') :: minsert k v m

/-- Remove what is listed at a key. -/
def merase {α : Type} (k : Nat) : SMap α → SMap α
  | [] => []
  | (k', v') :: m => if k = k' then merase k m else (k', v') :: merase k m

/-- Set the value at a key, keeping the canonical form: a key set to the default is not listed. -/
def mset {α : Type} [DecidableEq α] (d : α) (m : SMap α) (k : Nat) (v : α) : SMap α :=
  if v = d then merase k m else minsert k v m

/-- Change the value at a key. -/
def mmod {α : Type} [DecidableEq α] (d : α) (m : SMap α) (k : Nat) (f : α → α) : SMap α := mset d m k (f (mget d m k))

/-- Change every listed value, dropping those that become the default. -/
def mmap {α : Type} [DecidableEq α] (d : α) (f : Nat → α → α) (m : SMap α) : SMap α :=
  m.filterMap (fun x => if f x.1 x.2 = d then none else some (x.1, f x.1 x.2))

/-- Keys strictly above `lo` rise strictly, and no listed value is the default. -/
def mwfFrom {α : Type} [DecidableEq α] (d : α) : Option Nat → SMap α → Bool
  | _, [] => true
  | lo, (k, v) :: m => (match lo with | none => true | some l => decide (l < k)) && decide (v ≠ d) && mwfFrom d (some k) m

/-- The canonical form of a sparse store. -/
def mwf {α : Type} [DecidableEq α] (d : α) (m : SMap α) : Bool := mwfFrom d none m

/-- Bits `lo` to `lo + len - 1` of a number. -/
def bits (x lo len : Nat) : Nat := x / 2 ^ lo % 2 ^ len

/-- Bit `i` of a number. -/
def bit (x i : Nat) : Bool := x / 2 ^ i % 2 = 1

/-- A flag as a number. -/
def b2n (b : Bool) : Nat := if b then 1 else 0

/-- The `n` low bytes of a number, least significant first (00_scope R9). -/
def leBytes : Nat → Nat → List Byte
  | 0, _ => []
  | n + 1, x => BitVec.ofNat 8 x :: leBytes n (x / 256)

/-- The number that bytes spell, least significant first (00_scope R9). -/
def leNat : List Byte → Nat
  | [] => 0
  | b :: bs => b.toNat + 256 * leNat bs

/-- Replace the bytes of a list from an index on. -/
def splice (xs : List Byte) (i : Nat) (ys : List Byte) : List Byte := xs.take i ++ ys ++ xs.drop (i + ys.length)

/-- A list padded with a value, or cut, to a length. -/
def fitTo {α : Type} (z : α) (n : Nat) (xs : List α) : List α := (xs ++ List.replicate (n - xs.length) z).take n

/-- Add to a saturating counter (00_scope R10). -/
def satAdd {n : Nat} (c : BitVec n) (k : Nat) : BitVec n := BitVec.ofNat n (min (c.toNat + k) (2 ^ n - 1))

/-- Interpret a number of `n` bits as two's complement. -/
def toSigned (n x : Nat) : Int := if x < 2 ^ (n - 1) then (x : Int) else (x : Int) - (2 ^ n : Nat)

/-- The `n` low bits of an integer in two's complement. -/
def ofSigned (n : Nat) (x : Int) : Nat := (x % ((2 ^ n : Nat) : Int)).toNat

/-- Numbers from `a` on, `n` of them. -/
def countFrom (a : Nat) : Nat → List Nat
  | 0 => []
  | n + 1 => a :: countFrom (a + 1) n

/-- The list without the elements equal to `x`. -/
def without {α : Type} [DecidableEq α] (x : α) (xs : List α) : List α := xs.filter (fun y => decide (y ≠ x))

/-- Add an element that a list does not hold yet, at its end. -/
def addNew {α : Type} [DecidableEq α] (x : α) (xs : List α) : List α := if x ∈ xs then xs else xs ++ [x]

/-- The element of a list at an index, or a value where there is none. -/
def nth {α : Type} (z : α) (xs : List α) (i : Nat) : α := (xs[i]?).getD z

end Sys2Proof.Machine
end

