-- ==== Sys2Proof/Machine/Codes.lean ====
section
/-! DEFINITION. The check codes and ciphers that the spec fixes bit by bit: CRC-8 of Tether tokens (15 R371), CRC-32C of
seals and images (14 R334), AES-128 of the RAND (11 R284), and the SHA-256 of
manifests (16 R393). -/

namespace Sys2Proof.Machine

/-- `n` bytes at an offset as a little-endian number. -/
def rd (b : List Byte) (off n : Nat) : Nat := leNat ((b.drop off).take n)

/-! ## CRC (15 R371, 14 R334) -/

/-- One bit into the CRC-8 with polynomial 07h. -/
def crc8Bit (c : Nat) (b : Bool) : Nat :=
  let top := (decide (128 ≤ c)) != b
  let s := c * 2 % 256
  if top then s ^^^ 0x07 else s

/-- CRC-8 of the `n` low bits of a number, lowest first (15 R371). -/
def crc8 (c x : Nat) : Nat → Nat
  | 0 => c
  | n + 1 => crc8 (crc8Bit c (bit x 0)) (x / 2) n

/-- The CRC-8 of a token: bits 55:0 of its first block, then its extension block (15 R371). -/
def tokenCrc (block : Nat) (ext : Option Nat) : Nat :=
  let c := crc8 0 block 56
  match ext with
  | some v => crc8 c v 64
  | none => c

/-- Shift the reflected CRC-32C register by bits. -/
def crc32cShift (c : Nat) : Nat → Nat
  | 0 => c
  | n + 1 => crc32cShift (if c % 2 = 1 then (c / 2) ^^^ 0x82F63B78 else c / 2) n

/-- CRC-32C of a byte string (14 R334). -/
def crc32c (bs : List Byte) : Nat :=
  (bs.foldl (fun c b => crc32cShift (c ^^^ b.toNat) 8) 0xFFFFFFFF) ^^^ 0xFFFFFFFF

/-! ## AES-128 (FIPS 197) -/

/-- Multiplication by x in GF(2^8) modulo x^8 + x^4 + x^3 + x + 1. -/
def gfDouble (a : Nat) : Nat := let d := a * 2; if d < 256 then d else d ^^^ 0x11B

/-- Multiplication in GF(2^8), by the low `n` bits of the second factor. -/
def gfMul (a b : Nat) : Nat → Nat
  | 0 => 0
  | n + 1 => (if b % 2 = 1 then a else 0) ^^^ gfMul (gfDouble a) (b / 2) n

/-- The inverse in GF(2^8), 0 for 0: the 254th power. -/
def gfInv (a : Nat) : Nat :=
  let sq (x : Nat) : Nat := gfMul x x 8
  let a2 := sq a
  let a4 := sq a2
  let a8 := sq a4
  let a16 := sq a8
  let a32 := sq a16
  let a64 := sq a32
  let a128 := sq a64
  gfMul a128 (gfMul a64 (gfMul a32 (gfMul a16 (gfMul a8 (gfMul a4 a2 8) 8) 8) 8) 8) 8

/-- Rotate a byte left. -/
def rotByte (a k : Nat) : Nat := a * 2 ^ k % 256 + a / 2 ^ (8 - k)

/-- The S-box. -/
def aesSbox (a : Nat) : Nat :=
  let b := gfInv a
  b ^^^ rotByte b 1 ^^^ rotByte b 2 ^^^ rotByte b 3 ^^^ rotByte b 4 ^^^ 0x63

/-- The round constant of round `i`, from 1. -/
def aesRcon : Nat → Nat
  | 0 => 1
  | 1 => 1
  | i + 1 => gfDouble (aesRcon i)

/-- The next round key of 16 bytes. -/
def aesNextKey (i : Nat) (k : List Nat) : List Nat :=
  let t := [aesSbox (nth 0 k 13) ^^^ aesRcon i, aesSbox (nth 0 k 14), aesSbox (nth 0 k 15), aesSbox (nth 0 k 12)]
  let xor4 (a b : List Nat) : List Nat := (a.zip b).map (fun x => x.1 ^^^ x.2)
  let w0 := xor4 (k.take 4) t
  let w1 := xor4 ((k.drop 4).take 4) w0
  let w2 := xor4 ((k.drop 8).take 4) w1
  let w3 := xor4 ((k.drop 12).take 4) w2
  w0 ++ w1 ++ w2 ++ w3

/-- `ShiftRows` of a state of 16 bytes in column order. -/
def aesShiftRows (s : List Nat) : List Nat := (countFrom 0 16).map (fun i => nth 0 s ((i + 4 * (i % 4)) % 16))

/-- `MixColumns`. -/
def aesMixColumns (s : List Nat) : List Nat :=
  (countFrom 0 16).map (fun i =>
    let c := i / 4 * 4
    let r := i % 4
    let a (j : Nat) : Nat := nth 0 s (c + (r + j) % 4)
    gfMul (a 0) 2 8 ^^^ gfMul (a 1) 3 8 ^^^ a 2 ^^^ a 3)

/-- The rounds from round `i` on, `n` of them with `MixColumns` before the last. -/
def aesRounds : Nat → Nat → List Nat → List Nat → List Nat
  | 0, i, k, s =>
    let k1 := aesNextKey i k
    ((aesShiftRows (s.map aesSbox)).zip k1).map (fun x => x.1 ^^^ x.2)
  | n + 1, i, k, s =>
    let k1 := aesNextKey i k
    aesRounds n (i + 1) k1 (((aesMixColumns (aesShiftRows (s.map aesSbox))).zip k1).map (fun x => x.1 ^^^ x.2))

/-- AES-128 of a block under a key, both as 16 bytes in order (11 R284). -/
def aes128 (key block : List Nat) : List Nat := aesRounds 9 1 key ((block.zip key).map (fun x => x.1 ^^^ x.2))

/-! ## SHA-256 (FIPS 180-4) -/

/-- The integer part of a root of a number times 2^(`n` * 32), by bits: the largest x with x^n at most it. -/
def rootBits (n target : Nat) : Nat → Nat → Nat
  | 0, r => r
  | fuel + 1, r => rootBits n target fuel (if (r + 2 ^ fuel) ^ n ≤ target then r + 2 ^ fuel else r)

/-- The primes whose roots give the constants. -/
def shaPrimes : List Nat :=
  [2, 3, 5, 7, 11, 13, 17, 19, 23, 29, 31, 37, 41, 43, 47, 53, 59, 61, 67, 71, 73, 79, 83, 89, 97, 101, 103, 107, 109, 113, 127, 131]
  ++ [137, 139, 149, 151, 157, 163, 167, 173, 179, 181, 191, 193, 197, 199, 211, 223, 227, 229, 233, 239, 241, 251, 257, 263, 269,
      271, 277, 281, 283, 293, 307, 311]

/-- The round constants: the first 32 bits of the fractions of the cube roots. -/
def shaK : List Nat := shaPrimes.map (fun p => rootBits 3 (p * 2 ^ 96) 36 0 % 2 ^ 32)

/-- The initial hash: the first 32 bits of the fractions of the square roots. -/
def shaH0 : List Nat := (shaPrimes.take 8).map (fun p => rootBits 2 (p * 2 ^ 64) 38 0 % 2 ^ 32)

/-- Rotate a 32-bit word right. -/
def rotr32 (x k : Nat) : Nat := x / 2 ^ k + x % 2 ^ k * 2 ^ (32 - k)

/-- The message schedule, extended word by word from the last 16, newest first. -/
def shaExtend : Nat → List Nat → List Nat
  | 0, w => w
  | n + 1, w =>
    let s0 := let x := nth 0 w 14; rotr32 x 7 ^^^ rotr32 x 18 ^^^ x / 8
    let s1 := let x := nth 0 w 1; rotr32 x 17 ^^^ rotr32 x 19 ^^^ x / 1024
    shaExtend n ((nth 0 w 15 + s0 + nth 0 w 6 + s1) % 2 ^ 32 :: w)

/-- One round on the eight working variables. -/
def shaRound (v : List Nat) (kw : Nat) : List Nat :=
  let a := nth 0 v 0
  let e := nth 0 v 4
  let s1 := rotr32 e 6 ^^^ rotr32 e 11 ^^^ rotr32 e 25
  let ch := (e &&& nth 0 v 5) ^^^ ((2 ^ 32 - 1 - e) &&& nth 0 v 6)
  let t1 := nth 0 v 7 + s1 + ch + kw
  let s0 := rotr32 a 2 ^^^ rotr32 a 13 ^^^ rotr32 a 22
  let maj := (a &&& nth 0 v 1) ^^^ (a &&& nth 0 v 2) ^^^ (nth 0 v 1 &&& nth 0 v 2)
  [(t1 + s0 + maj) % 2 ^ 32, a, nth 0 v 1, nth 0 v 2, (nth 0 v 3 + t1) % 2 ^ 32, e, nth 0 v 5, nth 0 v 6]

/-- One block of 64 bytes. -/
def shaBlock (h : List Nat) (b : List Byte) : List Nat :=
  let w0 := (countFrom 0 16).map (fun i => leNat (((b.drop (4 * i)).take 4).reverse))
  let w := (shaExtend 48 w0.reverse).reverse
  let v := (w.zip shaK).foldl (fun v x => shaRound v (x.1 + x.2)) h
  (h.zip v).map (fun x => (x.1 + x.2) % 2 ^ 32)

/-- The blocks of a padded message. -/
def shaBlocks : Nat → List Nat → List Byte → List Nat
  | 0, h, _ => h
  | n + 1, h, b => shaBlocks n (shaBlock h (b.take 64)) (b.drop 64)

/-- SHA-256 of a byte string: 32 bytes. -/
def sha256 (m : List Byte) : List Byte :=
  let n := m.length
  let pad := (119 - n % 64) % 64
  let padded := m ++ [0x80] ++ List.replicate pad 0 ++ (leBytes 8 (8 * n)).reverse
  (shaBlocks (padded.length / 64) shaH0 padded).flatMap (fun x => (leBytes 4 x).reverse)

end Sys2Proof.Machine
end

