-- ==== Sys2Proof/Machine/State.lean ====
section
/-! DEFINITION. The state of the module: every register, queue, buffer, table and pin that the spec names, as plain
data, the queue of waiting commands, and the state after power-on. Collections of units are sparse stores keyed by
numbers; the keys are computed in Machine/Ops.lean. -/

namespace Sys2Proof.Machine

/-! ## Sequencers and Hazia cores (06, 08, 09, 17 R411) -/

/-- The privilege levels (06 R159). -/
inductive Level where
  | machine | supervisor | user
deriving DecidableEq, Repr

/-- `STATUS` by field (06 R157); reserved bits read 0. -/
structure Status where
  gm : Bool
  pl : Level
  mode : Bool
  elevate : Bool
  rm : BitVec 2
  nx : Bool
  uf : Bool
  of : Bool
  dz : Bool
  nv : Bool
deriving DecidableEq, Repr

/-- `TRAPPC`, `TRAPSTATUS` by field, `TRAPTARGET`, `TRAPINFO` by field and `TRAPBASE` of one level (09 R228 to R230). -/
structure TrapRegs where
  pc : Word
  ppl : BitVec 2
  origin : BitVec 2
  pgm : Bool
  pmode : Bool
  pb : Bool
  shcnt : BitVec 2
  shmode : Bool
  esc : Bool
  int : Bool
  target : Word
  cause : Byte
  detail : Byte
  addrv : Bool
  write : Bool
  fetch : Bool
  vpage : BitVec 45
  hmode : Bool
  base : BitVec 52
deriving DecidableEq, Repr

/-- The bank of one privilege level (06 R159), without its trap registers. Keys: register numbers and loop levels. -/
structure Bank where
  a : SMap Word
  d : SMap Word
  lstart : SMap Word
  lend : SMap Word
  lcount : SMap (BitVec 32)
  act : BitVec 3
  plb : Bool
  plvl : BitVec 2
  ssBase : Word
  ssLimit : Word
  ssPtr : Word
deriving DecidableEq, Repr

/-- One entry of the store buffer (08 R215): the bytes of one store by physical address; two pieces where the store
crosses a page; the non-temporal hint of the store; whether its addresses were translated before the withdrawal in progress at
the core's ETU began (12 R305). -/
structure StoreEntry where
  pieces : List (Nat × List Byte)
  nt : Bool
  old : Bool
deriving DecidableEq, Repr

/-- What the instruction at the program counter waits for in stage E (08 R206, R215 to R217; 09 R233, R239; 13 R326). -/
inductive Wait where
  /-- an access or an instruction fetch parked by an ETU (12 R302, 09 R235), with its address. -/
  | parked (va : Word) (write : Bool) (fetch : Bool)
  /-- an L1 D miss of a load (08 R206), with its line. -/
  | miss (line : Nat)
  /-- an access to device memory, `TAS` or `SC` that waits on the memory system: never abandoned (08 R221). -/
  | held (line : Nat)
  /-- entries of the store buffer that must drain first: an overlapping load, LR, ACMD, VST, MFENCE, IFENCE, a maintenance
  instruction (08 R216, R217; 13 R325). -/
  | storeBuffer
  /-- a full store buffer: a store or a call keeps E (08 R215, R220). -/
  | full
  /-- a load of device memory or of an SRAM window behind the stores of the buffer to such memory: never abandoned (01 R29; 06
  R173; 08 R217, R221). -/
  | device
  /-- the boundary between two groups of a tensor form (10 R259). -/
  | group
  /-- a tile, with its place in the acceptance order (05 R144). -/
  | tile (order : Nat) (t : Nat)
  /-- its own maintenance operation, ordered at the directory and not yet finished, with the bytes of the instruction
  (13 R326). -/
  | maint (len : Nat)
  /-- an earlier maintenance operation of the core, which later maintenance waits for (13 R326). -/
  | ordered
  /-- an earlier maintenance operation of the core, or a miss that its L1 D is serving, which MFENCE waits for: never abandoned (06
  R172; 09 R239; 13 R326). -/
  | fence
  /-- `WAIT` (09 R233). -/
  | interrupt
  /-- an outbound PCIe access (17 R412): address, size; the answer once it is in (none: an error). -/
  | pcie (addr : Nat) (size : Nat)
  | pcieDone (ok : Bool) (data : List Byte)
deriving DecidableEq, Repr

/-- A register write of a load, `TAS` or `SC` that waits for the end of the next instruction (06 R162). -/
inductive PendWrite where
  | a (lvl : Level) (n : Nat) (w : Word)
  | d (lvl : Level) (n : Nat) (w : Word)
  | v (n : Nat) (w : BitVec 16384)
deriving DecidableEq, Repr

/-- The delay slot that the instruction at the program counter stands in (06 R166). -/
inductive Slot where
  | none
  | untaken
  | taken (target : Word)
deriving DecidableEq, Repr

/-- `SEQSTAT.STATE` (17 R411), with `WAIT` split off as the wait it is. -/
inductive RunState where
  | reset | run | halted | dfault
deriving DecidableEq, Repr

/-- A tensor descriptor as an instruction has read it (10 R254). -/
structure TensorDesc where
  base : Nat
  fmt : Nat
  nt : Bool
  dims : List Nat
  strides : List Int
deriving DecidableEq, Repr

/-- A tensor form that waits in E between two groups (10 R259): the virtual address of its `PROGRESS`, the element that it
started at, the first one not yet processed, and the descriptors read at its start. -/
structure TensorRun where
  progress : Word
  start : Nat
  index : Nat
  descs : List TensorDesc
deriving DecidableEq, Repr

/-- A sequencer or a Hazia core. `pair` counts the instructions since the `LR` of the reservation while an `SC` after them would
make a constrained pair (06 R177). -/
structure Core where
  st : RunState
  pc : Word
  status : Status
  bm : Bank
  bs : Bank
  bu : Bank
  tm : TrapRegs
  ts : TrapRegs
  v : SMap (BitVec 16384)
  p : SMap (BitVec 2048)
  ien : BitVec 6
  ipend : BitVec 6
  cycles : Word
  slot : Slot
  pend : Option PendWrite
  closed : Bool
  shCnt : BitVec 2
  shMode : Bool
  resv : Option Nat
  pair : Option Nat
  sbuf : List StoreEntry
  wait : Option Wait
  tensor : Option TensorRun
  haltReq : Bool
  maint : Bool
deriving DecidableEq, Repr

/-! ## Structure image and calibration store (02) -/

/-- `SISTAT.SHDSTATE` (02 R58). -/
inductive ShadowState where
  | empty | loading | validating | valid | invalid | armed | resetPending | retired
deriving DecidableEq, Repr

/-- The image store and the structure-image registers (02 R57 to R66). `secs` holds the bodies of the sections in
force, keyed by type; `secsNext` those of the flip-class fields that wait for the next epoch barrier (R66); `trains` section 03h of the image
that start-up has selected, by which the fabric ports train (18 R427). -/
structure Image where
  slotA : List Byte
  slotB : List Byte
  activeIsB : Bool
  selSeq : Nat
  shd : ShadowState
  hold : Bool
  flipAbort : Bool
  noActive : Bool
  unfit : Bool
  loadPath : Bool
  rejCode : Byte
  rejType : Byte
  rejOffset : BitVec 24
  committed : Bool
  applying : Bool
  selected : Option Bool
  trains : List Byte
  secs : SMap (List Byte)
  secsNext : SMap (Option (List Byte))
  keys : SMap (List Byte × List Byte)
deriving DecidableEq, Repr

/-- The calibration store (02 R67): the bytes of its two directory copies, at offsets 0h and 1_0000h, and the data of the
entries by their `OFFSET`. -/
structure Calib where
  dirA : List Byte
  dirB : List Byte
  data : SMap (List Byte)
deriving DecidableEq, Repr

/-! ## Arrays, queues and tiles (03, 04, 05) -/

/-- `ARRCFG` and `ARRREP` of one array (03 R98, R99). -/
structure ArrayCfg where
  layout : BitVec 4
  avail : Bool
  mapBad : Bool
  repCount : BitVec 2
  rep : BitVec 32
deriving DecidableEq, Repr

/-- A completion record that waits to be written to a ring: its low and its high word without `PHASE`, and its `NOTIFY`
(05 R146, R147). -/
structure CplRec where
  lo : Nat
  hi : Nat
  notify : Nat
deriving DecidableEq, Repr

/-- A B buffer of a partition (03 R79, R74, R80): the format code, rows and columns, the raw elements (row by row), the
E8M0 scales, and whether it holds B. -/
structure BBuf where
  full : Bool
  fmt : Nat
  k : Nat
  n : Nat
  elems : List Nat
  scales : List Nat
deriving DecidableEq, Repr

/-- What a queued command has come to (05 R126, R142, R146): `started` is issued and stopped before its last vector or
row by a parked access (03 R86). -/
inductive CmdPhase where
  | waiting | started | issued | ended
deriving DecidableEq, Repr

/-- An entry of a command queue (05 R126): the eight words, the sequence number, its place in the acceptance order of the
cluster (R134), where it has got to, its status (R135), and the vectors or rows already processed. -/
structure Cmd where
  words : List Nat
  seq : BitVec 16
  order : Nat
  phase : CmdPhase
  status : Byte
  count : Nat
deriving DecidableEq, Repr

/-- A completion ring: its base register and its index register (05 R133; 11 R279). -/
structure RingState where
  enable : Bool
  seqIrq : Bool
  hostIrq : Bool
  base : BitVec 52
  next : Byte
  phase : Bool
deriving DecidableEq, Repr

/-- A quadrant, with the registers of the partition that it leads (03 R100, R102; 05 R126 to R134). `QSTAT.STATE` is
computed (Machine/Ops.lean). -/
structure Quad where
  pmask : BitVec 4
  ctx : BitVec 6
  bound : Bool
  cause : Byte
  dryCnt : BitVec 32
  drnCnt : BitVec 32
  bact : BBuf
  bshd : BBuf
  queue : List Cmd
  fetching : List Word
  nextSeq : BitVec 16
  restarted : Bool
  accSeq : BitVec 16
  retSeq : BitVec 16
  rejCode : Byte
  rejOp : Byte
  rejTag : BitVec 16
  rejCount : BitVec 16
  ring : RingState
  recs : List CplRec
  aParked : Bool
  bParked : Bool
  drainParked : Bool
  recParked : Bool
  fault : Bool
deriving DecidableEq, Repr

/-- An accumulator tile (05 R149). Entries are keyed by row * 1024 + column. -/
structure Tile where
  entries : SMap (BitVec 80)
  fmt : Byte
  sat : Bool
  nv : Bool
  of : Bool
  poison : Bool
deriving DecidableEq, Repr

/-! ## Engines and SRAM (11) -/

/-- `ESTAT.STATE` (11 R279). -/
inductive EngState where
  | idle | run | wait | fault
deriving DecidableEq, Repr

/-- A remote operand of a COLLRECV (15 R366, R368): its rank, its sender, the bytes staged, and whether its last flit has
arrived. -/
structure CollOp where
  rank : Nat
  src : Nat
  got : Nat
  last : Bool
deriving DecidableEq, Repr

/-- A command word in an engine's queue (11 R273 to R279): its context, the cluster of an `EPOST`, its progress, its end
status, `RESULT` and flags, the descriptors read at its start, and a COLLRECV's remote operands. -/
structure EngCmd where
  words : List Nat
  ctx : BitVec 6
  cl : Option (Fin 4 × Fin 24)
  seq : BitVec 16
  phase : CmdPhase
  status : Byte
  count : Nat
  result : Nat
  nv : Bool
  of : Bool
  dz : Bool
  descs : List TensorDesc
  ops : List CollOp
deriving DecidableEq, Repr

/-- An engine completion record that waits for a parked ring write (11 R279). -/
structure EngRec where
  ctx : BitVec 6
  cl : Option (Fin 4 × Fin 24)
  cpl : CplRec
deriving DecidableEq, Repr

/-- A posted address whose word is being fetched (11 R273). -/
structure EngPost where
  va : Word
  ctx : BitVec 6
  cl : Option (Fin 4 × Fin 24)
deriving DecidableEq, Repr

/-- An engine (11 R272 to R280). -/
structure Engine where
  st : EngState
  ctx : BitVec 6
  cause : Byte
  seq : BitVec 16
  nextSeq : BitVec 16
  queue : List EngCmd
  fetching : List EngPost
  rejCode : Byte
  rejOp : Byte
  rejTag : BitVec 16
  rejCount : BitVec 16
  parked : Bool
  ringParked : Bool
  recs : List EngRec
deriving DecidableEq, Repr

/-- A stream of the RAND (11 R284). -/
structure RandStream where
  owned : Bool
  owner : BitVec 6
  key : BitVec 128
  ctr : BitVec 128
deriving DecidableEq, Repr

/-- `COMSTAT` of one compute die (11 R271). -/
structure ComStat where
  ceCnt : BitVec 16
  ueCnt : BitVec 8
  ueInTs : Bool
  ueCluster : BitVec 5
  ueOffset : BitVec 27
deriving DecidableEq, Repr

/-- A fabric flit: the fields of its header, its reserved bits, and the payload bytes in use (15 R359). Of one in transit, `inPort` is the
port whose buffer it takes up (R360). -/
structure Flit where
  ftype : Nat
  vc : Nat
  last : Bool
  fseq : Nat
  ackSeq : Nat
  credits : Nat
  crvc : Nat
  dst : Nat
  dcd : Nat
  hops : Nat
  src : Nat
  ctx : Nat
  collId : Nat
  rank : Nat
  offset : Nat
  reserved : Nat
  payload : List Byte
  inPort : Option (Fin 12)
deriving DecidableEq, Repr

/-- What a compute die's CRE holds (15 R366 to R369): flits in the staging SRAM, flits of the module's own senders on
their way to it, and whether the open COLLRECV has timed out. -/
structure CreState where
  held : List (Option (Fin 12) × Flit)
  localq : List Flit
  timedOut : Bool
deriving DecidableEq, Repr

/-! ## Movers and translation (12) -/

/-- `MVSTAT.STATE` (12 R289). -/
inductive MvState where
  | idle | run | wait | halted
deriving DecidableEq, Repr

/-- A mover channel (12 R288 to R296): `desc` is the descriptor in execution, `row` its row, `handing` the `RSTATUS` of a
hand-back under way, `out` the bytes written so far by a compression or decompression, `nv` and `of` the flags of a
conversion, `earlier` the descriptors that the one in execution may overtake, each with the bytes that its rows produced (R294). -/
structure Mover where
  size : BitVec 4
  base : BitVec 58
  st : MvState
  dir : Bool
  pav : Bool
  cause : Byte
  idx : BitVec 12
  done : BitVec 32
  fva : Word
  fpa : BitVec 52
  kicked : Bool
  row : Nat
  desc : List Word
  parked : Bool
  handing : Option Byte
  out : Nat
  nv : Bool
  of : Bool
  earlier : List (List Word × Nat)
deriving DecidableEq, Repr

/-- A segment of a context (12 R297). -/
structure Segment where
  base : Word
  limit : Word
  r : Bool
  w : Bool
  x : Bool
deriving DecidableEq, Repr

/-- `CTXTABLE` of a context (12 R297). -/
structure CtxTable where
  segCount : BitVec 4
  base : BitVec 40
deriving DecidableEq, Repr

/-- A translation held by an ETU (12 R298): context, level of the leaf, virtual page, frame, `RO`. -/
structure TlbEntry where
  ctx : BitVec 6
  level : Nat
  vpage : Nat
  frame : Nat
  ro : Bool
deriving DecidableEq, Repr

/-- A fault record with the requesters parked on it (12 R302). -/
structure FaultRec where
  ctx : BitVec 6
  write : Bool
  fetch : Bool
  cause : Nat
  level : Nat
  early : Bool
  vpage : Nat
  parked : List Requester
  late : List Requester
deriving DecidableEq, Repr

/-- An ETU (12 R297 to R305). -/
structure Etu where
  segs : SMap Segment
  ctxs : SMap CtxTable
  pfDis : Bool
  mergeDis : Bool
  maint : Bool
  walks : BitVec 32
  tlb : List TlbEntry
  fbBase : BitVec 36
  fbEnable : Bool
  fbHostIrq : Bool
  fbThresh : BitVec 9
  collecting : List FaultRec
  collBuf : Bool
  outstanding : Option (List FaultRec)
  bseq : BitVec 16
  outSeq : BitVec 16
  late : BitVec 16
  fullWait : BitVec 16
  fullParked : List Requester
  byTime : Bool
  wdBase : Word
  wdLimit : Word
  wdBusy : Bool
  wdDone : Bool
  wdTimeout : Bool
  wdIgnored : Bool
  wdIrq : Bool
  wdAwaited : List Requester
  wdCtx : BitVec 6
  wdStuck : Bool
deriving DecidableEq, Repr

/-! ## Caches and directories (13) -/

/-- The state of a line in a cache (13 R308, R316). -/
inductive LineState where
  | i | s | e | m | f
deriving DecidableEq, Repr

/-- What a cache holds or awaits of a line (13 R316, R317, R320). -/
inductive Transient where
  | none | is | im | sm | mi | ei
deriving DecidableEq, Repr

/-- A maintenance operation by address (13 R325). -/
inductive Maint where
  | clean | inval | cleanInval
deriving DecidableEq, Repr

/-- A message sent to a cache about a line (13 R309, R317, R323): a read or ownership request forwarded for a requester, an
invalidation whose acknowledgement a requester awaits, a recall, a maintenance operation. -/
inductive Snoop where
  | read (dst : CacheId)
  | own (dst : CacheId)
  | inval (dst : CacheId)
  | recall
  | maint (op : Maint)
deriving DecidableEq, Repr

/-- What arrives at a directory about a line (13 R317, R321, R323): requests, a writeback, a clean eviction notice, a message
of the module directory to a die (slot 33), a maintenance operation of a core, an uncached request of the die (slot 32) with its
offset in the line. -/
inductive DirReq where
  | read (cache : CacheId)
  | own (cache : CacheId)
  | upgrade (cache : CacheId)
  | writeback (cache : CacheId)
  | notice (cache : CacheId)
  | forwarded (m : Snoop)
  | maint (core : Nat) (op : Maint)
  | uncached (at' : EtuId) (cls : Fin 5) (off : Nat) (size : Nat) (data : Option (List Byte))
deriving DecidableEq, Repr

/-- Why a directory entry is open (13 R317). -/
inductive OpenKind where
  | fill | own | fwd | wb | maint | recall
deriving DecidableEq, Repr

/-- A line in one cache: its state, poison bit and way, whether its fill carries the non-temporal hint, the class that the fill
allocates under (02 R49, 13 R310), what it awaits, the state granted by an answered request, the invalidations still awaited, whether
its hold window is open, and the messages that have been sent to it (13 R311, R313, R316, R317, R320). -/
structure CacheLine where
  st : LineState
  poison : Bool
  way : Nat
  nt : Bool
  cls : Fin 5
  tr : Transient
  granted : Option LineState
  awaits : Nat
  hold : Bool
  snoops : List Snoop
deriving DecidableEq, Repr

/-- The entry of a line at a directory (13 R312, R314, R315, R317, R321, R322): its `OPEN` mark with the requesters whose
acknowledgements close it, the message that a die serves, the acknowledgements owed to it, the messages of one cycle being
collected, those that wait, the requests in the miss register of the line, the way of a directory-only entry, and the core
whose maintenance operation it carries. -/
structure DirEntry where
  openFor : Option OpenKind
  awaited : List CacheId
  task : Option Snoop
  owed : Nat
  batch : List DirReq
  waiting : List DirReq
  missers : List DirReq
  way : Option Nat
  maintOf : Option Nat
deriving DecidableEq, Repr

/-- The newest copy of a dirty line: its bytes and its poison bit (13 R316). -/
structure DirtyLine where
  data : List Byte
  poison : Bool
deriving DecidableEq, Repr

/-! ## Memory tiers (14) -/

/-- An entry of the poison table (14 R338): the lines of the tile written since, and `stamp`, which tells one poisoning from another: the
stored seal differs from that of the contents by a free value of it (log entry 27). -/
structure PoisonTile where
  present : Bool
  written : BitVec 32
  stamp : Nat
deriving DecidableEq, Repr

/-- A page redirection: the page and its reserve slot (14 R351, R352). -/
structure Redirect where
  page : Nat
  slot : Nat
deriving DecidableEq, Repr

/-- A command running in a seal engine, with what it will report (14 R342). -/
structure SealCmd where
  op : Nat
  irq : Bool
  result : Byte
  done : Nat
deriving DecidableEq, Repr

/-- A remap that waits (14 R344, R345): stack and row key. -/
structure RemapReq where
  stack : Nat
  row : Nat
deriving DecidableEq, Repr

/-- The row-remap state of one stack, or of one tier 2 channel, with its spare columns (14 R343 to R347, R354). -/
structure StackState where
  cam : SMap Nat
  badSpares : List Nat
  columns : SMap Word
  newRemap : BitVec 8
  lastRow : BitVec 64
  tracker : List (Nat × Nat)
  temp : Byte
  tmax : Byte
  level : BitVec 2
  sensFail : Bool
  thrCnt : BitVec 16
deriving DecidableEq, Repr

/-- A memory block: MB d, or the tier 2 logic of HD (14). `retired` holds granules, `retq` those that wait to be read,
`moving` the page and slot of a move under way with its message request, `unlogged` the log entries of a remap that has been made
and not logged yet (R345). -/
structure MemBlock where
  retryOk : BitVec 16
  poisNew : BitVec 8
  eccCe : BitVec 16
  lastTile : BitVec 32
  lastSrc : BitVec 4
  seStart : Word
  seCount : Word
  seBuf : Word
  seBusy : Bool
  seResult : Byte
  seDone : BitVec 32
  seMismatch : BitVec 16
  seCmd : Option SealCmd
  remapThresh : BitVec 4
  autoDis : Bool
  retq : List Nat
  retLost : Bool
  sealCache : List (Nat × BitVec 32)
  poison : SMap PoisonTile
  retired : List Nat
  redirects : List Redirect
  moving : Option (Nat × Nat × Bool)
  patrol : Nat
  remaps : List RemapReq
  unlogged : List Nat
deriving DecidableEq, Repr

/-- The state of a die-to-die link (01 R21, 14 R333): the consecutive failed replays of the flit that is awaited in each
direction, and whether the link is down. -/
structure LinkState where
  fwd : Nat
  back : Nat
  down : Bool
deriving DecidableEq, Repr

/-! ## Fabric and Tether (15) -/

/-- `FPSTAT.STATE` (15 R362). -/
inductive PortState where
  | off | training | up | loopback | down
deriving DecidableEq, Repr

/-- A fabric port (15 R359 to R362). `replay` are the flits that no acknowledgement covers, `waitq` those that wait for a credit, `rxq`
those received and not yet taken, `loop` the flits on the wire of a port that loops its transmitter to its own receiver, `turn` that
channel 1 goes before channel 0 (16 R396). -/
structure Port where
  st : PortState
  peerSeen : BitVec 20
  peerPSeen : BitVec 4
  replays : BitVec 16
  fecCorr : BitVec 16
  noRoute : BitVec 16
  hopLimit : BitVec 16
  noMatch : BitVec 16
  txSeq : BitVec 8
  rxSeq : BitVec 8
  nackSent : Bool
  nackSeq : Nat
  failedReplays : Nat
  replay : List Flit
  waitq : List Flit
  credits : SMap Nat
  rxq : List Flit
  loop : List (List Byte)
  turn : Bool
deriving DecidableEq, Repr

/-- A Tether port (15 R383): `gone` while its neighbour counts as lost (16 R400), `seen` from its first HEARTBEAT on,
`mismatch` once that named another module than `TPEER`; `txq` are the tokens that wait, each with its type and its blocks, `ext` the
extension block of the token whose first block is out, `held` the first block received whose extension block is to come (R373). -/
structure TPort where
  lock : Bool
  lost : Bool
  gone : Bool
  seen : Bool
  peerSeen : BitVec 20
  crcErr : BitVec 16
  mismatch : Bool
  txq : List (Nat × List Nat)
  ext : Option Nat
  held : Option Nat
deriving DecidableEq, Repr

/-- A barrier slot (15 R378): its number, the barrier, and who has arrived. -/
structure BarSlot where
  slot : Nat
  id : BitVec 16
  own : Bool
  ports : List Nat
  sentUp : Bool
deriving DecidableEq, Repr

/-- A reduce slot (15 R380): the operand of each arrived contributor by port, 8 for the own one. -/
structure RedSlot where
  slot : Nat
  op : BitVec 3
  id : BitVec 11
  operands : List (Nat × Word)
  sentUp : Bool
deriving DecidableEq, Repr

/-- A notice (15 R383). -/
structure Notice where
  code : Byte
  data : Byte
  origin : BitVec 20
  subject : BitVec 20
deriving DecidableEq, Repr

/-- A standing thermal-slow notice (15 R376). -/
structure SlowNotice where
  origin : BitVec 20
  factor : Byte
deriving DecidableEq, Repr

/-- The Tether logic (15 R370 to R383). `heldArrivals` are arrivals for a 17th barrier (8 for the module's own); `sentUp`
are the subjects of the fault notices sent upward, with the always-on count at which each was. -/
structure Tether where
  ports : SMap TPort
  subject : BitVec 20
  nqIrq : Bool
  stopSeen : Bool
  stopOrigin : BitVec 20
  stopCause : Byte
  stopped : Bool
  tcrcErr : BitVec 16
  bars : List BarSlot
  barErr : Bool
  heldArrivals : List (Nat × BitVec 16)
  flipOwn : Bool
  flipPorts : List Nat
  flipSent : Bool
  flipOpened : Bool
  flipTimer : Bool
  tred : Word
  reds : List RedSlot
  redRes : SMap Word
  notices : List Notice
  noticeLost : Bool
  deliv : SMap (BitVec 24)
  slow : List SlowNotice
  sentUp : List (BitVec 20 × Word)
  tseq : BitVec 12
  stopsTaken : List (BitVec 20 × BitVec 12)
deriving DecidableEq, Repr

/-! ## Snapshots and recovery (16) -/

/-- `SNAPSTAT.PHASE` (16 R407). -/
inductive SnapPhase where
  | off | run | clean | hold | copy | commitWait | stopped | rolled
deriving DecidableEq, Repr

/-- A drain record of the Cabinet (16 R398). -/
structure Drained where
  epoch : BitVec 32
  complete : Bool
  data : List Byte
deriving DecidableEq, Repr

/-- A reroute overlay entry, `ROVL` i (16 R407). -/
structure Rovl where
  dest : BitVec 20
  plen : BitVec 5
  valid : Bool
  ports : BitVec 12
deriving DecidableEq, Repr

/-- What a Bridle partner has sent in its pairing flit (16 R395). -/
structure PairInfo where
  id : Nat
  feed : Nat
  bridleFeed : Nat
  bridleId : Nat
  home : Nat
  drawerGib : Nat
deriving DecidableEq, Repr

/-- The snapshot machinery (16 R384 to R407): `uncopied` and `demand` are granules (physical address / 64 KiB), `heldReq` the agents
whose writes wait at the module directory, `heldWrites` other writes that wait there (fill class, line, offset, bytes), `heldMsi` the
MSIs behind such writes of PCIe, `unsent` the granules placed and not yet streamed, `wardBytes` what the stream being received has
written, `restoring` a restore from a partner's ward whose data are in, `rolling` a rollback whose copy is done, `prevDigest` the
`MDIGEST` of the last manifest, `drainDue` the Cabinet period elapsed, `captureDue` the dies whose RAND capture is due, `arriving` an
arrival that waits for the commit of the epoch before (R386), `pairSent` that a pairing flit has gone out on a port that is up,
`positions` the position records of the own ring, by epoch modulo 32, as they stood at the arrival (R394). -/
structure Snap where
  phase : SnapPhase
  paired : Bool
  draining : Bool
  overrun : Bool
  restoreErr : Bool
  poisoned : Bool
  pairFail : BitVec 4
  epoch : BitVec 32
  committed : BitVec 32
  drained : BitVec 32
  copied : BitVec 24
  streamed : BitVec 24
  rcvd : BitVec 24
  stalls : BitVec 32
  stallUs : BitVec 32
  rollEpoch : BitVec 32
  assumedId : BitVec 20
  takeover : Bool
  xferDest : BitVec 20
  xferEpoch : BitVec 32
  rovl : SMap Rovl
  uncopied : List Nat
  demand : List Nat
  heldReq : List Requester
  heldWrites : List (EtuId × Fin 5 × Nat × Nat × List Byte)
  heldMsi : List Nat
  unsent : List Nat
  streaming : Bool
  manifestDone : Bool
  sent : Nat
  streamAcked : Bool
  wardBytes : Nat
  wardDone : Bool
  peer : Option PairInfo
  restoring : Bool
  rolling : Bool
  prevDigest : List Byte
  drainEpoch : BitVec 32
  cabinet : List Drained
  drainDue : Bool
  captureDue : List Nat
  arriving : Bool
  pairSent : Bool
  positions : SMap (Option (List Byte))
deriving DecidableEq, Repr

/-! ## Host die, management, power, errors (17, 18, 19) -/

/-- `HIRTE` s (17 R408). -/
structure Hirte where
  vector : Byte
  core : BitVec 6
  en : Bool
  pend : Bool
deriving DecidableEq, Repr

/-- `RIDCTX` i (17 R413). -/
structure RidCtx where
  rid : BitVec 16
  mask : BitVec 16
  ctx : BitVec 6
  en : Bool
deriving DecidableEq, Repr

/-- The host die's interrupt controller and PCIe root port (17 R408 to R413). `vectors` holds the pending set of each
Hazia core, keyed by core; `rootCfg` the bytes written into the root port's own configuration space; `sris` that the 100 MHz reference is
independent of the downstream device's (19 R448). -/
structure HostIo where
  hirte : SMap Hirte
  vectors : SMap (BitVec 256)
  rid : SMap RidCtx
  lstate : BitVec 4
  width : BitVec 5
  speed : BitVec 3
  inFault : BitVec 16
  cplTo : BitVec 16
  rootCfg : SMap (Option Byte)
  sris : Bool
deriving DecidableEq, Repr

/-- A management session (17 R416): its ID, key slot and role, the last `MSEQ` accepted, whether it collects heartbeats, its
session keys, the module's own `MSEQ`, the SESSION_INIT that opened it with the SESSION_ACCEPT that answered it, and the datagrams
that answered each request, kept for retransmissions. -/
structure Session where
  sid : Nat
  slot : Nat
  role : Byte
  lastSeq : Nat
  subscribed : Bool
  keys : List Byte
  sent : Nat
  init : List Byte × List (List Byte)
  cache : List (VmpReq × List (List Byte))
deriving DecidableEq, Repr

/-- A management key slot (17 R416). -/
structure MgmtKey where
  ed : List Byte
  ml : List Byte
  role : Byte
  set : Bool
deriving DecidableEq, Repr

/-- A firmware with its two slots (17 R421). -/
structure Firmware where
  slotA : List Byte
  slotB : List Byte
  preferB : Bool
  running : Option Bool
deriving DecidableEq, Repr

/-- A request that waits in the slow queue of the management controller (17 R417), with its operands: every type but the reads. -/
inductive SlowOp where
  | sessionInit (claim : Bool) (slot : Nat) (msg sig1 sig2 : List Byte)
  | sessionClose (rq : VmpReq)
  | subscribe (rq : VmpReq)
  | writeReg (rq : VmpReq) (addr : BitVec 52) (data : List Byte)
  | imageWrite (rq : VmpReq) (offset : Nat) (data : List Byte)
  | imageCtl (rq : VmpReq) (action : Byte)
  | keyslotSet (rq : VmpReq) (slot : Nat) (ed ml : List Byte)
  | mgmtkeySet (rq : VmpReq) (slot : Nat) (role : Byte) (ed ml : List Byte)
  | calWrite (rq : VmpReq) (type inst : BitVec 16) (stamp : Word) (data : List Byte)
  | testHold (rq : VmpReq)
  | testRelease (rq : VmpReq)
  | repair (rq : VmpReq) (op : RepairOp)
  | pprCommit (rq : VmpReq) (die : Nat)
  | moduleReset (rq : VmpReq) (kind : Byte)
  | hostReset (rq : VmpReq)
  | fwStage (rq : VmpReq) (host : Bool) (offset : Nat) (data : List Byte)
  | fwActivate (rq : VmpReq) (host : Bool)
  | fwCommit (rq : VmpReq) (host : Bool)
  | attest (rq : VmpReq) (nonce : List Byte)
  | identity (rq : VmpReq)
deriving DecidableEq, Repr

/-- The management controller (17 R414 to R421): the slow queue holds the requests that wait, each with its session, and `resumed`
marks one that the queue hands on to be executed; the attestation keys are those of this start-up; `net` holds what was written
into the management address block. -/
structure Mgmt where
  keys : SMap MgmtKey
  sessions : List Session
  slow : List (Nat × SlowOp)
  resumed : Bool
  dropped : BitVec 32
  rom : Bool
  testHold : Bool
  heartbeats : BitVec 32
  fwMgmt : Firmware
  fwHost : Firmware
  floor : Nat
  attest : List Byte
  net : SMap (List Byte)
  ppr : List Nat
deriving DecidableEq, Repr

/-- `CDPWR` of one compute die, with what its fields are computed from (18 R423 to R425): the lowest state that the power
limit allows, the degrees by which thermal actions fire early and whether the clock trims are missing (02 R68), and the
state that a frequency change under way leads to. -/
structure CdPwr where
  pstate : BitVec 2
  preq : BitVec 2
  tlim : BitVec 2
  plim : Bool
  idle : Bool
  jtemp : Byte
  jmax : Byte
  stepCnt : BitVec 16
  sensorFailed : Bool
  powLim : BitVec 2
  early : BitVec 3
  trimBad : Bool
  target : Option (BitVec 2)
deriving DecidableEq, Repr

/-- Power, input, start-up and reset (18 R422 to R429, 19 R446 to R449). `domains` has bit i for the domain i of R422's table: 0
always-on, 1 Cabinet, 2 host uncore, 3 host cores, 4-7 compute groups, 8 tier 2, 9 fabric. `step` is the last start-up step completed;
`low48`, `low44`, `high50`, `lowHeader` count consecutive samples of the input and of PFW_IN_N; `adaptive` are the ports that train from
defaults, as instances of type 0004h; `failstopLow` is the level that the FAILSTOP_N output is driven to. The inputs of J3 are operands
of the commands that sample them. -/
structure Power where
  domains : BitVec 10
  step : Nat
  startUps : Nat
  brownHold : Bool
  vin : BitVec 16
  pin : BitVec 16
  pfw : Bool
  pfwSeen : Bool
  pfwCnt : BitVec 16
  low48 : Nat
  low44 : Nat
  high50 : Nat
  lowHeader : Nat
  goodWindows : Nat
  failStop : Option Byte
  poweredDown : Bool
  counter : Word
  lost156 : Bool
  lost100 : Bool
  failstopLow : Bool
  hdAtP2 : Bool
  adaptive : BitVec 21
deriving DecidableEq, Repr

/-- A machine-check record by field (18 R430). -/
structure McRec where
  seq : BitVec 16
  sev : BitVec 2
  scope : BitVec 2
  esc : Bool
  ovf : Bool
  die : Nat
  unit : BitVec 16
  cls : Byte
  detail : Byte
  paddr : Nat
  vaddr : Word
  ctx : Option (BitVec 6)
  pl : BitVec 2
  gm : Bool
  stamp : Word
  count : Nat
deriving DecidableEq, Repr

/-- The machine-check queue of one die (18 R433, R434): slots by number. -/
structure McQueue where
  slots : List (Nat × McRec)
  overflow : Bool
  lost : BitVec 16
  lastSeq : BitVec 16
  ovfNext : Bool
deriving DecidableEq, Repr

/-- What the module has sent to the outside, in order (the model's own record; log entry 6). -/
inductive Output where
  /-- a 64-bit data block on a Tether port (15 R371). -/
  | block (port : Nat) (b : Nat)
  /-- the 256 bytes of a flit on a fabric port (15 R359). -/
  | flit (port : Nat) (bytes : List Byte)
  /-- a management datagram, header to tag (17 R414). -/
  | vmp (bytes : List Byte)
  /-- a PCIe access going out: address, data. -/
  | pcie (addr : Nat) (size : Nat) (data : Option (List Byte))
  /-- the completion of an inbound PCIe request: success, or Unsupported Request (17 R413). -/
  | completion (ok : Bool) (data : List Byte)
  /-- an edge of an output pin: 0 FAILSTOP_N, 1 PRES_N. -/
  | pin (n : Nat) (v : Bool)
deriving DecidableEq, Repr

/-! ## The module -/

/-- The state of the module. Keys of the stores: cores 0-95 are the sequencers (24 d + nn), 96-159 the Hazia cores. -/
structure State where
  pending : List Instr
  fresh : Nat
  out : List Output
  busOut : List Byte
  mem : List Host.Cell
  dirty : SMap DirtyLine
  badSram : List Nat
  cores : SMap Core
  image : Image
  calib : Calib
  calRun : Calib
  arrays : SMap ArrayCfg
  quads : SMap Quad
  tiles : SMap Tile
  srseed : SMap Word
  engines : SMap Engine
  engRings : SMap RingState
  rands : SMap RandStream
  fuses : SMap Word
  comstat : SMap ComStat
  cre : SMap CreState
  randLate : List Nat
  movers : SMap Mover
  etus : SMap Etu
  lines : SMap CacheLine
  dies : SMap DirEntry
  module : SMap DirEntry
  dieGrant : SMap Nat
  moduleGrant : Nat
  plru : SMap Nat
  reqq : SMap (List (Nat × Option (Nat × Maint)))
  snoopq : SMap (List (Nat × Snoop))
  links : SMap LinkState
  blocks : SMap MemBlock
  dram : SMap StackState
  ports : SMap Port
  tether : Tether
  snap : Snap
  host : HostIo
  mgmt : Mgmt
  cdpwr : SMap CdPwr
  power : Power
  mcheck : SMap McQueue
  fatalLog : List McRec
  fatalNew : Nat
deriving DecidableEq, Repr

/-- Why the machine stops with a fault. -/
inductive Fault where
  /-- Raised by no command of this model: every error of the hardware is an effect on the state. Safe. -/
  | unreachable
deriving DecidableEq, Repr

/-- Why the model refuses a command. -/
inductive Refusal where
  /-- The command has no meaning yet: raised by arms of `exec` alone. Safe. -/
  | notModelled (mnemonic : String)
deriving DecidableEq, Repr

/-! ## The state after power-on

A module as shipped (19 R451) when its input has just risen through 40 V (18 R429), before step 1 of start-up. Values
that the spec does not give are those of log entry 7. -/

/-- `STATUS` after reset (06 R157, 09 R242); the mode is `CFLAGS.MODE`, 0 while no image is in force. -/
def Status.reset : Status :=
  { gm := true, pl := .machine, mode := false, elevate := false, rm := 0, nx := false, uf := false, of := false,
    dz := false, nv := false }

/-- The trap registers after reset (09 R228 to R230); `lvl` is the reset value of `PPL` and `ORIGIN`. -/
def TrapRegs.reset (lvl : BitVec 2) : TrapRegs :=
  { pc := 0, ppl := lvl, origin := lvl, pgm := true, pmode := false, pb := false, shcnt := 0, shmode := false,
    esc := false, int := false, target := 0, cause := 0, detail := 0, addrv := false, write := false, fetch := false,
    vpage := 0, hmode := true, base := 0 }

/-- A bank after reset (09 R242). -/
def Bank.reset : Bank :=
  { a := [], d := [], lstart := [], lend := [], lcount := [], act := 0, plb := false, plvl := 0, ssBase := 0,
    ssLimit := 0, ssPtr := 0 }

/-- A sequencer or core in RESET (09 R242, 17 R411). -/
def Core.reset : Core :=
  { st := .reset, pc := 0, status := Status.reset, bm := Bank.reset, bs := Bank.reset, bu := Bank.reset,
    tm := TrapRegs.reset 0, ts := TrapRegs.reset 2, v := [], p := [], ien := 0, ipend := 0, cycles := 0, slot := .none,
    pend := none, closed := false, shCnt := 0, shMode := false, resv := none, pair := none, sbuf := [], wait := none,
    tensor := none, haltReq := false, maint := false }

/-- The image store of a module as shipped (02 R57, R58; 19 R451). -/
def Image.reset : Image :=
  { slotA := [], slotB := [], activeIsB := false, selSeq := 0, shd := .empty, hold := false, flipAbort := false,
    noActive := false, unfit := false, loadPath := false, rejCode := 0, rejType := 0, rejOffset := 0,
    committed := false, applying := false, selected := none, trains := [], secs := [], secsNext := [],
    keys := [] }

/-- An array before the calibration is read (03 R98, R99). -/
def ArrayCfg.reset : ArrayCfg := { layout := 0, avail := false, mapBad := false, repCount := 0, rep := 0 }

/-- An empty B buffer. -/
def BBuf.empty : BBuf := { full := false, fmt := 0, k := 0, n := 0, elems := [], scales := [] }

/-- A completion ring after reset: slot 0, `PHASE` 1 (05 R133, 11 R279). -/
def RingState.reset : RingState :=
  { enable := false, seqIrq := false, hostIrq := false, base := 0, next := 0, phase := true }

/-- A quadrant after reset: UNBOUND (03 R100). -/
def Quad.reset : Quad :=
  { pmask := 0, ctx := 0, bound := false, cause := 0, dryCnt := 0, drnCnt := 0, bact := BBuf.empty,
    bshd := BBuf.empty, queue := [], fetching := [], nextSeq := 1, restarted := false, accSeq := 0, retSeq := 0,
    rejCode := 0, rejOp := 0, rejTag := 0, rejCount := 0, ring := RingState.reset, recs := [],
    aParked := false, bParked := false, drainParked := false, recParked := false, fault := false }

/-- A tile after reset (05 R149). -/
def Tile.reset : Tile :=
  { entries := [], fmt := 0xFF, sat := false, nv := false, of := false, poison := false }

/-- An engine after reset (11 R279). -/
def Engine.reset : Engine :=
  { st := .idle, ctx := 0, cause := 0, seq := 0, nextSeq := 1, queue := [], fetching := [], rejCode := 0, rejOp := 0,
    rejTag := 0, rejCount := 0, parked := false, ringParked := false, recs := [] }

/-- A free stream (11 R284). -/
def RandStream.reset : RandStream := { owned := false, owner := 0, key := 0, ctr := 0 }

/-- `COMSTAT` after reset (11 R271). -/
def ComStat.reset : ComStat := { ceCnt := 0, ueCnt := 0, ueInTs := false, ueCluster := 0, ueOffset := 0 }

/-- A CRE after reset. -/
def CreState.reset : CreState := { held := [], localq := [], timedOut := false }

/-- A mover channel after reset (12 R289). -/
def Mover.reset : Mover :=
  { size := 0, base := 0, st := .idle, dir := false, pav := false, cause := 0, idx := 0, done := 0, fva := 0, fpa := 0,
    kicked := false, row := 0, desc := [], parked := false, handing := none, out := 0, nv := false, of := false,
    earlier := [] }

/-- A segment after reset (12 R297). -/
def Segment.reset : Segment := { base := 0, limit := 0, r := false, w := false, x := false }

/-- `CTXTABLE` after reset (12 R297). -/
def CtxTable.reset : CtxTable := { segCount := 0, base := 0 }

/-- An ETU after reset (12 R297 to R305): maintenance mode, threshold 32. -/
def Etu.reset : Etu :=
  { segs := [], ctxs := [], pfDis := false, mergeDis := false, maint := true, walks := 0, tlb := [], fbBase := 0,
    fbEnable := false, fbHostIrq := false, fbThresh := 32, collecting := [], collBuf := false, outstanding := none,
    bseq := 1, outSeq := 0, late := 0, fullWait := 0, fullParked := [], byTime := false, wdBase := 0, wdLimit := 0,
    wdBusy := false, wdDone := false, wdTimeout := false, wdIgnored := false, wdIrq := false, wdAwaited := [],
    wdCtx := 0, wdStuck := false }

/-- A line that a cache does not hold. -/
def CacheLine.reset : CacheLine :=
  { st := .i, poison := false, way := 0, nt := false, cls := 0, tr := .none, granted := none, awaits := 0, hold := false, snoops := [] }

/-- A directory entry at rest. -/
def DirEntry.reset : DirEntry :=
  { openFor := none, awaited := [], task := none, owed := 0, batch := [], waiting := [], missers := [], way := none,
    maintOf := none }

/-- No dirty copy. -/
def DirtyLine.none : DirtyLine := { data := [], poison := false }

/-- A tile without a poison entry. -/
def PoisonTile.reset : PoisonTile := { present := false, written := 0, stamp := 0 }

/-- A stack or channel with an empty log (14 R344 to R347, R356). -/
def StackState.reset : StackState :=
  { cam := [], badSpares := [], columns := [], newRemap := 0, lastRow := 0, tracker := [], temp := 0, tmax := 0,
    level := 0, sensFail := false, thrCnt := 0 }

/-- A memory block after reset (14 R341 to R350). -/
def MemBlock.reset : MemBlock :=
  { retryOk := 0, poisNew := 0, eccCe := 0, lastTile := 0, lastSrc := 0, seStart := 0, seCount := 0, seBuf := 0,
    seBusy := false, seResult := 0, seDone := 0, seMismatch := 0, seCmd := none, remapThresh := 4, autoDis := false,
    retq := [], retLost := false, sealCache := [], poison := [], retired := [], redirects := [],
    moving := none, patrol := 0, remaps := [], unlogged := [] }

/-- The calibration store as written at manufacture (19 R451; log entry 7). -/
def Calib.reset : Calib :=
  { dirA := Config.shippedDirectory false, dirB := Config.shippedDirectory true
    data := Config.shippedData.foldl (fun m x => mset [] m x.1 x.2) [] }

/-- The set read at start-up, before it is read. -/
def Calib.unread : Calib := { dirA := [], dirB := [], data := [] }

/-- A link at rest. -/
def LinkState.reset : LinkState := { fwd := 0, back := 0, down := false }

/-- A fabric port after reset (15 R362). -/
def Port.reset : Port :=
  { st := .off, peerSeen := 0, peerPSeen := 0, replays := 0, fecCorr := 0, noRoute := 0, hopLimit := 0, noMatch := 0,
    txSeq := 0, rxSeq := 0, nackSent := false, nackSeq := 0, failedReplays := 0, replay := [], waitq := [], credits := [], rxq := [], loop := [], turn := false }

/-- A Tether port after reset (15 R383). -/
def TPort.reset : TPort := { lock := false, lost := false, gone := false, seen := false, peerSeen := 0, crcErr := 0, mismatch := false, txq := [], ext := none, held := none }

/-- The Tether logic after reset (15 R383). -/
def Tether.reset : Tether :=
  { ports := [], subject := 0, nqIrq := false, stopSeen := false, stopOrigin := 0, stopCause := 0, stopped := false,
    tcrcErr := 0, bars := [], barErr := false, heldArrivals := [], flipOwn := false, flipPorts := [], flipSent := false,
    flipOpened := false, flipTimer := false, tred := 0, reds := [], redRes := [], notices := [], noticeLost := false,
    deliv := [], slow := [], sentUp := [], tseq := 0, stopsTaken := [] }

/-- An overlay entry after reset (16 R407). -/
def Rovl.reset : Rovl := { dest := 0, plen := 0, valid := false, ports := 0 }

/-- The snapshot machinery after reset (16 R407): no epoch committed or drained. -/
def Snap.reset : Snap :=
  { phase := .off, paired := false, draining := false, overrun := false, restoreErr := false, poisoned := false,
    pairFail := 0, epoch := 0, committed := 0xFFFFFFFF, drained := 0xFFFFFFFF, copied := 0, streamed := 0, rcvd := 0,
    stalls := 0, stallUs := 0, rollEpoch := 0, assumedId := 0, takeover := false, xferDest := 0, xferEpoch := 0,
    rovl := [], uncopied := [], demand := [], heldReq := [], heldWrites := [], heldMsi := [], unsent := [], streaming := false, manifestDone := false, sent := 0,
    streamAcked := false, wardBytes := 0, wardDone := false, peer := none, restoring := false, rolling := false, prevDigest := [],
    drainEpoch := 0, cabinet := [], drainDue := false, captureDue := [], arriving := false, pairSent := false, positions := [] }

/-- `HIRTE` s after reset (17 R408). -/
def Hirte.reset : Hirte := { vector := 0, core := 0, en := false, pend := false }

/-- `RIDCTX` i after reset (17 R413). -/
def RidCtx.reset : RidCtx := { rid := 0, mask := 0, ctx := 0, en := false }

/-- The HIC and the root port after reset (17 R408, R413). -/
def HostIo.reset : HostIo :=
  { hirte := [], vectors := [], rid := [], lstate := 0, width := 0, speed := 0, inFault := 0, cplTo := 0, rootCfg := [], sris := false }

/-- An empty management key slot (19 R451). -/
def MgmtKey.reset : MgmtKey := { ed := [], ml := [], role := 0, set := false }

/-- A firmware as shipped: what its slots hold is not given (19 R451; log entry 7). -/
def Firmware.shipped (host : Bool) : Firmware :=
  { slotA := Config.shippedFirmware host false, slotB := Config.shippedFirmware host true, preferB := false, running := none }

/-- The management controller before its firmware runs. -/
def Mgmt.reset : Mgmt :=
  { keys := [], sessions := [], slow := [], resumed := false, dropped := 0, rom := false, testHold := false, heartbeats := 0,
    fwMgmt := Firmware.shipped false, fwHost := Firmware.shipped true, floor := Config.shippedVersion, attest := [], net := [], ppr := [] }

/-- `CDPWR` after reset (18 R425). -/
def CdPwr.reset : CdPwr :=
  { pstate := 2, preq := 0, tlim := 0, plim := false, idle := false, jtemp := 0, jmax := 0, stepCnt := 0,
    sensorFailed := false, powLim := 0, early := 0, trimBad := false, target := none }

/-- The input has just risen through 40 V: the always-on domain alone is powered (18 R422, R429). -/
def Power.reset : Power :=
  { domains := 1, step := 0, startUps := 0, brownHold := false, vin := 0, pin := 0, pfw := false,
    pfwSeen := false, pfwCnt := 0, low48 := 0, low44 := 0, high50 := 0, lowHeader := 0, goodWindows := 0, failStop := none, poweredDown := false,
    counter := 0, lost156 := false, lost100 := false, failstopLow := false, hdAtP2 := false, adaptive := 0 }

/-- A machine-check queue after reset (18 R433). -/
def McQueue.reset : McQueue := { slots := [], overflow := false, lost := 0, lastSeq := 0, ovfNext := false }

/-- The module after power-on. -/
def State.reset : State :=
  { pending := [], fresh := 0, out := [], busOut := [], mem := [], dirty := [], badSram := [], cores := [],
    image := Image.reset, calib := Calib.reset, calRun := Calib.unread, arrays := [], quads := [], tiles := [], srseed := [],
    engines := [], engRings := [], rands := [], fuses := [], comstat := [], cre := [], randLate := [], movers := [], etus := [],
    lines := [], dies := [], module := [],
    dieGrant := [], moduleGrant := 4, plru := [], reqq := [], snoopq := [], links := [], blocks := [], dram := [], ports := [],
    tether := Tether.reset, snap := Snap.reset, host := HostIo.reset, mgmt := Mgmt.reset, cdpwr := [],
    power := Power.reset, mcheck := [], fatalLog := [], fatalNew := 0 }

end Sys2Proof.Machine
end

