-- ==== Sys2Proof/Machine/Ops.lean ====
section
/-! DEFINITION. The named operations over the units of the module that every family shares: the units' records by
number, the sections in force, interrupts, machine-check records, containment, stop and fail-stop. -/

namespace Sys2Proof.Machine

/-! ## Units by number -/

/-- The number of a sequencer (24 d + nn) or of a Hazia core (96 + k). -/
def coreKey : CoreId → Nat
  | .sycen d nn => d.val * 24 + nn.val
  | .hazia k => 96 + k.val

/-- The number of an array: index d * 96 + nn * 4 + a (02 R43). -/
def arrayKey (d : Fin 4) (cl : Fin 24) (a : Fin 4) : Nat := d.val * 96 + cl.val * 4 + a.val

/-- The number of a quadrant. -/
def quadKey (p : PartId) : Nat := arrayKey p.cd p.cl p.arr * 4 + p.q.val

/-- The number of a cluster. -/
def clusterKey (d : Fin 4) (cl : Fin 24) : Nat := d.val * 24 + cl.val

/-- The number of a tile. -/
def tileKey (t : TileId) : Nat := clusterKey t.cd t.cl * 16 + t.t.val

/-- The index of an engine within its die (02 R44). -/
def engineIndex : EngineKind → Nat
  | .txe => 0 | .sel => 1 | .gse => 2 | .rand => 3 | .cre => 4 | .tre => 5 | .lze => 6

/-- The number of an engine: index d * 7 + e (02 R44). -/
def engineKey (e : EngineId) : Nat := e.cd.val * 7 + engineIndex e.kind

/-- The number of a mover channel: cluster movers 0-191, bulk movers 192-255, HD movers 256-271. -/
def moverKey : MoverId → Nat
  | .cluster d cl m => clusterKey d cl * 2 + m.val
  | .bulk d m => 192 + d.val * 16 + m.val
  | .host m => 256 + m.val

/-- The number of an ETU: CD d, 4 for HD. -/
def etuKey : EtuId → Nat
  | .cd d => d.val
  | .hd => 4

/-- The number of a memory block: MB d, 4 for the tier 2 logic. -/
def blockKey : MemBlockId → Nat
  | .mb d => d.val
  | .hd => 4

/-- The number of a stack (4 d + s) or of a tier 2 channel (16 + channel). -/
def sensorKey : MemSensor → Nat
  | .stack d s => d.val * 4 + s.val
  | .module m => 16 + m.val

/-- The core of a number. -/
def State.core (s : State) (c : CoreId) : Core := mget Core.reset s.cores (coreKey c)

/-- Replace a core. -/
def State.setCore (s : State) (c : CoreId) (k : Core) : State := { s with cores := mset Core.reset s.cores (coreKey c) k }

/-- Change a core. -/
def State.modCore (s : State) (c : CoreId) (f : Core → Core) : State := s.setCore c (f (s.core c))

def State.quad (s : State) (p : PartId) : Quad := mget Quad.reset s.quads (quadKey p)
def State.setQuad (s : State) (p : PartId) (q : Quad) : State := { s with quads := mset Quad.reset s.quads (quadKey p) q }
def State.tile (s : State) (t : TileId) : Tile := mget Tile.reset s.tiles (tileKey t)
def State.setTile (s : State) (t : TileId) (x : Tile) : State := { s with tiles := mset Tile.reset s.tiles (tileKey t) x }
def State.array (s : State) (d : Fin 4) (cl : Fin 24) (a : Fin 4) : ArrayCfg := mget ArrayCfg.reset s.arrays (arrayKey d cl a)
def State.engine (s : State) (e : EngineId) : Engine := mget Engine.reset s.engines (engineKey e)
def State.setEngine (s : State) (e : EngineId) (x : Engine) : State := { s with engines := mset Engine.reset s.engines (engineKey e) x }
def State.mover (s : State) (m : MoverId) : Mover := mget Mover.reset s.movers (moverKey m)
def State.setMover (s : State) (m : MoverId) (x : Mover) : State := { s with movers := mset Mover.reset s.movers (moverKey m) x }
def State.etu (s : State) (e : EtuId) : Etu := mget Etu.reset s.etus (etuKey e)
def State.setEtu (s : State) (e : EtuId) (x : Etu) : State := { s with etus := mset Etu.reset s.etus (etuKey e) x }
def State.block (s : State) (b : MemBlockId) : MemBlock := mget MemBlock.reset s.blocks (blockKey b)
def State.setBlock (s : State) (b : MemBlockId) (x : MemBlock) : State := { s with blocks := mset MemBlock.reset s.blocks (blockKey b) x }
def State.stack (s : State) (n : Nat) : StackState := mget StackState.reset s.dram n
def State.setStack (s : State) (n : Nat) (x : StackState) : State := { s with dram := mset StackState.reset s.dram n x }
def State.port (s : State) (p : Fin 12) : Port := mget Port.reset s.ports p.val
def State.setPort (s : State) (p : Fin 12) (x : Port) : State := { s with ports := mset Port.reset s.ports p.val x }
def State.tport (s : State) (p : Fin 8) : TPort := mget TPort.reset s.tether.ports p.val
def State.setTport (s : State) (p : Fin 8) (x : TPort) : State :=
  { s with tether := { s.tether with ports := mset TPort.reset s.tether.ports p.val x } }
def State.cdPwr (s : State) (d : Fin 4) : CdPwr := mget CdPwr.reset s.cdpwr d.val
def State.setCdPwr (s : State) (d : Fin 4) (x : CdPwr) : State := { s with cdpwr := mset CdPwr.reset s.cdpwr d.val x }
def State.mcq (s : State) (n : Nat) : McQueue := mget McQueue.reset s.mcheck n
def State.setMcq (s : State) (n : Nat) (x : McQueue) : State := { s with mcheck := mset McQueue.reset s.mcheck n x }

/-- Append to the record of what left the module (log entry 6). -/
def State.emit (s : State) (o : Output) : State := { s with out := s.out ++ [o] }

/-- Advance the counter of the free values (log entry 5). -/
def State.bump (s : State) : State := { s with fresh := s.fresh + 1 }

/-- Whether power domain `i` of 18 R422 is powered. -/
def State.powered (s : State) (i : Nat) : Bool := s.power.domains.getLsbD i

/-- Whether compute die `d` is powered. -/
def State.cdUp (s : State) (d : Fin 4) : Bool := s.powered (4 + d.val)

/-- Whether a stop has frozen the module (03 R87, 15 R381). -/
def State.frozen (s : State) : Bool := s.tether.stopped

/-! ## Sections in force (02 R43 to R54) -/

/-- The body of a section in force; empty where none is. -/
def State.sec (s : State) (type : Nat) : List Byte := mget [] s.image.secs type

/-- Whether a section is in force. -/
def State.hasSec (s : State) (type : Nat) : Bool := s.sec type ≠ []

/-- A little-endian field of `n` bytes at an offset of a section in force. -/
def State.secNat (s : State) (type off n : Nat) : Nat := leNat (((s.sec type).drop off).take n)

/-- The context byte of a cluster: `CCTX` (02 R44); unbound where no section is in force. -/
def State.cctxByte (s : State) (cl : Nat) : Nat := if s.hasSec 2 then s.secNat 2 (16 * cl) 1 else 0x80

/-- `CFLAGS` of a cluster (02 R44). -/
def State.cflags (s : State) (cl : Nat) : Nat := s.secNat 2 (16 * cl + 1) 1

/-- `ENTRYVA` of a cluster (02 R44). -/
def State.entryVa (s : State) (cl : Nat) : Word := BitVec.ofNat 64 (s.secNat 2 (16 * cl + 8) 8)

/-- `ENGMASK` of an engine (02 R44). -/
def State.engMask (s : State) (e : EngineId) : Nat := s.secNat 2 (1536 + 8 * engineKey e) 8

/-- The context byte of a bulk mover or HD mover (02 R44). -/
def State.bulkCtxByte (s : State) (i : Nat) : Nat := if s.hasSec 2 then s.secNat 2 (1760 + i) 1 else 0x80

/-- `MODULEID` in effect: that of section 04h, or the one a spare has assumed (02 R46, 16 R403). -/
def State.moduleId (s : State) : Nat := if s.snap.takeover then s.snap.assumedId.toNat else bits (s.secNat 4 0 4) 0 20

/-- `ROLE` of section 04h: 0 worker, 1 Spool, 2 top Spool (02 R46). -/
def State.tetherRole (s : State) : Nat := bits (s.secNat 4 0 4) 20 2

/-- `SPARE` of section 04h, cleared in effect by a takeover (02 R46, 16 R403). -/
def State.spare (s : State) : Bool := bit (s.secNat 4 0 4) 22 && !s.snap.takeover

/-- `TDIR` of a Tether port: 0 unused, 1 up, 2 down (02 R46). -/
def State.tdir (s : State) (p : Nat) : Nat := bits (s.secNat 4 (16 + 8 * p) 4) 20 2

/-- `TPEER` of a Tether port (02 R46). -/
def State.tpeer (s : State) (p : Nat) : Nat := bits (s.secNat 4 (16 + 8 * p) 4) 0 20

/-- `SPOOLID` (02 R46). -/
def State.spoolId (s : State) : Nat := bits (s.secNat 4 80 4) 0 20

/-- The Tether ports in use (02 R46). -/
def State.usedTports (s : State) : List Nat := (countFrom 0 8).filter (fun p => decide (s.tdir p ≠ 0))

/-- The one up port, where there is one (02 R46). -/
def State.upPort (s : State) : Option Nat := (countFrom 0 8).find? (fun p => decide (s.tdir p = 1))

/-- The down ports (02 R46). -/
def State.downPorts (s : State) : List Nat := (countFrom 0 8).filter (fun p => decide (s.tdir p = 2))

/-- Compute is held: by a flip, or by a test hold (02 R64; 17 R418). -/
def State.held (s : State) : Bool := s.image.hold || s.mgmt.testHold

/-! ## Time -/

/-- A sample of the always-on counter: it has advanced by an amount the model leaves free (01 R36, log entry 4). -/
def State.sampleCounter (s : State) : State :=
  { s with fresh := s.fresh + 1, power := { s.power with counter := s.power.counter + BitVec.ofNat 64 (Config.elapsed s.fresh) } }

/-! ## Interrupts (09 R231, 17 R409) -/

/-- Set a bit of a Hazia core's pending set (17 R409). -/
def State.pendVector (s : State) (core : Nat) (vector : Nat) : State :=
  let v : BitVec 256 := mget 0 s.host.vectors core ||| (BitVec.ofNat 256 1 <<< vector)
  { s with host := { s.host with vectors := mset 0 s.host.vectors core v } }

/-- Deliver a latched source whose `EN` is 1 (17 R409). -/
def State.hicDeliver (s : State) (n : Nat) : State :=
  let h := mget Hirte.reset s.host.hirte n
  if h.en && h.pend then
    { s with host := { s.host with hirte := mset Hirte.reset s.host.hirte n { h with pend := false } } }.pendVector
      h.core.toNat h.vector.toNat
  else s

/-- The event of HIC source `n`: latch `PEND` and deliver (17 R408, R409). The HIC is in the host uncore. -/
def State.hicSource (s : State) (n : Nat) : State :=
  if s.powered 2 then
    { s with host := { s.host with hirte := mmod Hirte.reset s.host.hirte n (fun h => { h with pend := true }) } }.hicDeliver n
  else s

/-- Leave Idle: an interrupt source, a post, a KICK or a snoop (18 R423). -/
def State.wakeCd (s : State) (d : Fin 4) : State :=
  if (s.cdPwr d).idle then s.setCdPwr d { s.cdPwr d with idle := false } else s

/-- Set a bit of a sequencer's `IPEND` (09 R231). -/
def State.setIpend (s : State) (d : Fin 4) (cl : Fin 24) (i : Nat) : State :=
  (s.wakeCd d).modCore (.sycen d cl) (fun k => { k with ipend := k.ipend ||| (BitVec.ofNat 6 1 <<< i) })

/-! ## Tether tokens out and the stop (15 R371 to R373, R381) -/

/-- The first block of a token without its CRC: type, subtype, extension flag, origin, argument, sequence (15 R371). -/
def tokenBlock (ttype sub : Nat) (ext : Bool) (origin arg tseq : Nat) : Nat :=
  ttype + 16 * sub + 128 * b2n ext + 2 ^ 8 * origin + 2 ^ 28 * arg + 2 ^ 44 * tseq

/-- A token: its first block with `TCRC`, and its extension block (15 R371). -/
def token (first : Nat) (ext : Option Nat) : List Nat := (first + 2 ^ 56 * tokenCrc first ext) :: ext.toList

/-- Queue a token at its place: before the first of lower priority, which has the greater type (15 R372, R373). -/
def queueToken (kind : Nat) (blocks : List Nat) (q : List (Nat × List Nat)) : List (Nat × List Nat) :=
  q.takeWhile (fun x => decide (x.1 ≤ kind)) ++ (kind, blocks) :: q.dropWhile (fun x => decide (x.1 ≤ kind))

/-- Queue a token on each of a list of ports. A port whose neighbour is not `TPEER` sends no token but STOP and HEARTBEAT
(15 R383), and without its reference the Tether sends nothing (19 R449). -/
def State.sendOn (s : State) (ports : List Nat) (blocks : List Nat) : State :=
  let kind := bits (blocks.headD 0) 0 4
  ports.foldl (fun (s : State) p =>
    let x := mget TPort.reset s.tether.ports p
    if s.power.lost156 ∨ (kind ≠ 1 ∧ kind ≠ 6 ∧ x.mismatch) then s
    else { s with tether := { s.tether with ports := mset TPort.reset s.tether.ports p { x with txq := queueToken kind blocks x.txq } } }) s

/-- What a port transmits next: a STOP first, whose two blocks leave back to back, then the extension block that is due, then the
first block of the next token (15 R372, R373). -/
def TPort.transmit (x : TPort) : List Nat × TPort :=
  match x.txq, x.ext with
  | (1, blocks) :: rest, _ => (blocks, { x with txq := rest })
  | _, some b => ([b], { x with ext := none })
  | (_, first :: more) :: rest, none => ([first], { x with txq := rest, ext := more.head? })
  | _, none => ([], { x with txq := x.txq.drop 1 })

/-- Time in which every Tether port transmits what is due next; without its reference none does (19 R449). -/
def State.tetherTick (s : State) : State :=
  if s.power.lost156 then s
  else (countFrom 0 8).foldl (fun (s : State) p =>
    let (blocks, y) := (mget TPort.reset s.tether.ports p).transmit
    blocks.foldl (fun (s : State) b => s.emit (.block p b))
      { s with tether := { s.tether with ports := mset TPort.reset s.tether.ports p y } }) s

/-- Take the next sequence number of the module's own tokens (15 R371). -/
def State.nextTseq (s : State) : State := { s with tether := { s.tether with tseq := s.tether.tseq + 1 } }

/-- Flood a STOP on every used port but one: two identical blocks (15 R372, R373). -/
def State.floodStop (s : State) (except : Option Nat) (origin tseq cause : Nat) : State :=
  let t := token (tokenBlock 1 0 false origin cause tseq) none
  s.sendOn (s.usedTports.filter (fun p => decide (some p ≠ except))) (t ++ t)

/-- A field of an array command word: word, lowest bit, length (05 R136). -/
def fld (ws : List Nat) (w lo len : Nat) : Nat := bits (nth 0 ws w) lo len

def cOp (ws : List Nat) : Nat := fld ws 0 0 8

/-- A vector command: `MXA` or `MXZ`. -/
def isVec (ws : List Nat) : Bool := decide (cOp ws = 2) || decide (cOp ws = 3)

/-- A partition is frozen dry: a vector after the first of its running command waits for a parked access (03 R83, R86). A parked first
vector freezes nothing, whatever LOADB or DRAIN is in progress (R82). -/
def Quad.dryNow (q : Quad) : Bool :=
  q.bound && !q.fault && q.aParked && q.queue.any (fun c => decide (c.phase = .started) && decide (0 < c.count) && isVec c.words)

/-- The cycles that partitions have been frozen dry until now are counted, but for STOPPED, FAULT and PSTEP cycles: time is free (03
R102; log entry 4). -/
def State.sampleDryOf (s : State) (p : Nat → Bool) : State :=
  if s.power.failStop.isSome ∨ s.tether.stopped then s
  else s.quads.foldl (fun (s : State) x =>
    if p x.1 && x.2.dryNow && (s.cdPwr (Fin.ofNat 4 (x.1 / 384))).target.isNone then
      { s with quads := mset Quad.reset s.quads x.1 { x.2 with dryCnt := satAdd x.2.dryCnt (Config.elapsed s.fresh) } }.bump
    else s) s

/-- The dry cycles of one partition are counted. -/
def State.sampleDry (s : State) (p : PartId) : State := s.sampleDryOf (fun n => decide (n = quadKey p))

/-- Record a STOP of an origin and freeze every partition, engine and mover; the first is kept in `TSTAT`, and every standing slow
notice ends (15 R376, R381). -/
def State.takeStop (s0 : State) (origin : Nat) (cause : Nat) : State :=
  let s := s0.sampleDryOf (fun _ => true)
  { s with tether := { s.tether with
      stopped := true, stopSeen := true, slow := []
      stopOrigin := if s.tether.stopSeen then s.tether.stopOrigin else BitVec.ofNat 20 origin,
      stopCause := if s.tether.stopSeen then s.tether.stopCause else BitVec.ofNat 8 cause } }

/-- A STOP cancels the flip of a committed module (02 R65). -/
def Image.cancelFlip (i : Image) : Image :=
  if i.committed ∧ !i.applying then { i with shd := .valid, hold := false, committed := false } else i

/-- A STOP closes every open barrier, flip and reduce with the arrivals held for them (15 R379). -/
def Tether.close (t : Tether) : Tether :=
  { t with bars := [], heldArrivals := [], reds := [], flipOwn := false, flipPorts := [], flipSent := false, flipOpened := false,
           flipTimer := false }

/-- The effects of the first STOP on every unit besides the freeze: engine queues empty without records (11 R280), ETUs in
maintenance mode (12 R300), the row remaps that wait abandoned (14 R345), barriers and flip closed, the epoch and the streams
stopped (16 R391). -/
def State.stopUnits (s : State) : State :=
  { s with
    engines := mmap Engine.reset (fun _ e => { e with queue := [], fetching := [] }) s.engines
    etus := (countFrom 0 5).foldl (fun m i => mmod Etu.reset m i (fun e => { e with maint := true })) s.etus
    blocks := mmap MemBlock.reset (fun _ b => { b with remaps := [] }) s.blocks
    tether := s.tether.close
    image := s.image.cancelFlip
    snap := { s.snap with phase := if s.snap.phase = .off then .off else .stopped, arriving := false, unsent := [], streaming := false } }

/-- A STOP reaches the module or starts in it: one that finds it already stopped changes nothing but the record (15 R381). -/
def State.stopHere (s : State) (origin cause : Nat) : State :=
  let s1 := s.takeStop origin cause
  if s.tether.stopped then s1 else s1.stopUnits

/-- Inject a STOP with a cause (15 R381). -/
def State.injectStop (s : State) (cause : Nat) : State :=
  let t := s.tether.tseq.toNat
  ((s.nextTseq).floodStop none s.moduleId t cause).stopHere s.moduleId cause

/-! ## Partitions -/

/-- The lead quadrant of the partition that holds a quadrant (02 R43). In a disabled array (layout 8) there is no partition; each
quadrant then counts as its own lead, so that its `QCPLBASE` is readable and writable (05 R133; DESIGN CHOICE, log entry 65). -/
def leadQuad (layout : Nat) (q : Nat) : Nat :=
  match layout with
  | 0 => 0
  | 1 => q % 2
  | 2 => if q < 2 then 0 else 2
  | 4 => if q = 2 then 0 else q
  | 5 => if q = 3 then 1 else q
  | 6 => if q = 1 then 0 else q
  | 7 => if q = 3 then 2 else q
  | _ => q

/-- The quadrants of the partition that a quadrant leads (02 R43). -/
def partQuads (layout lead : Nat) : List Nat := (countFrom 0 4).filter (fun q => decide (leadQuad layout q = lead))

/-- The partition that holds a quadrant: the same identity with its lead quadrant. -/
def State.lead (s : State) (p : PartId) : PartId :=
  { p with q := Fin.ofNat 4 (leadQuad (s.array p.cd p.cl p.arr).layout.toNat p.q.val) }

/-- Put a bound partition into FAULT; one without an error of its own reads cause 00h (18 R435). Its dry freeze ends. -/
def State.faultPart (s0 : State) (p : PartId) (cause : Byte) : State :=
  let s := s0.sampleDry p
  let q := s.quad p
  if q.bound then s.setQuad p { q with fault := true, cause := if q.fault then q.cause else cause } else s

/-- Halt a mover channel at a containment, whatever it does: an idle one holds no descriptor, and one that was about to read its
next descriptor looks again when it goes on (12 R295; 18 R435). -/
def Mover.haltWith (m : Mover) (cause : Byte) : Mover :=
  if m.st = .halted then m
  else { m with
    st := .halted, cause := cause, pav := false, parked := false
    kicked := m.kicked || (decide (m.st ≠ .idle) && decide (m.desc = []) && m.handing.isNone) }

/-! ## Containment (18 R435) -/

/-- Stop the units of a cluster: partitions in FAULT, the sequencer as at `HALTREQ`, both movers halted. -/
def State.containCluster (s : State) (d : Fin 4) (cl : Fin 24) : State :=
  let s1 := (countFrom 0 16).foldl (fun s i =>
      let p : PartId := { cd := d, cl := cl, arr := Fin.ofNat 4 (i / 4), q := Fin.ofNat 4 (i % 4) }
      if s.lead p = p then s.faultPart p 0 else s) s
  let s2 := s1.modCore (.sycen d cl) (fun k => if k.st = .run then { k with haltReq := true } else k)
  let s3 := s2.setMover (.cluster d cl 0) ((s2.mover (.cluster d cl 0)).haltWith 0)
  s3.setMover (.cluster d cl 1) ((s3.mover (.cluster d cl 1)).haltWith 0)

/-- The engines of a die in index order. -/
def allEngines : List EngineKind := [.txe, .sel, .gse, .rand, .cre, .tre, .lze]

/-- Put an engine into FAULT (11 R280, 18 R435): an access of its command that is parked waits no longer. -/
def Engine.faultWith (e : Engine) (cause : Byte) : Engine :=
  { e with st := .fault, parked := false, cause := if e.st = .fault then e.cause else cause }

/-- Stop the units of a compute die: every cluster, every engine, every bulk mover. -/
def State.containDie (s : State) (d : Fin 4) : State :=
  let s1 := (countFrom 0 24).foldl (fun s i => s.containCluster d (Fin.ofNat 24 i)) s
  let s2 := allEngines.foldl (fun s k => s.setEngine ⟨d, k⟩ ((s.engine ⟨d, k⟩).faultWith 0)) s1
  (countFrom 0 16).foldl (fun s i => s.setMover (.bulk d (Fin.ofNat 16 i)) ((s.mover (.bulk d (Fin.ofNat 16 i))).haltWith 0)) s2

/-! ## Machine-check records (18 R430 to R437) -/

/-- A record without addresses: die, unit, class, severity, starting scope, detail (18 R430 to R432). -/
def mkRec (die unit cls sev scope detail : Nat) : McRec :=
  { seq := 0, sev := BitVec.ofNat 2 sev, scope := BitVec.ofNat 2 scope, esc := false, ovf := false, die := die,
    unit := BitVec.ofNat 16 unit, cls := BitVec.ofNat 8 cls, detail := BitVec.ofNat 8 detail, paddr := 0, vaddr := 0,
    ctx := none, pl := 0, gm := false, stamp := 0, count := if sev = 0 then 1 else 0 }

/-- The cluster of a unit of partition, sequencer or cluster-mover kind (18 R431). -/
def unitCluster (unit : Nat) : Option Nat :=
  match unit / 4096 with
  | 0 => some (unit % 4096 / 16)
  | 1 => some (unit % 4096)
  | 2 => some (unit % 4096 / 2)
  | _ => none

/-- Whether two CONTAINED records of one queue lie in one escalation unit (18 R436). -/
def sameEscalationUnit (a b : McRec) : Bool :=
  a.scope = 3 || b.scope = 3 || (unitCluster a.unit.toNat == unitCluster b.unit.toNat)

/-- The scope that a new CONTAINED record takes beside the unacknowledged ones it meets; none: it becomes FATAL
(18 R436). -/
def escalate (slots : List (Nat × McRec)) (r : McRec) : Option McRec :=
  let met := (slots.map (·.2)).filter (fun x => decide (x.sev = 2) && sameEscalationUnit x r)
  if met.isEmpty then some r
  else
    let w := met.foldl (fun m x => max m x.scope.toNat) r.scope.toNat
    if w + 1 ≤ 3 then some { r with scope := BitVec.ofNat 2 (w + 1), esc := true } else none

/-- The next sequence number of a queue: 1 to FFFFh, then 1 (18 R430). -/
def mcNextSeq (x : BitVec 16) : BitVec 16 := if x = 0xFFFF then 1 else x + 1

/-- The lowest slot without a record (log entry 16). -/
def freeSlot (slots : List (Nat × McRec)) : Option Nat := (countFrom 0 16).find? (fun i => !(slots.map (·.1)).contains i)

/-- Write a record to a slot of a queue (18 R430, R434); `lostNow` says that this write evicts a record. -/
def McQueue.write (q : McQueue) (slot : Nat) (r : McRec) (lostNow : Bool) : McQueue :=
  let n := mcNextSeq q.lastSeq
  { q with slots := q.slots ++ [(slot, { r with seq := n, ovf := q.ovfNext || lostNow })], lastSeq := n, ovfNext := false }

/-- A record is lost (18 R434). -/
def McQueue.lose (q : McQueue) : McQueue := { q with lost := satAdd q.lost 1, overflow := true, ovfNext := true }

/-- The fatal log keeps the 8 newest FATAL records (18 R433). -/
def State.logFatal (s : State) (r : McRec) : State :=
  let l := s.fatalLog ++ [r]
  { s with fatalLog := l.drop (l.length - 8), fatalNew := min (s.fatalNew + 1) 8 }

/-- Drive FAILSTOP_N: low while the module is fail-stopped or without working management firmware; until step 1 of a start-up is
complete the output is high-impedance (19 R446). -/
def State.driveFailstop (s : State) : State :=
  let low := s.power.failStop.isSome || s.mgmt.fwMgmt.running.isNone
  if s.power.step < 1 ∨ low = s.power.failstopLow then s
  else { s with power := { s.power with failstopLow := low } }.emit (.pin 0 (!low))

/-- The PCIe link goes down with source 0EBh (17 R413). -/
def State.pcieDown (s : State) : State := { s with host := { s.host with lstate := 0, width := 0, speed := 0 } }.hicSource 0xEB

/-- The fail-stop of a FATAL record (18 R437 steps 2 and 3): the STOP, the freeze, the Hazia cores, PCIe, the pin. -/
def State.failStop (s : State) (cls : Byte) : State :=
  if s.power.failStop.isSome then s
  else
    let cause := if cls = 0x15 then 2 else if cls = 0x17 then 3 else 1
    let s1 := s.injectStop cause
    let s2 := { s1 with
      power := { s1.power with failStop := some cls }
      cores := mmap Core.reset
        (fun k c => if 96 ≤ k ∧ c.st = RunState.run then { c with st := .halted } else c) s1.cores }
    (if s2.host.lstate = 0 then s2 else s2.pcieDown).driveFailstop

/-- The unit that a record of class 07h or 09h names enters FAULT with the cause of its own error (03 R95; 11 R280). -/
def State.faultOwn (s : State) (d : Fin 4) (r : McRec) : State :=
  let u := r.unit.toNat
  if r.cls = 0x07 then
    s.faultPart { cd := d, cl := Fin.ofNat 24 (u % 4096 / 16), arr := Fin.ofNat 4 (u % 16 / 4), q := Fin.ofNat 4 (u % 4) } r.detail
  else if r.cls = 0x09 then
    let e : EngineId := { cd := d, kind := nth .txe allEngines (u % 4096) }
    s.setEngine e ((s.engine e).faultWith r.detail)
  else s

/-- Put the units of a CONTAINED record's scope to a stop (18 R435). At die scope every engine stops, also at the error of one of them:
chapter 18 governs over 11 R280, which lets the others go on (00 R14; log entry 57). -/
def State.contain (s : State) (r : McRec) : State :=
  if r.die = 0 ∨ 4 < r.die then s
  else
    let d : Fin 4 := Fin.ofNat 4 (r.die - 1)
    let s1 := s.faultOwn d r
    match r.scope.toNat with
    | 2 => match unitCluster r.unit.toNat with
           | some c => s1.containCluster d (Fin.ofNat 24 c)
           | none => s1
    | 3 => s1.containDie d
    | _ => s1

/-- The interrupts of a record that has been written (18 R434). -/
def State.mcInterrupt (s : State) (r : McRec) : State :=
  if r.sev = 1 ∨ r.sev = 3 ∨ (r.sev = 2 ∧ r.scope = 3) then s.hicSource 0xE9
  else if r.sev = 2 ∧ 1 ≤ r.die ∧ r.die ≤ 4 then
    match unitCluster r.unit.toNat with
    | some c => s.setIpend (Fin.ofNat 4 (r.die - 1)) (Fin.ofNat 24 c) 5
    | none => s
  else s

/-- Place a record in its queue, or evict, or lose it (18 R434). The Bool says whether it was written. -/
def McQueue.place (q : McQueue) (r : McRec) : McQueue × Bool :=
  match freeSlot q.slots with
  | some i => (q.write i r false, true)
  | none =>
    if r.sev = 0 ∨ r.sev = 1 then (q.lose, false)
    else match q.slots.find? (fun x => decide (x.2.sev = 0 ∨ x.2.sev = 1)) with
      | some (i, _) =>
        let q1 := { q with slots := q.slots.filter (fun x => decide (x.1 ≠ i)) }
        (({ q1 with lost := satAdd q1.lost 1, overflow := true }).write i r true, true)
      | none => (q, false)

/-- A FATAL record: queue, fatal log, interrupt, fail-stop (18 R434, R437). The log takes it as it was written. During a fail-stop the log
alone takes it. -/
def State.reportFatal (s : State) (r : McRec) : State :=
  let r := { r with sev := 3, scope := 0 }
  if s.power.failStop.isSome then s.logFatal r
  else
    let (q, written) := (s.mcq r.die).place r
    let s1 := s.setMcq r.die (if written then q else { q with lost := satAdd q.lost 1, overflow := true, ovfNext := true })
    let r' := if written then (q.slots.getLast?.map (·.2)).getD r else r
    ((s1.logFatal r').mcInterrupt r).failStop r.cls

/-- The class 1Ah record that goes to the fatal log in place of a CONTAINED record whose queue is full (18 R430, R434). -/
def State.reportFull (s : State) (r : McRec) : State :=
  let f := { mkRec r.die 0xE000 0x1A 3 0 0 with stamp := r.stamp }
  if s.power.failStop.isSome then s.logFatal f else ((s.logFatal f).mcInterrupt f).failStop 0x1A

/-- Report a machine-check record: merge, escalate, write, interrupt, contain (18 R430 to R437). What `COUNT` holds after
its last value is a free value (log entry 51). -/
def State.report (s0 : State) (r0 : McRec) : State :=
  let s := s0.sampleCounter
  let r := { r0 with stamp := s.power.counter }
  match r.sev.toNat with
  | 0 =>
    let q := s.mcq r.die
    if q.slots.any (fun x => decide (x.2.sev = 0 ∧ x.2.unit = r.unit ∧ x.2.cls = r.cls)) then
      let past := (Config.freeWord s.fresh).toNat % 2 ^ 32
      (s.setMcq r.die { q with slots := q.slots.map (fun x =>
        if x.2.sev = 0 ∧ x.2.unit = r.unit ∧ x.2.cls = r.cls then
          (x.1, { x.2 with
            count := if x.2.count = 2 ^ 32 - 1 then past else x.2.count + 1
            paddr := r.paddr, vaddr := r.vaddr, stamp := r.stamp })
        else x) }).bump
    else s.setMcq r.die (q.place r).1
  | 1 =>
    let (q, written) := (s.mcq r.die).place r
    if written then (s.setMcq r.die q).mcInterrupt r else s.setMcq r.die q
  | 2 =>
    match escalate (s.mcq r.die).slots r with
    | none => s.reportFatal { r with esc := true }
    | some r' =>
      let (q, written) := (s.mcq r.die).place r'
      if written then ((s.setMcq r.die q).mcInterrupt r').contain r' else s.reportFull r
  | _ => s.reportFatal r

/-- Whether no unacknowledged record's scope contains a unit of cluster `cl`, partition unit `u` (18 R433). -/
def State.partAcked (s : State) (p : PartId) : Bool :=
  let u := p.cl.val * 16 + p.arr.val * 4 + p.q.val
  ((s.mcq (p.cd.val + 1)).slots.map (·.2)).all (fun r =>
    !(decide (r.sev = 2) && (decide (r.scope = 3)
      || (decide (r.scope = 2) && unitCluster r.unit.toNat == some p.cl.val)
      || (decide (r.scope = 1) && decide (r.unit.toNat = u)))))

/-- Whether no unacknowledged record's scope contains the sequencer and the movers of a cluster (18 R433, R435). -/
def State.clusterAcked (s : State) (d : Fin 4) (cl : Fin 24) : Bool :=
  ((s.mcq (d.val + 1)).slots.map (·.2)).all (fun r =>
    !(decide (r.sev = 2) && (decide (r.scope = 3) || (decide (r.scope = 2) && unitCluster r.unit.toNat == some cl.val))))

/-- Whether no unacknowledged record's scope contains an engine or a bulk mover of a die (18 R433). -/
def State.engineAcked (s : State) (d : Fin 4) : Bool :=
  ((s.mcq (d.val + 1)).slots.map (·.2)).all (fun r => !(decide (r.sev = 2) && decide (r.scope = 3)))

end Sys2Proof.Machine
end

