-- ==== Sys2Proof/Machine/RegMap.lean ====
section
/-! DEFINITION. The registers of the module and where each lies in the windows of its dies (01 R22, R24, R28 and the register
blocks of every chapter). Offsets that name no register are reserved. -/

namespace Sys2Proof.Machine

/-- A register: its name and its instance. -/
inductive Reg where
  | devid (die : Nat)
  | mcstat (die : Nat)
  | mcack (die : Nat)
  | mcrec (die i w : Nat)
  | modpwr
  | cdpwr (d : Fin 4)
  | sistat
  | sictl
  | siactgen
  | sishdgen
  | tctl
  | tstat
  | tbar
  | tbarstat
  | tred
  | tredctl
  | tnotq
  | tredres (i : Nat)
  | tndeliv (d : Nat)
  | tpstat (p : Fin 8)
  | snapctl
  | snapstat
  | snapcommit
  | snapprog
  | cbwstat
  | rollepoch
  | takeover
  | xferctl
  | snapward
  | rovl (i : Nat)
  | hirte (n : Nat)
  | hipi
  | pciestat
  | ridctx (i : Nat)
  | segbase (e : EtuId) (i : Nat)
  | seglimit (e : EtuId) (i : Nat)
  | segperm (e : EtuId) (i : Nat)
  | ctxtable (e : EtuId) (c : Nat)
  | etuctl (e : EtuId)
  | etustat (e : EtuId)
  | fbbase (e : EtuId)
  | fbctl (e : EtuId)
  | fbstat (e : EtuId)
  | fbdone (e : EtuId)
  | wdbase (e : EtuId)
  | wdlimit (e : EtuId)
  | withdraw (e : EtuId)
  | wdstat (e : EtuId)
  | mvring (m : MoverId)
  | mvctl (m : MoverId)
  | mvstat (m : MoverId) (i : Nat)
  | sealstat (b : MemBlockId)
  | seallast (b : MemBlockId)
  | remapctl (b : MemBlockId)
  | retq (b : MemBlockId)
  | secmd (b : MemBlockId)
  | sestart (b : MemBlockId)
  | secount (b : MemBlockId)
  | sebuf (b : MemBlockId)
  | sestat (b : MemBlockId)
  | remapstat (b : MemBlockId) (i : Nat)
  | remaplast (b : MemBlockId) (i : Nat)
  | therm (b : MemBlockId) (i : Nat)
  | srseed (d : Fin 4) (c : Nat)
  | arrcfg (d : Fin 4) (cl : Fin 24) (a : Fin 4)
  | arrrep (d : Fin 4) (cl : Fin 24) (a : Fin 4)
  | qstat (p : PartId)
  | qctl (p : PartId)
  | qfrz (p : PartId)
  | qpost (p : PartId)
  | qfree (p : PartId)
  | qseq (p : PartId)
  | qrej (p : PartId)
  | qcplbase (p : PartId)
  | qcplidx (p : PartId)
  | tilestat (t : TileId)
  | tilectl (t : TileId)
  | seqdb (d : Fin 4) (cl : Fin 24)
  | seqrun (d : Fin 4) (cl : Fin 24)
  | seqstat (d : Fin 4) (cl : Fin 24)
  | seqpc (d : Fin 4) (cl : Fin 24)
  | epost (e : EngineId)
  | efree (e : EngineId)
  | estat (e : EngineId)
  | erej (e : EngineId)
  | ectl (e : EngineId)
  | epostx (e : EngineId) (c : Nat)
  | ecplbase (e : EngineId) (c : Nat)
  | ecplidx (e : EngineId) (c : Nat)
  | comstat (d : Fin 4)
  | fpstat (p : Fin 12)
  | fpdrop (p : Fin 12)
deriving DecidableEq, Repr

/-- The ETU block (12 R297). -/
def etuReg (e : EtuId) (o : Nat) : Option Reg :=
  let c := o / 0x100
  let r := o % 0x100
  if o < 0x4000 then
    if r < 0xC0 then
      let i := 8 * c + r / 0x18
      match r % 0x18 with
      | 0x00 => some (.segbase e i)
      | 0x08 => some (.seglimit e i)
      | 0x10 => some (.segperm e i)
      | _ => none
    else if r = 0xC0 then some (.ctxtable e c)
    else none
  else match o with
  | 0x4000 => some (.etuctl e)
  | 0x4008 => some (.etustat e)
  | 0x4100 => some (.fbbase e)
  | 0x4108 => some (.fbctl e)
  | 0x4110 => some (.fbstat e)
  | 0x4118 => some (.fbdone e)
  | 0x4200 => some (.wdbase e)
  | 0x4208 => some (.wdlimit e)
  | 0x4210 => some (.withdraw e)
  | 0x4218 => some (.wdstat e)
  | _ => none

/-- The block of a mover channel (12 R288). -/
def moverReg (m : MoverId) (o : Nat) : Option Reg :=
  match o with
  | 0x00 => some (.mvring m)
  | 0x08 => some (.mvctl m)
  | 0x10 => some (.mvstat m 0)
  | 0x18 => some (.mvstat m 1)
  | 0x20 => some (.mvstat m 2)
  | _ => none

/-- The memory block (14 R340). -/
def memReg (b : MemBlockId) (o : Nat) : Option Reg :=
  let sensors := match b with
    | .mb _ => 4
    | .hd => 12
  if 0x200 ≤ o ∧ o < 0x220 then some (.remapstat b ((o - 0x200) / 8))
  else if 0x240 ≤ o ∧ o < 0x260 then some (.remaplast b ((o - 0x240) / 8))
  else if 0x300 ≤ o ∧ o < 0x300 + 8 * sensors then some (.therm b ((o - 0x300) / 8))
  else match o with
  | 0x000 => some (.sealstat b)
  | 0x008 => some (.seallast b)
  | 0x010 => some (.remapctl b)
  | 0x018 => some (.retq b)
  | 0x100 => some (.secmd b)
  | 0x108 => some (.sestart b)
  | 0x110 => some (.secount b)
  | 0x118 => some (.sebuf b)
  | 0x120 => some (.sestat b)
  | _ => none

/-- The machine-check block of a die (18 R433). -/
def mcReg (die o : Nat) : Option Reg :=
  if o = 0 then some (.mcstat die)
  else if o = 8 then some (.mcack die)
  else if 0x100 ≤ o ∧ o < 0x500 then some (.mcrec die ((o - 0x100) / 0x40) (o % 0x40 / 8))
  else none

/-- The Tether block (15 R383). -/
def tetherReg (o : Nat) : Option Reg :=
  if 0x80 ≤ o ∧ o < 0xA0 then some (.tredres ((o - 0x80) / 8))
  else if 0xC0 ≤ o ∧ o < 0xE0 then some (.tndeliv ((o - 0xC0) / 8))
  else if 0x100 ≤ o ∧ o < 0x140 then some (.tpstat (Fin.ofNat 8 ((o - 0x100) / 8)))
  else match o with
  | 0x00 => some .tctl
  | 0x08 => some .tstat
  | 0x10 => some .tbar
  | 0x18 => some .tbarstat
  | 0x20 => some .tred
  | 0x28 => some .tredctl
  | 0x30 => some .tnotq
  | _ => none

/-- The snapshot block (16 R407). -/
def snapReg (o : Nat) : Option Reg :=
  if 0x100 ≤ o ∧ o < 0x300 then some (.rovl ((o - 0x100) / 8))
  else match o with
  | 0x00 => some .snapctl
  | 0x08 => some .snapstat
  | 0x10 => some .snapcommit
  | 0x18 => some .snapprog
  | 0x20 => some .cbwstat
  | 0x28 => some .rollepoch
  | 0x30 => some .takeover
  | 0x38 => some .xferctl
  | 0x40 => some .snapward
  | _ => none

/-- The HD window. `o` is a multiple of 8. -/
def hdReg (o : Nat) : Option Reg :=
  if o = 0 then some (.devid 0)
  else if 0x40000 ≤ o ∧ o < 0x50000 then mcReg 0 (o - 0x40000)
  else if 0x100000 ≤ o ∧ o < 0x200000 then etuReg .hd (o - 0x100000)
  else if 0x200000 ≤ o ∧ o < 0x201000 then moverReg (.host (Fin.ofNat 16 (o / 0x100))) (o % 0x100)
  else if 0x300000 ≤ o ∧ o < 0x400000 then memReg .hd (o - 0x300000)
  else if 0x800000 ≤ o ∧ o < 0xA00000 then tetherReg (o - 0x800000)
  else if 0xA00000 ≤ o ∧ o < 0xC00000 then snapReg (o - 0xA00000)
  else if 0xC00000 ≤ o ∧ o < 0xC02000 then some (.hirte ((o - 0xC00000) / 8))
  else if 0xD00100 ≤ o ∧ o < 0xD00200 then some (.ridctx ((o - 0xD00100) / 8))
  else match o with
  | 0x10000 => some .sistat
  | 0x10008 => some .sictl
  | 0x10010 => some .siactgen
  | 0x10018 => some .sishdgen
  | 0x50000 => some .modpwr
  | 0xC02000 => some .hipi
  | 0xD00000 => some .pciestat
  | _ => none

/-- The blocks of the arrays and their quadrants (03 R97, 05 R129). -/
def arrayReg (d : Fin 4) (o : Nat) : Option Reg :=
  let cl : Fin 24 := Fin.ofNat 24 (o % 0x80000 / 0x4000)
  let a : Fin 4 := Fin.ofNat 4 (o / 0x1000)
  let r := o % 0x1000
  if 24 ≤ o % 0x80000 / 0x4000 then none
  else if o < 0x80000 then
    let p : PartId := { cd := d, cl := cl, arr := a, q := Fin.ofNat 4 ((r - 0x100) / 0x20) }
    if r = 0 then some (.arrcfg d cl a)
    else if r = 8 then some (.arrrep d cl a)
    else if 0x100 ≤ r ∧ r < 0x180 then
      match r % 0x20 with
      | 0x00 => some (.qstat p)
      | 0x08 => some (.qctl p)
      | 0x10 => some (.qfrz p)
      | _ => none
    else none
  else
    let p : PartId := { cd := d, cl := cl, arr := a, q := Fin.ofNat 4 (r / 0x100) }
    if 0x400 ≤ r then none
    else match r % 0x100 with
    | 0x00 => some (.qpost p)
    | 0x08 => some (.qfree p)
    | 0x10 => some (.qseq p)
    | 0x18 => some (.qrej p)
    | 0x20 => some (.qcplbase p)
    | 0x28 => some (.qcplidx p)
    | _ => none

/-- The kind of an engine by its index (11 R272). -/
def engineOf : Nat → Option EngineKind
  | 0 => some .txe
  | 1 => some .sel
  | 2 => some .gse
  | 3 => some .rand
  | 4 => some .cre
  | 5 => some .tre
  | 6 => some .lze
  | _ => none

/-- The block of an engine (11 R272). -/
def engineReg (e : EngineId) (o : Nat) : Option Reg :=
  if 0x100 ≤ o ∧ o < 0x300 then some (.epostx e ((o - 0x100) / 8))
  else if 0x400 ≤ o ∧ o < 0x600 then some (.ecplbase e ((o - 0x400) / 8))
  else if 0x600 ≤ o ∧ o < 0x800 then some (.ecplidx e ((o - 0x600) / 8))
  else match o with
  | 0x00 => some (.epost e)
  | 0x08 => some (.efree e)
  | 0x10 => some (.estat e)
  | 0x18 => some (.erej e)
  | 0x20 => some (.ectl e)
  | _ => none

/-- The register part of a CD window. `o` is a multiple of 8. -/
def cdReg (d : Fin 4) (o : Nat) : Option Reg :=
  if o = 0 then some (.devid (d.val + 1))
  else if 0x40000 ≤ o ∧ o < 0x50000 then mcReg (d.val + 1) (o - 0x40000)
  else if o = 0x50000 then some (.cdpwr d)
  else if 0x1800000 ≤ o ∧ o < 0x1800200 then some (.srseed d ((o - 0x1800000) / 8))
  else if 0x2000000 ≤ o ∧ o < 0x2100000 then arrayReg d (o - 0x2000000)
  else if 0x2100000 ≤ o ∧ o < 0x2118000 then
    let cl : Fin 24 := Fin.ofNat 24 ((o - 0x2100000) / 0x1000)
    let r := o % 0x1000
    if r < 0x80 then some (.tilestat { cd := d, cl := cl, t := Fin.ofNat 16 (r / 8) })
    else if r < 0x100 then some (.tilectl { cd := d, cl := cl, t := Fin.ofNat 16 (r / 8) })
    else none
  else if 0x2200000 ≤ o ∧ o < 0x2201800 then
    let cl : Fin 24 := Fin.ofNat 24 ((o - 0x2200000) / 0x100)
    match o % 0x100 with
    | 0x00 => some (.seqdb d cl)
    | 0x08 => some (.seqrun d cl)
    | 0x10 => some (.seqstat d cl)
    | 0x18 => some (.seqpc d cl)
    | _ => none
  else if 0x2300000 ≤ o ∧ o < 0x2370000 then (engineOf ((o - 0x2300000) / 0x10000)).bind (fun k => engineReg ⟨d, k⟩ (o % 0x10000))
  else if o = 0x2380000 then some (.comstat d)
  else if 0x2400000 ≤ o ∧ o < 0x2500000 then etuReg (.cd d) (o - 0x2400000)
  else if 0x2500000 ≤ o ∧ o < 0x2503000 then
    moverReg (.cluster d (Fin.ofNat 24 ((o - 0x2500000) / 0x200)) (Fin.ofNat 2 (o / 0x100))) (o % 0x100)
  else if 0x2600000 ≤ o ∧ o < 0x2601000 then moverReg (.bulk d (Fin.ofNat 16 (o / 0x100))) (o % 0x100)
  else if 0x2700000 ≤ o ∧ o < 0x2700300 then
    let p : Fin 12 := Fin.ofNat 12 (3 * d.val + (o - 0x2700000) / 0x100)
    match o % 0x100 with
    | 0x00 => some (.fpstat p)
    | 0x08 => some (.fpdrop p)
    | _ => none
  else none

/-- An MB window. `o` is a multiple of 8. -/
def mbReg (d : Fin 4) (o : Nat) : Option Reg :=
  if o = 0 then some (.devid (d.val + 5))
  else if 0x40000 ≤ o ∧ o < 0x50000 then mcReg (d.val + 5) (o - 0x40000)
  else if 0x10000 ≤ o ∧ o < 0x20000 then memReg (.mb d) (o - 0x10000)
  else none

/-- The SHADOW load window of HD (02 R58). -/
def loadWindowAt (o : Nat) : Bool := decide (0x400000 ≤ o) && decide (o < 0x800000)

end Sys2Proof.Machine
end

