-- ==== Sys2Proof/Machine/Memory.lean ====
section
/-! DEFINITION. Physical memory: the address map, the rules of access, memory in canonical form, the newest copy of a
line, poison, and the coherent reads and writes that every agent's accesses are made of. -/

namespace Sys2Proof.Machine

/-! ## Memory in canonical form -/

/-- What a byte reads as that nothing has written: 0 (11 R270 for the SRAM; log entry 3 for the DRAM). -/
def memDefault : Byte := 0

/-- One byte of physical memory. -/
def memRead (m : List Host.Cell) (a : Nat) : Byte := mget memDefault m a

/-- Write one byte of physical memory. -/
def memWrite (m : List Host.Cell) (a : Nat) (b : Byte) : List Host.Cell := mset memDefault m a b

/-- The canonical form of memory: addresses strictly rising, no entry that equals what an unlisted address reads as. -/
def Memory.wf (m : List Host.Cell) : Bool := mwf memDefault m

/-- `n` bytes of physical memory from an address on. -/
def memReads (m : List Host.Cell) (a n : Nat) : List Byte := (countFrom a n).map (memRead m)

/-- Write bytes from an address on, lowest address first. -/
def memWrites : List Host.Cell → Nat → List Byte → List Host.Cell
  | m, _, [] => m
  | m, a, b :: bs => memWrites (memWrite m a b) (a + 1) bs

/-! ## The physical address map (01 R22 to R28) -/

/-- The kinds of physical address. -/
inductive PKind where
  | tier1 (d : Fin 4)
  | tier2
  | seal
  | commons (d : Fin 4)
  | tileStore (d : Fin 4) (cl : Fin 24)
  | hdReg
  | cdReg (d : Fin 4)
  | mbReg (d : Fin 4)
  | pcieMem
  | ecam
  | unmapped
deriving DecidableEq, Repr

/-- `T1MAP`: whether tier 1 is interleaved (01 R26, 02 R48). -/
def State.interleaved (s : State) : Bool := bit (s.secNat 5 0 1) 0

/-- The die and the die-local offset of a tier 1 address (01 R26). -/
def tier1Place (interleaved : Bool) (a : Nat) : Nat × Nat :=
  if interleaved then (bits a 12 2, bits a 14 26 * 4096 + a % 4096) else (a / 0x2400000000, a % 0x2400000000)

/-- The tier 1 address of a die-local offset (01 R26). -/
def tier1Addr (interleaved : Bool) (d off : Nat) : Nat :=
  if interleaved then off / 4096 * 16384 + d * 4096 + off % 4096 else d * 0x2400000000 + off

/-- The channel and the tile number of a tier 2 address (01 R27). -/
def tier2Tile (a : Nat) : Nat := (a - 0x10000000000) / 4096

/-- The kind of a physical address (01 R22, R25, R28). -/
def pkind (interleaved : Bool) (a : Nat) : PKind :=
  if a < 0x9000000000 then
    let (d, off) := tier1Place interleaved a
    if 0x23F7000000 ≤ off then .seal else .tier1 (Fin.ofNat 4 d)
  else if a < 0x10000000000 then .unmapped
  else if a < 0x28000000000 then (if 0x27FA0000000 ≤ a then .seal else .tier2)
  else if a < 0xE0000000000 then .unmapped
  else if a < 0xF0000000000 then .pcieMem
  else if a < 0xF0100000000 then .hdReg
  else if a < 0xF1000000000 then .unmapped
  else if a < 0xF1400000000 then
    let d : Fin 4 := Fin.ofNat 4 ((a - 0xF1000000000) / 0x100000000)
    let off := a % 0x100000000
    if off < 0x80000000 then .cdReg d
    else if off < 0x84000000 then .commons d
    else if off < 0xC0000000 then .unmapped
    else if off < 0xCC000000 then .tileStore d (Fin.ofNat 24 ((off - 0xC0000000) / 0x800000))
    else .unmapped
  else if a < 0xF2000000000 then .unmapped
  else if a < 0xF2400000000 then .mbReg (Fin.ofNat 4 ((a - 0xF2000000000) / 0x100000000))
  else if a < 0xF3000000000 then .unmapped
  else if a < 0xF3010000000 then .ecam
  else .unmapped

/-- Normal memory: tier 1 and tier 2 outside the seal regions (06 R171). -/
def PKind.normal : PKind → Bool
  | .tier1 _ => true
  | .tier2 => true
  | _ => false

/-- The SRAM windows (01 R29). -/
def PKind.sram : PKind → Bool
  | .commons _ => true
  | .tileStore _ _ => true
  | _ => false

/-- Device memory (06 R171): register windows, the PCIe windows. -/
def PKind.device : PKind → Bool
  | .hdReg => true
  | .cdReg _ => true
  | .mbReg _ => true
  | .pcieMem => true
  | .ecam => true
  | _ => false

/-- The register windows of R161 (06): HD, CD, MB and PCIe configuration. -/
def PKind.registerWindow : PKind → Bool
  | .hdReg => true
  | .cdReg _ => true
  | .mbReg _ => true
  | .ecam => true
  | _ => false

def State.kindAt (s : State) (a : Nat) : PKind := pkind s.interleaved a

/-- The die-local page of a tier 1 address, or the tier 2 page of a tier 2 address, with the block that holds it. -/
def State.pageOf (s : State) (a : Nat) : Option (MemBlockId × Nat) :=
  match s.kindAt a with
  | .tier1 d => some (.mb d, (tier1Place s.interleaved a).2 / 0x40000000)
  | .tier2 => some (.hd, (a - 0x10000000000) / 0x40000000)
  | _ => none

/-- The base of the Drawer (02 R48). -/
def State.drawerBase (s : State) : Nat := 0x27F80000000 - s.secNat 5 8 2 * 0x40000000

/-- The page of a reserve-pool slot of a block (14 R351): die-local pages 139-142, or the 4 GiB below the Drawer. -/
def State.poolPage (s : State) (b : MemBlockId) (slot : Nat) : Nat :=
  match b with
  | .mb _ => 139 + slot
  | .hd => (s.drawerBase - 0x10000000000) / 0x40000000 - 4 + slot

/-- Whether a page is a pool slot in use: its own addresses fail from the start of the move (14 R352). -/
def State.slotInUse (s : State) (a : Nat) : Bool :=
  match s.pageOf a with
  | some (b, pg) => (s.block b).redirects.any (fun r => decide (s.poolPage b r.slot = pg))
  | none => false

/-- Natural alignment of an access of a size that is a power of two. -/
def aligned (a size : Nat) : Bool := a % size = 0

/-- The register that an address of a window lies in. -/
def State.regOf (s : State) (a : Nat) : Option Reg :=
  let o := a % 0x100000000 / 8 * 8
  match s.kindAt a with
  | .hdReg => Machine.hdReg o
  | .cdReg d => Machine.cdReg d o
  | .mbReg d => Machine.mbReg d o
  | _ => none

/-- Whether an address of a window is not reserved. -/
def State.registerAt (s : State) (a : Nat) : Bool :=
  (s.regOf a).isSome || (decide (s.kindAt a = .hdReg) && loadWindowAt (a % 0x100000000))

/-- Whether an access reaches a unit, decided by its address, size and alignment alone (01 R23, R24, R25, R29). -/
def State.busOk (s : State) (a size : Nat) : Bool :=
  let k := s.kindAt a
  if k.normal then
    (s.kindAt (a + size - 1)).normal && !s.slotInUse a && !s.slotInUse (a + size - 1)
  else if k.sram then
    [1, 2, 4, 8, 16, 32, 64].contains size && aligned a size
  else if k.registerWindow then
    [4, 8].contains size && aligned a size && (decide (k = .ecam) || s.registerAt a)
  else match k with
    | .pcieMem => true
    | _ => false

/-! ## Lines, copies and poison (13 R308 to R316, 14 R338) -/

/-- The line of an address: 128 bytes (13 R308). -/
def lineOf (a : Nat) : Nat := a / 128

/-- The number of a cache. -/
def cacheKey : CacheId → Nat
  | .l1i c => coreKey c
  | .l1d c => 160 + coreKey c
  | .engineLines d u => 320 + d.val * 8 + u.val
  | .l2 d => 352 + d.val
  | .haziaL2 k => 356 + k.val
  | .l3 => 420

/-- The key of a line in a cache. -/
def lineKey (c : CacheId) (line : Nat) : Nat := cacheKey c * 2 ^ 48 + line

def State.line (s : State) (c : CacheId) (line : Nat) : CacheLine := mget CacheLine.reset s.lines (lineKey c line)
def State.setLine (s : State) (c : CacheId) (line : Nat) (x : CacheLine) : State :=
  { s with lines := mset CacheLine.reset s.lines (lineKey c line) x }

/-- The copies of a line, by cache number. -/
def State.copies (s : State) (line : Nat) : List (Nat × CacheLine) :=
  (s.lines.filter (fun x => decide (x.1 % 2 ^ 48 = line) && decide (x.2.st ≠ .i))).map (fun x => (x.1 / 2 ^ 48, x.2))

/-- The newest dirty copy of a line; its data are empty where there is none. -/
def State.dirtyLine (s : State) (line : Nat) : DirtyLine := mget DirtyLine.none s.dirty line

/-- Whether a line is dirty in some cache. -/
def State.isDirty (s : State) (line : Nat) : Bool := (s.dirtyLine line).data ≠ []

/-- The memory block of a normal address and its tile index there (14 R340). -/
def State.tileOf (s : State) (a : Nat) : Option (MemBlockId × Nat) :=
  match s.kindAt a with
  | .tier1 d => some (.mb d, (tier1Place s.interleaved a).2 / 4096)
  | .tier2 => some (.hd, tier2Tile a)
  | _ => none

/-- Whether memory delivers a line with the poison bit: its tile is poisoned and the line not written since (14 R338). -/
def State.memPoison (s : State) (line : Nat) : Bool :=
  match s.tileOf (line * 128) with
  | some (b, t) =>
    let e := mget PoisonTile.reset (s.block b).poison t
    e.present && !e.written.getLsbD (line % 32)
  | none => false

/-- The poison bit of the newest copy of a line (13 R313). -/
def State.linePoison (s : State) (line : Nat) : Bool :=
  if s.isDirty line then (s.dirtyLine line).poison
  else match s.copies line with
    | (_, x) :: _ => x.poison
    | [] => s.memPoison line

/-- One byte of the newest copy (01 R31). -/
def State.byteAt (s : State) (a : Nat) : Byte :=
  let d := (s.dirtyLine (lineOf a)).data
  match d with
  | [] => memRead s.mem a
  | _ => nth 0 d (a % 128)

/-- Bytes of the newest copies. -/
def State.readMem (s : State) (a n : Nat) : List Byte := (countFrom a n).map s.byteAt

/-- The lines that an access touches. -/
def linesOf (a n : Nat) : List Nat := if n = 0 then [] else countFrom (lineOf a) (lineOf (a + n - 1) - lineOf a + 1)

/-- Whether an access consumes poisoned or uncorrectable data (13 R313, 11 R269). -/
def State.readPoison (s : State) (a n : Nat) : Bool :=
  if (s.kindAt a).normal then (linesOf a n).any s.linePoison
  else if (s.kindAt a).sram then (countFrom (a / 8) ((a + n - 1) / 8 - a / 8 + 1)).any (fun w => s.badSram.contains w)
  else false

/-! ## Writes that reach memory (14 R335, R338) -/

/-- Record a line in a list of collected tiles: the tile's mask of written lines (14 R335). -/
def collectLine (c : List (Nat × BitVec 32)) (t l : Nat) : List (Nat × BitVec 32) :=
  if c.any (fun x => x.1 = t) then c.map (fun x => if x.1 = t then (t, x.2 ||| (BitVec.ofNat 32 1 <<< l)) else x)
  else c ++ [(t, BitVec.ofNat 32 1 <<< l)]

/-- The group of seal-cache entries that a tile competes in: its stack or its tier 2 channel (14 R335). -/
def sealGroup (b : MemBlockId) (t : Nat) : Nat :=
  match b with
  | .mb _ => t % 4
  | .hd => t % 12

/-- The tiles that the seal cache holds for one stack or channel (14 R335). -/
def sealCapacity : MemBlockId → Nat
  | .mb _ => 256
  | .hd => 1024

/-- Drop the oldest collected tile of a group that has become too large (14 R335). -/
def trimSealCache (b : MemBlockId) (t : Nat) (c : List (Nat × BitVec 32)) : List (Nat × BitVec 32) :=
  let g := c.filter (fun x => sealGroup b x.1 = sealGroup b t)
  if sealCapacity b < g.length then
    match g with
    | o :: _ => c.filter (fun x => decide (x.1 ≠ o.1))
    | [] => c
  else c

/-- The effect of a line write on the poison entry of its tile: a line written in full delivers its new contents, and
the entry leaves when all 32 are written (14 R338). -/
def PoisonTile.lineWritten (e : PoisonTile) (l : Nat) (full : Bool) : PoisonTile :=
  if e.present ∧ full then
    let w := e.written ||| (BitVec.ofNat 32 1 <<< l)
    if w = BitVec.allOnes 32 then PoisonTile.reset else { e with written := w }
  else e

/-- A line write reaches its controller: contents, seal cache, poison entry (14 R335, R338). `full` is false where the
line carries the poison bit. -/
def State.dramWrite (s : State) (line : Nat) (data : List Byte) (full : Bool) : State :=
  let s1 := { s with mem := memWrites s.mem (line * 128) data }
  match s.tileOf (line * 128) with
  | some (b, t) =>
    let k := s1.block b
    s1.setBlock b { k with
      sealCache := trimSealCache b t (collectLine k.sealCache t (line % 32))
      poison := mmod PoisonTile.reset k.poison t (fun e => e.lineWritten (line % 32) full) }
  | none => s1

/-- Change the state of every copy of a line that satisfies a test on its cache number. -/
def State.mapCopies (s : State) (line : Nat) (p : Nat → Bool) (f : CacheLine → CacheLine) : State :=
  { s with
    lines := mmap CacheLine.reset
      (fun k x => if k % 2 ^ 48 = line ∧ x.st ≠ .i ∧ p (k / 2 ^ 48) then f x else x) s.lines }

/-- Write the newest dirty copy of a line to memory (13 R325, 14 R335); the poison bit of these data is that of every copy that
remains (13 R313). -/
def State.cleanLine (s : State) (line : Nat) : State :=
  let d := s.dirtyLine line
  match d.data with
  | [] => s
  | _ => let s1 := s.dramWrite line d.data (!d.poison)
         { s1 with dirty := merase line s1.dirty }.mapCopies line (fun _ => true) (fun x => { x with poison := d.poison })

/-- Clear the reservations of cores on a line that one of their caches has lost (06 R176). -/
def State.dropReservations (s : State) (line : Nat) (p : Nat → Bool) : State :=
  { s with
    cores := mmap Core.reset (fun k c => if c.resv = some line ∧ p k then { c with resv := none } else c) s.cores }

/-- A cache line after its copy is gone: what is under way for it stays; an upgrade becomes a request with data
(13 R317). -/
def CacheLine.lost (x : CacheLine) : CacheLine :=
  let y := { x with st := .i, poison := false, way := 0, hold := false, tr := if x.tr = .sm then .im else x.tr }
  if y.tr = .none then { y with nt := false } else y

/-- Invalidate every copy of a line but those of the caches that `keep` names (13 R318, R319). -/
def State.invalidate (s : State) (line : Nat) (keep : Nat → Bool) : State :=
  (s.mapCopies line (fun c => !keep c) CacheLine.lost).dropReservations line (fun k => !keep (160 + k))

/-- Put new contents into the newest copy of a line: `data` at offset `off`. A write of the whole line clears its
poison bit, a partial one keeps it (13 R313). -/
def State.mergeDirty (s : State) (line off : Nat) (data : List Byte) : State :=
  let old := s.readMem (line * 128) 128
  let p := s.linePoison line
  { s with dirty := minsert line { data := splice old off data, poison := p && data.length < 128 } s.dirty }

/-! ## The snapshot set and copy-before-write (16 R384 to R389) -/

/-- The ranges of a section 0Ah: base and size (02 R52). -/
def rangesOf (b : List Byte) : List (Nat × Nat) :=
  let f (off : Nat) : Nat := leNat ((b.drop off).take 8)
  (countFrom 0 (bits (f 8) 32 7)).map (fun j => (f (16 + 16 * j), f (24 + 16 * j)))

/-- The ranges in force. -/
def State.snapRanges (s : State) : List (Nat × Nat) := rangesOf (s.sec 10)

/-- The ranges that the next cut takes: those of a flip that waits for it, else those in force (02 R66, 16 R391). -/
def State.cutRanges (s : State) : List (Nat × Nat) :=
  match mget none s.image.secsNext 10 with
  | some b => rangesOf b
  | none => s.snapRanges

/-- The offset of an address in the home slot: each range at the sum of the sizes before it (16 R385). -/
def homeOffset (a : Nat) : Nat → List (Nat × Nat) → Option Nat
  | _, [] => none
  | off, (b, n) :: rest => if b ≤ a ∧ a < b + n then some (off + (a - b)) else homeOffset a (off + n) rest

/-- Whether a line belongs to the snapshot set (16 R384). -/
def State.inSet (s : State) (line : Nat) : Bool := (homeOffset (line * 128) 0 s.snapRanges).isSome

/-- Whether a line belongs to the set of the next cut. -/
def State.inCut (s : State) (line : Nat) : Bool := (homeOffset (line * 128) 0 s.cutRanges).isSome

/-- The home size H (16 R385). -/
def State.homeSize (s : State) : Nat := (s.snapRanges.map (·.2)).foldl (· + ·) 0

/-- The base of the half of the Drawer that an epoch uses (16 R385). -/
def State.halfBase (s : State) (epoch : Nat) : Nat := s.drawerBase + epoch % 2 * (s.secNat 5 8 2 * 0x20000000)

/-- The snapshot granule of a line: 64 KiB (16 R384). -/
def granuleOf (line : Nat) : Nat := line / 512

/-- Whether a line lies in an uncopied granule of the cut, while the copy runs (16 R387, R388, R391). -/
def State.uncopiedLine (s : State) (line : Nat) : Bool := decide (s.snap.phase = .copy) && s.snap.uncopied.contains (granuleOf line)

/-- Whether the module directory holds the grants of a line and the uncached writes to it: HOLD (16 R386). -/
def State.cutHeld (s : State) (line : Nat) : Bool := decide (s.snap.phase = .hold) && s.inCut line

/-- Whether a core stands between the `LR` and the `SC` of a constrained pair on a line: its hold window outlasts the pair, and
nothing takes the line (06 R177; log entry 64). -/
def State.pinned (s : State) (line : Nat) : Bool := s.cores.any (fun x => decide (x.2.resv = some line) && x.2.pair.isSome)

/-- Whether a write to a line waits at the directory: for the cut, or for a constrained pair. -/
def State.writeHeld (s : State) (line : Nat) : Bool := s.cutHeld line || s.pinned line

/-- The die of a memory block in a machine-check record (18 R430). -/
def blockDie : MemBlockId → Nat
  | .mb d => 5 + d.val
  | .hd => 0

/-- The stack or tier 2 channel that holds a tile. -/
def tileStack : MemBlockId → Nat → Nat
  | .mb _, t => t % 4
  | .hd, t => t % 12

/-- The physical address of a tile. -/
def State.tileAddr (s : State) : MemBlockId → Nat → Nat
  | .mb d, t => tier1Addr s.interleaved d.val (t * 4096)
  | .hd, t => 0x10000000000 + t * 4096

/-- Enter a tile into the poison table with the lines that carry no poison, where some do; a full table is FATAL
(14 R338). -/
def State.carryPoison (s : State) (b : MemBlockId) (t : Nat) (written : BitVec 32) : State :=
  if written = BitVec.allOnes 32 then s
  else
    let k := s.block b
    if !(mget PoisonTile.reset k.poison t).present ∧ (match b with
        | .mb _ => 1024
        | .hd => 4096) ≤ k.poison.length + k.retired.length then
      s.report { mkRec (blockDie b) (0x9000 + tileStack b t) 0x10 3 0 0 with paddr := s.tileAddr b t }
    else (s.setBlock b { k with poison := mset PoisonTile.reset k.poison t { present := true, written := written, stamp := s.fresh } }).bump

/-- Copy a tile between two places of the DRAM, its lines with their poison bits (16 R389). The Bool says that a poisoned
line was met. -/
def State.copyTile (s : State) (src dst : Nat) : Bool × State :=
  let clean := (countFrom 0 32).filter (fun i => !s.memPoison (src / 128 + i))
  let s1 := (countFrom 0 32).foldl (fun (s1 : State) i => s1.dramWrite (dst / 128 + i) (memReads s.mem (src + 128 * i) 128) (clean.contains i)) s
  let mask := clean.foldl (fun (m : BitVec 32) i => m ||| (BitVec.ofNat 32 1 <<< i)) 0
  match s1.tileOf dst with
  | some (b, t) => (decide (clean.length < 32), s1.carryPoison b t mask)
  | none => (false, s1)

/-- Copy the tiles of a stretch of 4 KiB multiples. -/
def State.copyTiles (s : State) (src dst tiles : Nat) : Bool × State :=
  (countFrom 0 tiles).foldl (fun (x : Bool × State) i =>
    let (p, s1) := x.2.copyTile (src + 4096 * i) (dst + 4096 * i)
    (x.1 || p, s1)) (false, s)

/-- Granule `g` is copied, with poison or not: counted, and due to be streamed (16 R387, R397). -/
def State.noteCopied (s : State) (g : Nat) (poisoned : Bool) : State :=
  { s with snap := { s.snap with
      uncopied := without g s.snap.uncopied, copied := s.snap.copied + 1
      poisoned := s.snap.poisoned || poisoned, unsent := if s.snap.streaming then s.snap.unsent ++ [g] else s.snap.unsent } }

/-- Copy granule `g`, at address `base`, into its home slot of the epoch. -/
def State.copyHome (s : State) (g base : Nat) : State :=
  match homeOffset base 0 s.snapRanges with
  | none => { s with snap := { s.snap with uncopied := without g s.snap.uncopied } }
  | some off =>
    let x := s.copyTiles base (s.halfBase s.snap.epoch.toNat + off) 16
    x.2.noteCopied g x.1

/-- Copy an uncopied granule into the home slot of the epoch (16 R387 to R389). -/
def State.copyGranule (s : State) (g : Nat) : State :=
  if s.snap.uncopied.contains g then s.copyHome g (g * 65536) else s

/-- An access is held by copy-before-write: counted, with its time (16 R407; log entry 4). -/
def State.countStall (s : State) : State :=
  { s.bump with snap := { s.snap with stalls := satAdd s.snap.stalls 1, stallUs := satAdd s.snap.stallUs (Config.elapsed s.fresh) } }

/-- Ask for a demand copy of the granule of a line (16 R388). -/
def State.demandCopy (s : State) (line : Nat) : State :=
  { s.countStall with snap := { s.countStall.snap with demand := addNew (granuleOf line) s.snap.demand } }

/-- Cut a byte string at line boundaries: the line, the offset in it, and its bytes. -/
def linePieces : Nat → Nat → List Byte → List (Nat × Nat × List Byte)
  | 0, _, _ => []
  | fuel + 1, a, data =>
    if data.isEmpty then []
    else
      let room := 128 - a % 128
      (lineOf a, a % 128, data.take room) :: linePieces fuel (a + room) (data.drop room)

/-- Write bytes into an SRAM window; words that are overwritten in full become correctable again (11 R269). -/
def State.sramWrite (s : State) (a : Nat) (data : List Byte) : State :=
  { s with
    mem := memWrites s.mem a data
    badSram := s.badSram.filter (fun w => !(decide (a ≤ w * 8) && decide (w * 8 + 8 ≤ a + data.length))) }

/-- Whether a located piece touches a line whose writes wait (16 R386, 06 R177). -/
def State.pieceHeld (s : State) (l : List (Nat × Nat)) : Bool :=
  l.any (fun x => (s.kindAt x.1).normal && (linesOf x.1 x.2).any s.writeHeld)

/-- Read a little-endian number of `n` bytes from the newest copies. -/
def State.readNat (s : State) (a n : Nat) : Nat := leNat (s.readMem a n)

end Sys2Proof.Machine
end

