-- ==== Sys2Proof/Machine/Ways.lean ====
section
/-! DEFINITION. The caches as structures: where each stands, its ways and sets, the tree pseudo-LRU, the way masks, the
choice of a way for a fill, and what the directories record of a line (13 R308 to R315, R322; 02 R49). -/

namespace Sys2Proof.Machine

/-! ## Where a cache stands (13 R308) -/

/-- The die of a cache by cache number: CD d, 4 for HD. -/
def cacheDie (n : Nat) : Nat :=
  if n < 96 then n / 24
  else if n < 160 then 4
  else if n < 256 then (n - 160) / 24
  else if n < 320 then 4
  else if n < 352 then (n - 320) / 8
  else if n < 356 then n - 352
  else 4

/-- Whether a cache is an L1 I, which holds S and I alone and is only ever invalidated (13 R308, R314). -/
def isL1i (n : Nat) : Bool := n < 160

/-- Whether a cache stands at the module directory: an L2 or the L3 (13 R309). -/
def atModule (n : Nat) : Bool := 352 ≤ n

/-- Whether a cache holds the lines it has won: a Sycen L1 D, an engine line cache, a Hazia L2 (13 R308, R320). -/
def holdsLines (n : Nat) : Bool := (160 ≤ n && n < 256) || (320 ≤ n && n < 352) || (356 ≤ n && n < 420)

/-- A cache by its number. -/
def cacheOf (n : Nat) : CacheId :=
  let core (i : Nat) : CoreId := if i < 96 then .sycen (Fin.ofNat 4 (i / 24)) (Fin.ofNat 24 (i % 24)) else .hazia (Fin.ofNat 64 (i - 96))
  if n < 160 then .l1i (core n)
  else if n < 320 then .l1d (core (n - 160))
  else if n < 352 then .engineLines (Fin.ofNat 4 ((n - 320) / 8)) (Fin.ofNat 8 ((n - 320) % 8))
  else if n < 356 then .l2 (Fin.ofNat 4 (n - 352))
  else if n < 420 then .haziaL2 (Fin.ofNat 64 (n - 356))
  else .l3

/-- The directory that the requests of a cache reach: the die's, or the module's (4) (13 R314, R315). -/
def dirOf (n : Nat) : Nat := if atModule n then 4 else cacheDie n

/-- The L2 of a CD. -/
def dieL2 (d : Nat) : CacheId := .l2 (Fin.ofNat 4 d)

/-! ## Ways and sets (13 R308, R311, R315) -/

/-- The number of the directory-only array of the module directory, beside the cache numbers. -/
def dirArray : Nat := 421

/-- The ways of a cache, or of the directory-only array, and the number of its sets: size / (128 bytes x ways). -/
def geometry (n : Nat) : Nat × Nat :=
  if n < 256 then (4, 128)
  else if n < 320 then (8, 64)
  else if n < 352 then (4, 64)
  else if n < 356 then (16, 24576)
  else if n < 420 then (16, 1024)
  else (32, 65536)

/-- The misses that a cache may have outstanding (13 R308). -/
def missCapacity (n : Nat) : Nat :=
  if n < 96 then 1
  else if n < 160 then 8
  else if n < 256 then 1
  else if n < 320 then 32
  else if n < 352 then 16
  else if n < 356 then 256
  else if n < 420 then 64
  else 256

/-- The set of a line: the line number modulo the number of sets (log entry 25). -/
def setOf (n line : Nat) : Nat := line % (geometry n).2

/-- The key of the replacement bits of a set. -/
def setKey (n line : Nat) : Nat := n * 2 ^ 20 + setOf n line

/-- Set or clear bit `i` of a number. -/
def putBit (x i : Nat) (v : Bool) : Nat := if bit x i = v then x else if v then x + 2 ^ i else x - 2 ^ i

/-- Turn the tree bits on the path of a way: away from it, so that it is the most recently used, or toward it. The tree is
in heap order, and a bit names the half that is the older one. -/
def plruMark (away : Bool) (way : Nat) : Nat → Nat → Nat → Nat
  | 0, _, b => b
  | lv + 1, node, b =>
    let side := bit way lv
    plruMark away way lv (2 * node + b2n side) (putBit b node (if away then !side else side))

/-- The least recently used way by the tree, among those that a test admits. -/
def plruVictim (ok : Nat → Bool) (b : Nat) : Nat → Nat → Nat → Option Nat
  | 0, _, w => if ok w then some w else none
  | lv + 1, node, w =>
    let old := b2n (bit b node)
    match plruVictim ok b lv (2 * node + old) (2 * w + old) with
    | some v => some v
    | none => plruVictim ok b lv (2 * node + 1 - old) (2 * w + 1 - old)

/-- The levels of the tree of a cache. -/
def plruLevels (n : Nat) : Nat := Nat.log2 (geometry n).1

/-- A way of a set has been filled or used; `away` is false for a fill with the non-temporal hint (13 R311). -/
def State.used (s : State) (n line way : Nat) (away : Bool) : State :=
  { s with plru := mmod 0 s.plru (setKey n line) (plruMark away way (plruLevels n) 1) }

/-- An access finds a line in a cache: its way becomes the most recently used. -/
def State.touch (s : State) (c : CacheId) (line : Nat) : State :=
  if (s.line c line).st = .i then s else s.used (cacheKey c) line (s.line c line).way true

/-- The lines of a set with their ways. -/
def State.occupants (s : State) (n line : Nat) : List (Nat × Nat) :=
  if n = dirArray then
    s.module.filterMap (fun x => if setOf n x.1 = setOf n line then x.2.way.map (fun w => (w, x.1)) else none)
  else
    s.lines.filterMap (fun x =>
      if x.1 / 2 ^ 48 = n ∧ x.2.st ≠ .i ∧ setOf n (x.1 % 2 ^ 48) = setOf n line then some (x.2.way, x.1 % 2 ^ 48) else none)

/-! ## Way masks (02 R49, 13 R310) -/

/-- The allocation classes of a CD L2: sequencer L1 fills, feeders and drains, engine zoo, movers, requests from other dies;
and of the L3: Hazia cores, HD movers, PCIe inbound, requests from CDs, Cabinet traffic. The index is that of the mask. -/
abbrev FillClass := Fin 5

/-- The ways into which a class may fill a cache: section 06h for an L2 and the L3; every way elsewhere, and where no
section is in force. -/
def State.mask (s : State) (n : Nat) (cls : FillClass) : Nat → Bool :=
  let m := if 352 ≤ n ∧ n < 356 then s.secNat 6 (16 * (n - 352) + 2 * cls.val) 2
    else if n = 420 then s.secNat 6 (64 + 4 * cls.val) 4 else 0
  fun w => decide (m = 0) || bit m w

/-- The class of a requester below the L2 of its die. -/
def fillClass (n : Nat) : FillClass := if 320 ≤ n ∧ n < 352 then (if (n - 320) % 8 = 7 then 3 else 2) else 0

/-! ## Directory entries (13 R314, R315) -/

/-- The entry of a line at a die directory, or at the module directory (4). -/
def State.dirEntry (s : State) (dir line : Nat) : DirEntry :=
  if dir < 4 then mget DirEntry.reset s.dies (dir * 2 ^ 48 + line) else mget DirEntry.reset s.module line

def State.setDirEntry (s : State) (dir line : Nat) (e : DirEntry) : State :=
  if dir < 4 then { s with dies := mset DirEntry.reset s.dies (dir * 2 ^ 48 + line) e }
  else { s with module := mset DirEntry.reset s.module line e }

/-- Change the entry of a line. -/
def State.modDirEntry (s : State) (dir line : Nat) (f : DirEntry → DirEntry) : State := s.setDirEntry dir line (f (s.dirEntry dir line))

/-- Whether the entry of a line is open (13 R317). -/
def State.isOpen (s : State) (dir line : Nat) : Bool := (s.dirEntry dir line).openFor.isSome

/-- Whether the directory knows a cache as a holder of the line: a copy, a notice still outstanding, or a grant. -/
def CacheLine.known (x : CacheLine) : Bool := decide (x.st ≠ .i) || decide (x.tr = .mi) || decide (x.tr = .ei) || x.granted.isSome

/-- The caches of a line that a test on the cache number selects, as the directories know them. -/
def State.knownAt (s : State) (line : Nat) (p : Nat → Bool) : List (Nat × CacheLine) :=
  (s.lines.filter (fun x => decide (x.1 % 2 ^ 48 = line) && x.2.known && p (x.1 / 2 ^ 48))).map (fun x => (x.1 / 2 ^ 48, x.2))

/-- The bit of a cache in the sharer vector of its die: cluster, 24 + engine, 31 for the bulk movers (13 R314). -/
def sharerBit (n : Nat) : Nat := if n < 160 then n % 24 else if n < 320 then (n - 160) % 24 else 24 + (n - 320) % 8

/-- The slot of a cache in the round-robin order of its directory: sharer bits at a die, dies at the module (13 R321). -/
def roundSlot (n : Nat) : Nat := if atModule n then cacheDie n else sharerBit n

/-- The sharer vector of a line at a die directory (13 R314). -/
def State.sharerVector (s : State) (d line : Nat) : BitVec 32 :=
  (s.knownAt line (fun n => cacheDie n = d && !atModule n)).foldl (fun (v : BitVec 32) x => v ||| (1 <<< sharerBit x.1)) 0

/-- A line state that answers read requests (13 R316). -/
def LineState.answers (st : LineState) : Bool := st = .m || st = .e || st = .f

/-- `F` of a line at a die directory: the sharer that answers reads, 3Fh for none (13 R314). -/
def State.dieF (s : State) (d line : Nat) : BitVec 6 :=
  match (s.copies line).find? (fun x => cacheDie x.1 = d && !atModule x.1 && x.2.st.answers) with
  | some x => BitVec.ofNat 6 (sharerBit x.1)
  | none => 0x3F

/-- The state of a die's copy: that of its L2, M where any of its caches holds the line dirty (13 R314, R316). -/
def State.dieState (s : State) (d line : Nat) : LineState :=
  if (s.copies line).any (fun x => cacheDie x.1 = d && decide (x.2.st = .m)) then .m else (s.line (dieL2 d) line).st

/-- The dies that hold a line, bit 4 for HD (13 R315). -/
def State.dieVector (s : State) (line : Nat) : BitVec 5 :=
  (s.knownAt line atModule).foldl (fun (v : BitVec 5) x => v ||| (1 <<< cacheDie x.1)) 0

/-- The first holder of a line at the module directory in a state that a test selects, as a die (13 R315). -/
def State.moduleHolder (s : State) (line : Nat) (p : LineState → Bool) : Option Nat :=
  ((s.copies line).find? (fun x => atModule x.1 && p x.2.st)).map (fun x => cacheDie x.1)

/-- The die that answers reads, and the owner die (13 R315). -/
def State.moduleF (s : State) (line : Nat) : Option Nat := s.moduleHolder line LineState.answers
def State.ownerDie (s : State) (line : Nat) : Option Nat := s.moduleHolder line (fun st => st = .m || st = .e)

/-- The Hazia cores whose L2 holds a line, and the one that answers reads (13 R315). -/
def State.haziaVector (s : State) (line : Nat) : BitVec 64 :=
  (s.knownAt line (fun n => 356 ≤ n && n < 420)).foldl (fun (v : BitVec 64) x => v ||| (1 <<< (x.1 - 356))) 0
def State.haziaF (s : State) (line : Nat) : Option Nat :=
  ((s.copies line).find? (fun x => 356 ≤ x.1 && x.1 < 420 && x.2.st.answers)).map (fun x => x.1 - 356)

/-! ## The choice of a way (13 R309, R311, R312, R320, R322) -/

/-- The copies of a line in the caches that a cache includes, as its directory knows them (13 R309). -/
def State.below (s : State) (n line : Nat) : List (Nat × CacheLine) :=
  s.knownAt line (fun k =>
    if n = 420 ∨ n = dirArray then atModule k && decide (k ≠ 420)
    else if 356 ≤ n then decide (k = n - 260) || decide (k = n - 100)
    else 352 ≤ n && cacheDie k = n - 352 && !atModule k)

/-- Whether a line may be a victim of a cache: not held, there or below, nothing under way for it, its entry not open
(13 R320, R322). -/
def State.evictable (s : State) (n line : Nat) : Bool :=
  let x := s.line (cacheOf n) line
  let idle (dir : Nat) : Bool := let e := s.dirEntry dir line
    e.openFor.isNone && e.missers.isEmpty && e.waiting.isEmpty
  (n = dirArray || (!x.hold && decide (x.tr = .none)))
  && (if n = 420 ∨ n = dirArray then (s.copies line).all (fun y => !y.2.hold) && idle 4
      else if 352 ≤ n ∧ n < 356 then (s.below n line).all (fun y => !y.2.hold) && idle (n - 352)
      else true)

/-- Send a message about a line to a cache. -/
def State.sendSnoop (s : State) (cache : CacheId) (line : Nat) (m : Snoop) : State :=
  s.setLine cache line { s.line cache line with snoops := (s.line cache line).snoops ++ [m] }

/-- Send a message from the module directory to a cache there: to a die over its link, in the order sent (01 R20). -/
def State.sendDown (s : State) (n line : Nat) (m : Snoop) : State :=
  if n < 356 then { s with snoopq := mmod [] s.snoopq (n - 352) (· ++ [(line, m)]) } else s.sendSnoop (cacheOf n) line m

/-- Open the recall of a line from every cache below a directory (13 R309, R317, R322). -/
def State.startRecall (s : State) (dir line : Nat) : State :=
  let held := if dir < 4 then s.below (352 + dir) line else s.below dirArray line
  let s1 := s.modDirEntry dir line (fun e => { e with openFor := some .recall, owed := held.length })
  held.foldl (fun (s : State) x => if dir < 4 then s.sendSnoop (cacheOf x.1) line .recall else s.sendDown x.1 line .recall) s1

/-- A line leaves its way at once: a writeback or a clean eviction notice is outstanding from now on (13 R312, R317). The
copies of the core's own L1 go with it, and reservations on them (06 R176). -/
def State.leaveWay (s : State) (n line : Nat) : State :=
  let c := cacheOf n
  let x := s.line c line
  let s1 := s.setLine c line { CacheLine.reset with tr := if x.st = .m then .mi else .ei, nt := x.nt, snoops := x.snoops }
  match c with
  | .haziaL2 k =>
    ((s1.setLine (.l1d (.hazia k)) line CacheLine.reset).setLine (.l1i (.hazia k)) line CacheLine.reset).dropReservations line
      (fun r => r = 96 + k.val)
  | _ => s1.dropReservations line (fun k => 160 + k = n)

/-- A directory-only way for a line whose data the L3 does not hold, or will not hold once a grant of ownership has taken
them (13 R315). The Bool says that the line has its entry; otherwise a victim is being recalled, or every candidate is excluded. A
victim that no cache holds any more gives its way at once. -/
def State.dirWay (s : State) (line : Nat) (own : Bool) : Bool × State :=
  if (s.dirEntry 4 line).way.isSome ∨ (own = false ∧ (s.line .l3 line).st ≠ .i) then (true, s)
  else
    let occ := s.occupants dirArray line
    let take (s : State) (w : Nat) : State := (s.modDirEntry 4 line (fun e => { e with way := some w })).used dirArray line w true
    match (countFrom 0 32).find? (fun w => !occ.any (fun o => decide (o.1 = w))) with
    | some w => (true, take s w)
    | none =>
      match plruVictim (fun w => occ.any (fun o => decide (o.1 = w) && s.evictable dirArray o.2))
          (mget 0 s.plru (setKey dirArray line)) (plruLevels dirArray) 1 0 with
      | some w =>
        match occ.find? (fun o => decide (o.1 = w)) with
        | some o =>
          if (s.below dirArray o.2).isEmpty then (true, take (s.modDirEntry 4 o.2 (fun e => { e with way := none })) w)
          else (false, s.startRecall 4 o.2)
        | none => (false, s)
      | none => (false, s)

/-- Make the way of a victim free: a private line leaves at once; an L2 line with copies below it is recalled first; data of
the L3 go to memory, and the entry of a line held elsewhere moves to the directory-only array, or is recalled. -/
def State.vacate (s : State) (n line : Nat) : Bool × State :=
  if 352 ≤ n ∧ n < 356 then
    if (s.below n line).isEmpty then (true, s.leaveWay n line) else (false, s.startRecall (n - 352) line)
  else if n = 420 then
    let s1 := (if (s.line .l3 line).st = .m then s.cleanLine line else s).setLine .l3 line CacheLine.reset
    if (s1.below 420 line).isEmpty then (true, s1)
    else match s1.dirWay line false with
      | (true, s2) => (true, s2)
      | (false, s2) => (true, s2.startRecall 4 line)
  else if 256 ≤ n ∧ n < 320 ∨ 96 ≤ n ∧ n < 160 then
    (true, (s.setLine (cacheOf n) line CacheLine.reset).dropReservations line (fun k => 160 + k = n))
  else (true, s.leaveWay n line)

/-- Find a way for a fill: an invalid one, else the least recently used that is not excluded. None: the fill keeps its data in
its miss register (13 R311, R322). -/
def State.place (s : State) (n line : Nat) (cls : FillClass) : Option Nat × State :=
  let occ := s.occupants n line
  let permitted := s.mask n cls
  match (countFrom 0 (geometry n).1).find? (fun w => permitted w && !occ.any (fun o => decide (o.1 = w))) with
  | some w => (some w, s)
  | none =>
    match plruVictim (fun w => permitted w && occ.any (fun o => decide (o.1 = w) && s.evictable n o.2))
        (mget 0 s.plru (setKey n line)) (plruLevels n) 1 0 with
    | some w =>
      match occ.find? (fun o => decide (o.1 = w)) with
      | some o =>
        match s.vacate n o.2 with
        | (true, s1) => (some w, s1)
        | (false, s1) => (none, s1)
      | none => (none, s)
    | none => (none, s)

end Sys2Proof.Machine
end

