-- ==== Sys2Proof/Machine/Directory.lean ====
section
/-! DEFINITION. The directories: the requests for a line, the messages to the caches that hold it, fills and their
acknowledgements, writebacks and recalls, at the directory of each compute die and at the module directory
(13 R309 to R323; 16 R386 to R388). Every operation is one step of one line; `pump` runs what a step has made possible. -/

namespace Sys2Proof.Machine

/-- The cache that a request comes from. -/
def DirReq.cache : DirReq → Option CacheId
  | .read c => some c
  | .own c => some c
  | .upgrade c => some c
  | .writeback c => some c
  | .notice c => some c
  | .forwarded _ => none
  | .maint _ _ => none
  | .uncached _ _ _ _ _ => none

/-- Whether a request is one for a fill or for ownership. -/
def DirReq.asks : DirReq → Bool
  | .read _ => true
  | .own _ => true
  | .upgrade _ => true
  | _ => false

/-- Whether a request is one for ownership. -/
def DirReq.owns : DirReq → Bool
  | .own _ => true
  | .upgrade _ => true
  | _ => false

/-- Whether a request is an uncached one. -/
def DirReq.isUncached : DirReq → Bool
  | .uncached _ _ _ _ _ => true
  | _ => false

/-- The slot of an arrival in the round-robin order of a directory (13 R321). -/
def DirReq.slot : DirReq → Nat
  | .forwarded _ => 33
  | .uncached .hd _ _ _ _ => 4
  | r => match r.cache with
    | some c => roundSlot (cacheKey c)
    | none => 32

/-! ## Answers (13 R317, R318) -/

/-- Record the last slot granted at a directory (13 R321). -/
def State.noteSlot (s : State) (dir slot : Nat) : State :=
  if dir < 4 then { s with dieGrant := mset 33 s.dieGrant dir slot } else { s with moduleGrant := slot }

def State.noteGrant (s : State) (cache : CacheId) : State := s.noteSlot (dirOf (cacheKey cache)) (roundSlot (cacheKey cache))

/-- Change what a cache holds or awaits of a line. -/
def State.modLine (s : State) (cache : CacheId) (line : Nat) (f : CacheLine → CacheLine) : State :=
  s.setLine cache line (f (s.line cache line))

/-- Grant a state to a requester; an L1 I takes S alone. -/
def State.grant (s : State) (cache : CacheId) (line : Nat) (st : LineState) : State :=
  s.modLine cache line (fun x => { x with granted := some (if isL1i (cacheKey cache) then .s else st) })

/-- An invalidation for a requester has been acknowledged. -/
def State.acked (s : State) (cache : CacheId) (line : Nat) : State :=
  s.modLine cache line (fun x => { x with awaits := x.awaits - 1 })

/-- A message has been answered to the directory that sent it. -/
def State.answered (s : State) (dir line : Nat) : State := s.modDirEntry dir line (fun e => { e with owed := e.owed - 1 })

/-- Open the entry of a line for requesters. -/
def State.openEntry (s : State) (dir line : Nat) (k : OpenKind) (for' : List CacheId) : State :=
  (for'.foldl (fun (s : State) c => s.noteGrant c) s).modDirEntry dir line (fun e => { e with openFor := some k, awaited := for' })

/-- Whether a grant of ownership of a line waits: for the cut, or for a copy-before-write (16 R386, R388). -/
def State.grantWaits (s : State) (line : Nat) : Bool := s.cutHeld line || s.uncopiedLine line

/-- The state that a read takes where no other copy exists: E, or F where a grant of ownership would wait, for E may be
written without a request (13 R316, R318; log entry 45). -/
def State.readGrant (s : State) (line : Nat) : LineState := if s.grantWaits line then .f else .e

/-- A cache loses its copy of a line, a Hazia L2 with the copies of its L1; a reservation on it goes (06 R176). -/
def State.dropCopy (s : State) (cache : CacheId) (line : Nat) : State :=
  let s1 := s.modLine cache line CacheLine.lost
  match cache with
  | .haziaL2 k =>
    ((s1.setLine (.l1d (.hazia k)) line CacheLine.reset).setLine (.l1i (.hazia k)) line CacheLine.reset).dropReservations line
      (fun r => r = 96 + k.val)
  | _ => s1.dropReservations line (fun k => 160 + k = cacheKey cache)

/-- Put a copy into another state, a Hazia L2 with the copy of its L1 D; an answer to that L1 D not yet taken is made anew. -/
def State.restate (s : State) (cache : CacheId) (line : Nat) (st : LineState) : State :=
  let s1 := s.modLine cache line (fun x => if x.st = .i then x else { x with st := st })
  match cache with
  | .haziaL2 k => s1.modLine (.l1d (.hazia k)) line (fun x => if x.st = .i then { x with granted := none } else { x with st := st, granted := none })
  | _ => s1

/-- Dirty data leave a private cache for the next level: the L2 of its die becomes M; at the module directory they are written
to memory (13 R318; log entry 20). -/
def State.handUp (s : State) (n line : Nat) : State :=
  if dirOf n < 4 then
    (s.restate (dieL2 (dirOf n)) line .m).modLine (dieL2 (dirOf n)) line (fun x => { x with poison := (s.dirtyLine line).poison })
  else s.cleanLine line

/-- Grant ownership to a requester at the module directory once no other cache holds the line: the L3 gives up its data, and
data that the L3 held dirty are written to memory, others that memory has not seen make it M (13 R316, R318, R321). -/
def State.grantOwner (s : State) (dst : CacheId) (line : Nat) : State :=
  let s1 := (if (s.line .l3 line).st = .m then s.cleanLine line else s).dropCopy .l3 line
  s1.grant dst line (if s1.isDirty line then .m else .e)

/-- The state that a read takes at a die once the L2 answers: E where the die is the owner and none of its caches holds the
line, else F (13 R318). -/
def State.dieGrantState (s : State) (d line : Nat) (others : List (Nat × CacheLine)) : LineState :=
  let l2 := (s.line (dieL2 d) line).st
  if others.isEmpty && (l2 = .e || l2 = .m) then .e else .f

/-- The answer to a request that a cache's copy served, or that memory serves because the copy is gone. -/
def State.answerRead (s : State) (dst : CacheId) (line : Nat) : State :=
  let d := cacheKey dst
  let others := (s.copies line).filter (fun x => decide (x.1 ≠ d) && decide (dirOf x.1 = dirOf d))
  s.grant dst line (if dirOf d < 4 then s.dieGrantState (dirOf d) line others else if others.isEmpty then s.readGrant line else .f)

/-! ## Messages at a private cache (13 R317, R318, R320, R324) -/

/-- Serve a message that asks a cache for a line: the requester, and whether the cache gives its copy up. -/
def State.supply (s : State) (cache : CacheId) (line : Nat) (dst : CacheId) (give : Bool) : State :=
  let n := cacheKey cache
  let dir := dirOf n
  let x := s.line cache line
  let toDir := decide (dir < 4 ∧ cacheKey dst = 352 + dir)
  if give then
    let dirty := decide (x.st = .m) || decide (x.tr = .mi)
    let s1 := if x.st = .i then s.modLine cache line (fun y => if y.tr = .mi then { y with tr := .ei } else y) else s.dropCopy cache line
    if dir = 4 then s1.grantOwner dst line else s1.grant dst line (if dirty then .m else .e)
  else
    let s1 := match x.st with
      | .m => (s.handUp n line).restate cache line .s
      | .e => s.restate cache line .f
      | .i => if x.tr = Transient.mi then (s.handUp n line).modLine cache line (fun y => { y with tr := .ei }) else s
      | _ => s
    if toDir then s1.answered dir line
    else if x.st = .i then s1.answerRead dst line
    else s1.grant dst line .f

/-- Take a copy away for its directory, dirty data going up: a recall, or `CLEANINVAL` and `INVAL`. -/
def State.giveBack (s : State) (cache : CacheId) (line : Nat) : State :=
  let n := cacheKey cache
  let x := s.line cache line
  let s1 := if (x.st = .m ∨ x.tr = .mi) ∧ dirOf n < 4 then s.handUp n line else s
  if x.st = .i then s1.modLine cache line (fun y => if y.tr = .mi then { y with tr := .ei } else y) else s1.dropCopy cache line

/-- Serve one message at a private cache by the state of the line. -/
def State.serveSnoop (s : State) (cache : CacheId) (line : Nat) : Snoop → State
  | .read dst => s.supply cache line dst false
  | .own dst => s.supply cache line dst true
  | .inval dst => (s.dropCopy cache line).acked dst line
  | .recall => (s.giveBack cache line).answered (dirOf (cacheKey cache)) line
  | .maint .clean =>
    let x := s.line cache line
    let s1 := if x.st = .m ∨ x.st = .e then s.restate cache line .s else s.modLine cache line (fun y => if y.tr = .mi then { y with tr := .ei } else y)
    s1.answered (dirOf (cacheKey cache)) line
  | .maint _ => (s.giveBack cache line).answered (dirOf (cacheKey cache)) line

/-- A snoop to the L1 of a sequencer ends the Idle of its die (18 R423). -/
def State.wakeFor (s : State) : CacheId → State
  | .l1i (.sycen d _) => s.wakeCd d
  | .l1d (.sycen d _) => s.wakeCd d
  | _ => s

/-- A cache takes the first message that has been sent to it about a line and serves it. -/
def State.takeSnoop (s : State) (cache : CacheId) (line : Nat) : State :=
  match (s.line cache line).snoops with
  | [] => s
  | m :: rest => ((s.wakeFor cache).modLine cache line (fun x => { x with snoops := rest })).serveSnoop cache line m

/-! ## The module directory's messages at a die (13 R314, R318, R322, R323) -/

/-- The copies of a line on a die, below its L2. -/
def State.sharers (s : State) (d line : Nat) : List (Nat × CacheLine) := s.below (352 + d) line

/-- A die directory answers the module directory once its own copies have acted. -/
def State.finishTask (s : State) (d line : Nat) (m : Snoop) : State :=
  let l2 := dieL2 d
  let x := s.line l2 line
  match m with
  | .read dst =>
    let dirty := s.isDirty line
    let s1 := if dirty then s.cleanLine line else s
    let st : LineState := if dirty ∨ x.st = .m then .s else if x.st = .e then .f else x.st
    (s1.restate l2 line st).grant dst line .f
  | .own dst => (s.dropCopy l2 line).grantOwner dst line
  | .inval dst => (s.dropCopy l2 line).acked dst line
  | .recall => (s.dropCopy l2 line).answered 4 line
  | .maint .clean => (if x.st = .m ∨ x.st = .e then s.restate l2 line .s else s).answered 4 line
  | .maint _ => (s.dropCopy l2 line).answered 4 line

/-- A message about a line that the L2 does not hold is answered from its writeback buffer, or as from I (13 R317). -/
def State.answerAbsent (s : State) (d line : Nat) (m : Snoop) : State :=
  let l2 := dieL2 d
  let buffered := decide ((s.line l2 line).tr = .mi)
  let s1 := s.modLine l2 line (fun y => if y.tr = .mi then { y with tr := .ei } else y)
  match m with
  | .read dst => (if buffered then s1.cleanLine line else s1).answerRead dst line
  | .own dst => s1.grantOwner dst line
  | .inval dst => s.acked dst line
  | .recall => s1.answered 4 line
  | .maint _ => s1.answered 4 line

/-- The kind of entry that a message of the module directory opens at a die. -/
def Snoop.opens : Snoop → OpenKind
  | .read _ => .fwd
  | .own _ => .fwd
  | .inval _ => .own
  | .recall => .recall
  | .maint _ => .maint

/-- The message that a die sends to its own caches for one of the module directory. -/
def Snoop.inner (d : Nat) : Snoop → Snoop
  | .read _ => .read (dieL2 d)
  | .maint op => .maint op
  | _ => .recall

/-- Start a message of the module directory at a die: its entry opens, and the caches of the die that it concerns are asked,
the owner alone for a read. None while a fill of the L2 is outstanding. -/
def State.startTask (s : State) (d line : Nat) (m : Snoop) : Option State :=
  let x := s.line (dieL2 d) line
  if x.st = .i then (if x.tr = .im ∨ x.tr = .is then none else some (s.answerAbsent d line m))
  else
    let asked := (s.sharers d line).filter (fun y => match m with
      | .read _ => y.2.st = .m || y.2.st = .e || y.2.tr = .mi
      | _ => true)
    let s1 := (s.noteSlot d 33).modDirEntry d line (fun e => { e with openFor := some m.opens, task := some m, owed := asked.length })
    some (asked.foldl (fun (s : State) y => s.sendSnoop (cacheOf y.1) line (m.inner d)) s1)

/-! ## Requests at a die directory (13 R312, R318) -/

/-- The misses outstanding in a cache: for the L3 the entries whose miss register is taken (13 R312). -/
def State.missesOf (s : State) (n : Nat) : Nat :=
  if n = 420 then (s.module.filter (fun x => decide (x.2.missers ≠ []))).length
  else (s.lines.filter (fun x => decide (x.1 / 2 ^ 48 = n) &&
    (decide (x.2.tr = .is) || decide (x.2.tr = .im) || decide (x.2.tr = .sm)))).length

/-- Whether an uncached read waits at the input of the cache that serves it: the cache lacks the line, no miss register is free,
and none for the line takes a further secondary (13 R312). -/
def State.inputHeld (s : State) (at' : EtuId) (line : Nat) : Bool :=
  let (n, dir) : Nat × Nat := match at' with
    | .cd d => (352 + d.val, d.val)
    | .hd => (420, 4)
  let regs := (s.dirEntry dir line).missers.length
  decide ((s.line (cacheOf n) line).st = .i) && (decide (9 ≤ regs) || (decide (regs = 0) && decide (missCapacity n ≤ s.missesOf n)))

/-- A request of a die's L2 sets out for the module directory, in the order sent (01 R20): the transient state says which. It
fills under the class of the requester (13 R310). -/
def State.missL2 (s : State) (d line : Nat) (tr : Transient) (r : DirReq) : Option State :=
  if missCapacity (352 + d) ≤ s.missesOf (352 + d) then none
  else
    let nt := match r.cache with
      | some c => (s.line c line).nt
      | none => false
    let cls := (r.cache.map (fun c => fillClass (cacheKey c))).getD 0
    let s1 := (s.modLine (dieL2 d) line (fun x => { x with tr := tr, nt := nt, cls := cls })).modDirEntry d line (fun e => { e with missers := [r] })
    some { s1 with reqq := mmod [] s1.reqq d (· ++ [(line, none)]) }

/-- A request meets an outstanding miss of the L2: it merges as a secondary, or waits (13 R312). -/
def State.mergeMiss (s : State) (d line : Nat) (r : DirReq) : Option State :=
  match (s.dirEntry d line).missers with
  | [] => none
  | first :: rest =>
    if rest.length < 8 ∧ (first.owns ∨ !r.owns) then some (s.modDirEntry d line (fun e => { e with missers := e.missers ++ [r] })) else none

/-- A die whose L2 holds the line serves a read: its owner, its F holder, or the L2 supplies (13 R318). -/
def State.dieRead (s : State) (d line : Nat) (c : CacheId) : State :=
  let others := (s.sharers d line).filter (fun x => decide (x.1 ≠ cacheKey c))
  let s1 := s.touch (dieL2 d) line
  match others.find? (fun x => x.2.st.answers || x.2.tr = .mi) with
  | some x => (s1.sendSnoop (cacheOf x.1) line (.read c)).openEntry d line .fwd [c]
  | none => (s1.grant c line (s.dieGrantState d line others)).openEntry d line .fill [c]

/-- Serve an ownership request at a directory: every other holder is invalidated, an owner supplies (13 R318). `others` are the
holders at that level; the grant is made here unless an owner supplies. -/
def State.takeOwnership (s : State) (dir line : Nat) (c : CacheId) (others : List (Nat × CacheLine)) : State :=
  let x := s.line c line
  let data := decide (x.st = .i)
  let owner := if data then others.find? (fun y => y.2.st = .m || y.2.st = .e || y.2.tr = .mi) else none
  let supplies (n : Nat) : Bool := (owner.map (·.1)) == some n
  let s0 := s.touch (if dir < 4 then dieL2 dir else .l3) line
  let s1 := others.foldl (fun (s : State) y =>
    let m : Snoop := if supplies y.1 then .own c else .inval c
    if dir < 4 then s.sendSnoop (cacheOf y.1) line m else s.sendDown y.1 line m) s0
  let s2 := s1.modLine c line (fun y => { y with awaits := (others.filter (fun z => !supplies z.1)).length })
  let s3 := if owner.isSome then s2 else if dir < 4 then s2.grant c line .e else s2.grantOwner c line
  s3.openEntry dir line .own [c]

/-- Serve an arrival at a die directory; none: it must wait, as a request does behind those of the miss register whose line has
come and is not acknowledged yet. -/
def State.serveDie (s : State) (d line : Nat) (r : DirReq) : Option State :=
  let l2 := dieL2 d
  let x := s.line l2 line
  if r.asks && !(s.dirEntry d line).missers.isEmpty && decide (x.tr = .none) then none
  else match r with
  | .writeback c =>
    let s1 := if (s.line c line).tr = .mi then s.restate l2 line .m else s
    some (s1.modLine c line (fun y => if y.tr = .mi ∨ y.tr = .ei then { y with tr := .none } else y))
  | .notice c => some (s.modLine c line (fun y => if y.tr = .ei then { y with tr := .none } else y))
  | .forwarded m => s.startTask d line m
  | .maint core op =>
    some (if mget [] s.reqq d = [] then s.modDirEntry 4 line (fun e => { e with waiting := e.waiting ++ [.maint core op] })
      else { s with reqq := mmod [] s.reqq d (· ++ [(line, some (core, op))]) })
  | .uncached _ _ _ _ _ => some s
  | .read c =>
    if x.st ≠ .i then some (s.dieRead d line c)
    else if x.tr = .mi ∨ x.tr = .ei then none
    else if x.tr = .none then s.missL2 d line .is r
    else s.mergeMiss d line r
  | .own c =>
    if x.st = .m ∨ x.st = .e then some (s.takeOwnership d line c ((s.sharers d line).filter (fun y => decide (y.1 ≠ cacheKey c))))
    else if x.tr = .mi ∨ x.tr = .ei then none
    else if x.tr = .none then s.missL2 d line (if x.st = .i then .im else .sm) r
    else s.mergeMiss d line r
  | .upgrade c =>
    if x.st = .m ∨ x.st = .e then some (s.takeOwnership d line c ((s.sharers d line).filter (fun y => decide (y.1 ≠ cacheKey c))))
    else if x.tr = .mi ∨ x.tr = .ei then none
    else if x.tr = .none then s.missL2 d line (if x.st = .i then .im else .sm) r
    else s.mergeMiss d line r

/-! ## Requests at the module directory (13 R315, R318) -/

/-- The distance of two dies, HD counted as 4 (13 R318). -/
def dieDistance (a b : Nat) : Nat := if a < 4 ∧ b < 4 ∧ a + b = 3 then 2 else 1

/-- The holders of a line at the module directory, but for the requester. -/
def State.holders (s : State) (line n : Nat) : List (Nat × CacheLine) :=
  s.knownAt line (fun k => atModule k && decide (k ≠ n))

/-- The cache of a die that answers for it: an owner, else the holder of F, else any (13 R318). -/
def supplierOf (holders : List (Nat × CacheLine)) (die : Nat) : Option Nat :=
  let here := holders.filter (fun x => cacheDie x.1 = die)
  let find (p : Nat × CacheLine → Bool) : Option Nat := (here.find? p).map (·.1)
  match find (fun x => x.2.st = .m || x.2.st = .e || x.2.tr = .mi) with
  | some n => some n
  | none =>
    match find (fun x => decide (x.2.st = .f)) with
    | some n => some n
    | none =>
      match find (fun x => decide (x.1 = 420)) with
      | some n => some n
      | none => find (fun _ => true)

/-- The die that supplies a read: an owner die must, else the requester's own die, else the nearest sharing die, the F die among
equals, else the lowest number (13 R318). -/
def supplyingDie (holders : List (Nat × CacheLine)) (die : Nat) : Option Nat :=
  let dies := (countFrom 0 5).filter (fun d => holders.any (fun x => cacheDie x.1 = d))
  let has (p : CacheLine → Bool) (d : Nat) : Bool := holders.any (fun x => cacheDie x.1 = d && p x.2)
  let near := dies.filter (fun d => dieDistance die d = 1)
  let pick (l : List Nat) : Option Nat :=
    match l.find? (has (fun x => decide (x.st = .f))) with
    | some d => some d
    | none => l.head?
  match dies.find? (has (fun x => x.st = .m || x.st = .e)) with
  | some d => some d
  | none =>
    if dies.contains die then some die
    else match pick near with
      | some d => some d
      | none => pick dies

/-- The L3 supplies a read of another cache: data that memory has not seen are written to it, and the copy stays in S
(13 R318; log entry 20). -/
def State.supplyL3 (s : State) (line : Nat) : State :=
  ((if (s.line .l3 line).st = .m then s.cleanLine line else s).restate .l3 line .s).touch .l3 line

/-- Serve a read at the module directory (13 R318). -/
def State.moduleRead (s : State) (line : Nat) (c : CacheId) : State :=
  let n := cacheKey c
  let hs := s.holders line n
  match (supplyingDie hs (cacheDie n)).bind (supplierOf hs) with
  | some 420 => ((s.supplyL3 line).grant c line .f).openEntry 4 line .fill [c]
  | some k => ((s.touch .l3 line).sendDown k line (.read c)).openEntry 4 line .fwd [c]
  | none => (s.grant c line (s.readGrant line)).openEntry 4 line .fill [c]

/-- Whether memory supplies a request at the module directory: no other cache of the module holds the line, so the L3 takes a
miss register (13 R312, R318). -/
def State.fromMemory (s : State) (line : Nat) (r : DirReq) : Bool :=
  match r.cache with
  | some c => (s.holders line (cacheKey c)).isEmpty && decide ((s.line c line).st = .i)
  | none => false

/-- A request takes a miss register of the L3 where memory supplies it; none: there is no free one (13 R312; log entry 25). -/
def State.takeRegister (s : State) (line : Nat) (r : DirReq) : Option State :=
  if s.fromMemory line r then
    if missCapacity 420 ≤ s.missesOf 420 then none else some (s.modDirEntry 4 line (fun e => { e with missers := [r] }))
  else some s

/-- A read that waits merges into the miss register of a primary whose data have not arrived, and receives its data with it: a
primary read shares them, and a primary ownership request goes on behind the reads (13 R312). -/
def State.mergeModule (s : State) (line : Nat) : Option State :=
  let e := s.dirEntry 4 line
  match e.missers, e.waiting.find? (fun r => match r with
    | .read _ => true
    | _ => false) with
  | first :: _, some (.read c) =>
    if 9 ≤ e.missers.length ∨ e.awaited.any (fun a => (s.line a line).granted.isNone) then none
    else
      let rest := e.waiting.erase (.read c)
      if first.owns then
        let s1 := e.awaited.foldl (fun (s : State) a => s.modLine a line (fun x => { x with granted := none })) s
        some ((s1.grant c line (s.readGrant line)).openEntry 4 line .fill [c] |>.modDirEntry 4 line (fun e => { e with
          missers := [.read c], waiting := first :: rest }))
      else
        let s1 := e.awaited.foldl (fun (s : State) a => s.modLine a line (fun x => { x with granted := some .s })) s
        some ((s1.grant c line .f).openEntry 4 line .fill (e.awaited ++ [c]) |>.modDirEntry 4 line (fun x => { x with
          missers := e.missers ++ [.read c], waiting := rest }))
  | _, _ => none

/-- Put a writeback into the data array of the L3; while no way is free its entry stays open (13 R312, R317, R321). The class
is that of the cache that wrote it back (13 R310). -/
def State.intoL3 (s : State) (line : Nat) (nt : Bool) (cls : FillClass) : State :=
  let p := (s.dirtyLine line).poison
  if (s.line .l3 line).st ≠ .i then (s.restate .l3 line .m).modLine .l3 line (fun x => { x with poison := p })
  else match s.place 420 line cls with
    | (some w, s1) =>
      ((s1.modLine .l3 line (fun x => { x with st := .m, poison := p, way := w, granted := none })).used 420 line w (!nt)).modDirEntry 4 line
        (fun e => { e with way := none })
    | (none, s1) =>
      (s1.modLine .l3 line (fun x => { x with granted := some .m, nt := nt, cls := cls })).modDirEntry 4 line
        (fun e => { e with openFor := some .wb })

/-- The entry of a line in the directory-only array goes with its last copy (13 R315). -/
def State.tidy (s : State) (line : Nat) : State :=
  if (s.holders line 420).isEmpty then s.modDirEntry 4 line (fun e => if e.openFor.isNone then { e with way := none } else e) else s

/-- Open a maintenance operation at the module directory: every cache there that holds the line is told; the L3 acts at once
(13 R323, R325). -/
def State.startMaint (s : State) (line core : Nat) (op : Maint) : State :=
  let hs := s.holders line 420
  let s1 := s.modDirEntry 4 line (fun e => { e with openFor := some .maint, task := some (.maint op), owed := hs.length, maintOf := some core })
  hs.foldl (fun (s : State) x => s.sendDown x.1 line (.maint op)) s1

/-- Serve an ownership request at the module directory: after the cut or the copy of its granule, with an entry of its own, and
with a miss register where memory supplies. -/
def State.moduleOwn (s : State) (line : Nat) (r : DirReq) (c : CacheId) : Option State :=
  if s.grantWaits line then none
  else match s.dirWay line true with
  | (true, s1) => (s1.takeRegister line r).map (fun s =>
      s.takeOwnership 4 line c ((s.holders line (cacheKey c)).filter (fun y => decide (y.1 ≠ 420))))
  | (false, _) => none

/-- Serve an arrival at the module directory; none: it must wait. -/
def State.serveModule (s : State) (line : Nat) (r : DirReq) : Option State :=
  match r with
  | .writeback c =>
    let x := s.line c line
    let s1 := s.modLine c line (fun y => if y.tr = .mi ∨ y.tr = .ei then { y with tr := .none, nt := false } else y)
    if x.tr = .mi then
      some ((s1.intoL3 line x.nt (match c with
        | .l2 _ => 3
        | _ => 0)).tidy line)
    else some (s1.tidy line)
  | .notice c => some ((s.modLine c line (fun y => if y.tr = .ei then { y with tr := .none, nt := false } else y)).tidy line)
  | .forwarded _ => some s
  | .maint core op => some (s.startMaint line core op)
  | .uncached _ _ _ _ _ => some s
  | .read c =>
    match s.dirWay line false with
    | (true, s1) => (s1.takeRegister line r).map (fun s => s.moduleRead line c)
    | (false, _) => none
  | .own c => s.moduleOwn line r c
  | .upgrade c => s.moduleOwn line r c

/-- Serve an arrival at a directory. -/
def State.serveAt (s : State) (dir line : Nat) (r : DirReq) : Option State :=
  if dir < 4 then s.serveDie dir line r else s.serveModule line r

/-! ## What a step has made possible (13 R317, R321, R323) -/

/-- Close the entry of a line; at the module directory its miss register is free again. -/
def State.closeEntry (s : State) (dir line : Nat) : State :=
  s.modDirEntry dir line (fun e => { e with
    openFor := none, awaited := [], task := none, owed := 0, maintOf := none, missers := if dir < 4 then e.missers else [] })

/-- The effect of a maintenance operation on a line and all its copies (13 R325): what was dirty is written to memory, or
discarded by `INVAL`; a former owner or dirty holder keeps S. -/
def State.maintain (s : State) (op : Maint) (line : Nat) : State :=
  match op with
  | .clean => (s.cleanLine line).mapCopies line (fun _ => true) (fun x => if x.st = .m ∨ x.st = .e then { x with st := .s } else x)
  | .cleanInval => (s.cleanLine line).invalidate line (fun _ => false)
  | .inval => { s with dirty := merase line s.dirty }.invalidate line (fun _ => false)

/-- Every acknowledgement is in: a die answers the module directory, or its own victim leaves; a recall or a maintenance
operation of the module directory ends. -/
def State.finish (s : State) (dir line : Nat) : State :=
  let e := s.dirEntry dir line
  if dir < 4 then
    match e.task with
    | some m => (s.finishTask dir line m).closeEntry dir line
    | none => (s.leaveWay (352 + dir) line).closeEntry dir line
  else match e.task with
    | some (.maint op) =>
      let s1 := (s.maintain op line).closeEntry 4 line
      (match e.maintOf with
        | some k => { s1 with cores := mmod Core.reset s1.cores k (fun c => { c with maint := false }) }
        | none => s1).tidy line
    | _ => ((s.cleanLine line).closeEntry 4 line).tidy line

/-- An entry whose acknowledgements are all in and which no requester holds open. -/
def DirEntry.ready (e : DirEntry) : Bool :=
  decide (e.owed = 0) && e.awaited.isEmpty && (e.openFor = some .recall || e.task.isSome)

/-- The first waiting arrival that can be served. -/
def State.serveFirst (s : State) (dir line : Nat) (front : List DirReq) : List DirReq → Option State
  | [] => none
  | r :: rest =>
    match (s.modDirEntry dir line (fun e => { e with waiting := front ++ rest })).serveAt dir line r with
    | some s1 => some s1
    | none => s.serveFirst dir line (front ++ [r]) rest

/-- One thing that can happen to a line at a directory now: an end, or the start of what waits. -/
def State.pumpAt (s : State) (line dir : Nat) : Option State :=
  let e := s.dirEntry dir line
  if e.ready then some (s.finish dir line)
  else if e.openFor.isSome then (if dir < 4 then none else s.mergeModule line)
  else s.serveFirst dir line [] e.waiting

/-- Run what a step has made possible for a line at the directories, until nothing is left. -/
def State.pumpFor (line : Nat) : Nat → State → State
  | 0, s => s
  | fuel + 1, s =>
    match (countFrom 0 5).findSome? (s.pumpAt line) with
    | some s1 => State.pumpFor line fuel s1
    | none => s

/-- Run what has become possible for a line; where its directory-only way has become free, the lines of the set that wait for
one go on as well (13 R322). -/
def State.pump (s : State) (line : Nat) : State :=
  let s1 := State.pumpFor line 64 s
  if (s.dirEntry 4 line).way.isSome ∧ (s1.dirEntry 4 line).way = none then
    ((s1.module.filter (fun (x : Nat × DirEntry) =>
      decide (x.2.waiting ≠ []) && decide (x.1 ≠ line) && decide (setOf dirArray x.1 = setOf dirArray line))).map (·.1)).foldl
      (fun (s : State) l => State.pumpFor l 64 s) s1
  else s1

/-- A request reaches a directory (13 R321): it joins the order of its line. One that waits for a copy-before-write asks for it
(16 R388); one that waits for a directory-only way has a victim recalled (13 R322). -/
def State.request (s : State) (dir line : Nat) (r : DirReq) : State :=
  let s0 := if dir = 4 ∧ r.owns ∧ s.uncopiedLine line then s.demandCopy line else s
  let s1 := (s0.modDirEntry dir line (fun e => { e with waiting := e.waiting ++ [r] })).pump line
  if dir = 4 ∧ !s1.isOpen 4 line ∧ r.asks ∧ (s1.dirEntry 4 line).waiting.contains r ∧ !(r.owns && s1.grantWaits line) then
    (s1.dirWay line r.owns).2
  else s1

/-- The request for a line that waits at the module directory for a directory-only way (13 R315, R322). -/
def State.lacksWay (s : State) (line : Nat) : Option DirReq :=
  let e := s.dirEntry 4 line
  if e.openFor.isSome ∨ e.way.isSome then none
  else e.waiting.find? (fun r => r.asks && !(r.owns && s.grantWaits line) && (r.owns || decide ((s.line .l3 line).st = .i)))

/-- Such a request looks for a way again: a victim that no transaction excludes any more is recalled; none while a recall of the
set is under way, or every candidate is excluded (13 R322). -/
def State.seekWay (s : State) (line : Nat) : Option State :=
  let occ := s.occupants dirArray line
  match s.lacksWay line with
  | some r =>
    if occ.any (fun o => decide ((s.dirEntry 4 o.2).openFor = some .recall)) ∨ !occ.any (fun o => s.evictable dirArray o.2) then none
    else some ((s.dirWay line r.owns).2.pump line)
  | none => none

/-- The arrivals of one cycle in the order in which a directory takes them: writebacks and notices first, then requests in
round-robin order from the slot after the one last granted (13 R321). -/
def State.ordered (s : State) (dir : Nat) (batch : List DirReq) : List DirReq :=
  let slots := if dir < 4 then 34 else 5
  let last := if dir < 4 then mget 33 s.dieGrant dir else s.moduleGrant
  let rank (r : DirReq) : Nat := (r.slot + slots - 1 - last % slots) % slots
  let rest := batch.filter (fun r => match r with
    | .writeback _ => false
    | .notice _ => false
    | _ => true)
  batch.filter (fun r => !rest.contains r) ++ (countFrom 0 slots).flatMap (fun k => rest.filter (fun r => decide (rank r = k)))

/-- The second of two ownership requests that arrive with a writeback is forwarded to the first requester at once
(13 R321). -/
def State.forwardSecond (s : State) (dir line : Nat) (batch : List DirReq) : State :=
  let e := s.dirEntry dir line
  let wb := batch.any (fun r => match r with
    | .writeback _ => true
    | _ => false)
  match e.openFor, e.awaited, e.waiting with
  | some .own, [first], .own second :: rest =>
    if wb ∧ batch.contains (.own first) ∧ batch.contains (.own second) then
      let s1 := (s.noteGrant second).modDirEntry dir line (fun e => { e with waiting := rest, awaited := [second] })
      if dir < 4 then s1.sendSnoop first line (.own second) else s1.sendDown (cacheKey first) line (.own second)
    else s
  | _, _, _ => s

/-- The cycle of the messages that arrived together ends without another: those of the caches join the order of their line, and an
uncached request keeps its turn (13 R321). -/
def State.closeCycle (s : State) (dir line : Nat) : State :=
  let (kept, all) := (s.dirEntry dir line).batch.partition DirReq.isUncached
  ((s.ordered dir all).foldl (fun (s : State) r => s.request dir line r)
    (s.modDirEntry dir line (fun e => { e with batch := kept }))).forwardSecond dir line all

/-- A directory at which a cycle of a line is open for a message of a cache. -/
def State.openCycle (s : State) (line : Nat) : Option Nat :=
  (countFrom 0 5).find? (fun d => (s.dirEntry d line).batch.any (fun r => !r.isUncached))

/-- Whether a directory has a request of a cache for a line, or has answered it. -/
def State.recorded (s : State) (cache : CacheId) (line : Nat) : Bool :=
  let e := s.dirEntry (dirOf (cacheKey cache)) line
  let mine (r : DirReq) : Bool := r.asks && r.cache == some cache
  e.awaited.contains cache || e.batch.any mine || e.waiting.any mine || e.missers.any mine

/-! ## Fills and their acknowledgements (13 R311, R312, R317, R320) -/

/-- The request that a transient state stands for. -/
def requestOf (cache : CacheId) : Transient → Option DirReq
  | .is => some (.read cache)
  | .im => some (.own cache)
  | .sm => some (.upgrade cache)
  | _ => none

/-- The holders of F at a directory other than a new one there move to S (13 R318); a Hazia L1 is at none. -/
def State.demoteF (s : State) (dir line : Nat) (c : CacheId) : State :=
  ((s.copies line).filter (fun x => decide (x.2.st = .f) && decide (dirOf x.1 = dir) && decide (x.1 ≠ cacheKey c)
      && (atModule x.1 || dir < 4) && (atModule (cacheKey c) || dir < 4))).foldl (fun (s : State) x => s.restate (cacheOf x.1) line .s) s

/-- Install the answer of a request in a cache: a way for a fill, the granted state, the poison bit of the data, the hold
window; the previous holder of F moves to S (R318). A fill for which no way is free stays in its miss register (13 R313, R320, R322). -/
def State.install (s : State) (cache : CacheId) (line : Nat) : State :=
  let n := cacheKey cache
  let x := s.line cache line
  match x.granted with
  | some st =>
    if x.awaits ≠ 0 then s
    else
      let put (s : State) (w : Nat) : State :=
        ((if st = .f then s.demoteF (dirOf n) line cache else s).modLine cache line (fun y =>
          { y with st := st, poison := s.linePoison line, way := w, tr := .none, granted := none, hold := holdsLines n })).used n line w (!x.nt)
      if x.st ≠ .i then put s x.way
      else match s.place n line x.cls with
        | (some w, s1) => put s1 w
        | (none, s1) => s1
  | none => s

/-- The requests of a miss register are served once its line is there: the merged reads receive their data at once, the last of
them with F; a lone read as any read, and ownership requests in their order (13 R312, R318). -/
def State.serveMissers (s : State) (d line : Nat) : State :=
  let e := s.dirEntry d line
  let readers := e.missers.filterMap (fun r => match r with
    | .read c => some c
    | _ => none)
  let owners := e.missers.filter DirReq.owns
  let s1 := s.modDirEntry d line (fun x => { x with missers := [] })
  if readers.isEmpty ∨ (readers.length < 2 ∧ owners.isEmpty) then
    s1.modDirEntry d line (fun x => { x with waiting := e.missers ++ x.waiting })
  else
    let last := (readers.filter (fun c => !isL1i (cacheKey c))).getLast?
    let s2 := readers.foldl (fun (s : State) c => s.grant c line (if last = some c then .f else .s)) s1
    (s2.openEntry d line .fill readers).modDirEntry d line (fun x => { x with waiting := owners ++ x.waiting })

/-- A writeback into the L3 whose ways were all excluded looks for a way again; its entry closes with it (13 R317, R322). -/
def State.retryL3 (s : State) (line : Nat) : State :=
  let x := s.line .l3 line
  if x.granted.isSome then
    let s1 := s.intoL3 line x.nt x.cls
    if (s1.line .l3 line).granted.isNone then (s1.closeEntry 4 line).pump line else s1
  else s

/-- A requester that has its line acknowledges it: the entry closes when the last has, and what waits goes on. -/
def State.fillAck (s : State) (cache : CacheId) (line : Nat) : State :=
  let s1 := s.install cache line
  let x := s1.line cache line
  let dir := dirOf (cacheKey cache)
  let e := s1.dirEntry dir line
  if cache = .l3 then s.retryL3 line
  else if x.granted.isSome ∨ (x.st = .i ∧ (requestOf cache x.tr).isSome) then s1
  else
    let left := e.awaited.filter (fun c => decide (c ≠ cache))
    let s2 :=
      if !e.awaited.contains cache then s1
      else if left.isEmpty then s1.closeEntry dir line else s1.modDirEntry dir line (fun e => { e with awaited := left })
    let s3 := match cache with
      | .l2 d => s2.serveMissers d.val line
      | _ => s2
    s3.pump line

/-! ## Requests of the caches -/

/-- Mark the transient state of a cache that asks for a line, if it has none yet and a miss register is free
(13 R308, R317). -/
def State.asks (s : State) (cache : CacheId) (line : Nat) (own nt : Bool) : State :=
  let n := cacheKey cache
  let x := s.line cache line
  if x.tr ≠ .none ∨ missCapacity n ≤ s.missesOf n then s
  else s.setLine cache line { x with nt := nt, tr := if own then (if x.st = .i then .im else .sm) else .is }

/-- A request of an L1 of a Hazia core at the L2 that includes it: answered from the L2, or a miss of the L2 (13 R309). -/
def State.haziaAsk (s : State) (k : Fin 64) (cache : CacheId) (line : Nat) (own : Bool) : State :=
  let up := s.line (.haziaL2 k) line
  let enough := if own then up.st = .m ∨ up.st = .e else up.st ≠ .i
  if enough ∧ up.tr = .none then s.grant cache line up.st else s.asks (.haziaL2 k) line own (s.line cache line).nt

/-- The maintenance operations at the head of the requests of a die's L2 reach the module directory (01 R20, 13 R326). -/
def State.deliverMaint (d : Nat) : List (Nat × Option (Nat × Maint)) → State → State
  | (line, some (core, op)) :: rest, s =>
    State.deliverMaint d rest (({ s with reqq := mset [] s.reqq d rest }).request 4 line (.maint core op))
  | _, s => s

/-- Take the oldest request of a die's L2, for a line, off the link; none: another goes before it (01 R20). -/
def State.takeUp (s : State) (d line : Nat) : Option State :=
  match mget [] s.reqq d with
  | (l, none) :: rest => if l = line then some { s with reqq := mset [] s.reqq d rest } else none
  | _ => none

/-- The request of a cache for a line reaches its directory. The requests of a CD's L2 arrive in the order sent (01 R20). -/
def State.requestFrom (s : State) (cache : CacheId) (line : Nat) (r : DirReq) : State :=
  match cache with
  | .l1i (.hazia k) => s.haziaAsk k cache line false
  | .l1d (.hazia k) => s.haziaAsk k cache line r.owns
  | .l2 d =>
    match s.takeUp d.val line with
    | some s1 => let s2 := s1.request 4 line r
                 State.deliverMaint d.val (mget [] s2.reqq d.val) s2
    | none => s
  | _ => s.request (dirOf (cacheKey cache)) line r

/-- The oldest message of the module directory to a die leaves the link (01 R20). -/
def State.takeDown (s : State) (d : Nat) : Option ((Nat × Snoop) × State) :=
  match mget [] s.snoopq d with
  | x :: rest => some (x, { s with snoopq := mset [] s.snoopq d rest })
  | [] => none

/-- The oldest message of the module directory to a die arrives there and joins the order of its line. -/
def State.deliverDown (s : State) (d : Nat) : State :=
  match s.takeDown d with
  | some ((line, m), s1) => s1.request d line (.forwarded m)
  | none => s

/-- The oldest request of a die's L2 arrives at the module directory, with the maintenance operations behind it. -/
def State.deliverUp (s : State) (d : Nat) : State :=
  match mget [] s.reqq d with
  | (line, none) :: rest =>
    let s1 := { s with reqq := mset [] s.reqq d rest }
    let s2 := match requestOf (dieL2 d) (s.line (dieL2 d) line).tr with
      | some r => s1.request 4 line r
      | none => s1
    State.deliverMaint d (mget [] s2.reqq d) s2
  | q => State.deliverMaint d q s

/-! ## Time passes until the transactions of a line are done (log entry 26) -/

/-- A hold window of a cache ends: the messages that wait for it there are served in order (13 R320). -/
def State.endHold (s : State) (cache : CacheId) (line : Nat) : State :=
  let s1 := s.modLine cache line (fun y => { y with hold := false })
  ((s.line cache line).snoops.foldl (fun (s : State) _ => s.takeSnoop cache line) s1).pump line

/-- The next message or answer of a line that is under way: one delivery. With `windows`, hold windows that it waits for come
to their end, and fills are acknowledged. -/
def State.stirLine (s : State) (line : Nat) (windows : Bool) : Option State :=
  let mine := (s.lines.filter (fun x => decide (x.1 % 2 ^ 48 = line))).map (fun x => (x.1 / 2 ^ 48, x.2))
  let msg := mine.find? (fun x => decide (x.2.snoops ≠ []) && ((windows && !s.pinned line) || !x.2.hold) && decide (x.2.tr ≠ .is) && decide (x.2.tr ≠ .im))
  let fill := if windows then mine.find? (fun x => x.2.granted.isSome && decide (x.2.awaits = 0)) else none
  let shown := if windows then ((countFrom 0 5).flatMap (fun d => (s.dirEntry d line).awaited)).find? (fun c =>
      let x := s.line c line
      x.granted.isNone && !(decide (x.st = .i) && (requestOf c x.tr).isSome)) else none
  let leaving := if windows then mine.find? (fun x => x.2.tr = .mi || x.2.tr = .ei) else none
  match (countFrom 0 4).find? (fun d => (mget [] s.snoopq d).any (fun x => decide (x.1 = line))) with
  | some d => some (s.deliverDown d)
  | none =>
    match msg with
    | some x => some (((s.modLine (cacheOf x.1) line (fun y => { y with hold := false })).takeSnoop (cacheOf x.1) line).pump line)
    | none =>
      match fill with
      | some x => some (s.fillAck (cacheOf x.1) line)
      | none =>
        match shown with
        | some c => some (s.fillAck c line)
        | none =>
          match (if windows then (countFrom 0 4).find? (fun d => (mget [] s.reqq d).any (fun q => decide (q.1 = line))) else none) with
          | some d => some (s.deliverUp d)
          | none =>
            match leaving with
            | some x => some (s.request (dirOf x.1) line (if x.2.tr = .mi then .writeback (cacheOf x.1) else .notice (cacheOf x.1)))
            | none => none

/-- One thing that is under way for the lines that occupy a set: a hold window ends, or a delivery. -/
def State.stirSet (s : State) (n line : Nat) : Option State :=
  (s.occupants n line).findSome? (fun o =>
    match (if s.pinned o.2 then none else (s.copies o.2).find? (fun y => y.2.hold)) with
    | some y => some (s.endHold (cacheOf y.1) o.2)
    | none => s.stirLine o.2 true)

/-- The next thing that happens for a line. While a fill or a request at the module directory finds no way, the hold windows and
transactions of the lines that occupy its set go on (13 R322). -/
def State.stir (s : State) (line : Nat) (windows : Bool) : Option State :=
  match s.stirLine line windows with
  | none =>
    if windows then
      match s.openCycle line with
      | some d => some (s.closeCycle d line)
      | none => if (s.lacksWay line).isSome then (s.stirSet dirArray line).orElse (fun _ => s.seekWay line) else none
    else none
  | some s1 =>
    match (if windows then s.lines.find? (fun x => decide (x.1 % 2 ^ 48 = line) && x.2.granted.isSome && decide (x.2.awaits = 0)
        && (s1.line (cacheOf (x.1 / 2 ^ 48)) line).granted.isSome) else none) with
    | none => some s1
    | some x =>
      match s1.stirSet (x.1 / 2 ^ 48) line with
      | some s2 => some s2
      | none => some s1

/-- Deliver what is under way for a line until nothing is. -/
def State.settleFor (line : Nat) (windows : Bool) : Nat → State → State
  | 0, s => s
  | fuel + 1, s =>
    match s.stir line windows with
    | some s1 => State.settleFor line windows fuel s1
    | none => s

def State.settleLine (s : State) (line : Nat) (windows : Bool) : State := State.settleFor line windows 256 s

/-- Nothing is under way for a line: no open entry, no hold window, no message, no request. -/
def State.quiet (s : State) (line : Nat) : Bool :=
  (countFrom 0 5).all (fun d => let e := s.dirEntry d line
    e.openFor.isNone && e.missers.isEmpty && e.waiting.isEmpty && e.batch.isEmpty)
  && s.lines.all (fun x => decide (x.1 % 2 ^ 48 ≠ line)
      || (!x.2.hold && x.2.snoops.isEmpty && x.2.granted.isNone && decide (x.2.tr = .none)))
  && s.snoopq.all (fun q => q.2.all (fun m => decide (m.1 ≠ line)))

/-- The state in which a write or a maintenance operation can act on a line: everything that was under way for it is done. -/
def State.settled (s : State) (line : Nat) : State := if s.quiet line then s else s.settleLine line true

/-- The requests for a line that waited for the cut or for its granule go on; an ownership request of an uncopied granule asks
for its copy (16 R387, R388). -/
def State.resumeLine (s : State) (line : Nat) : State :=
  (if (s.dirEntry 4 line).waiting.any DirReq.owns ∧ s.uncopiedLine line then s.demandCopy line else s).pump line

/-- The lines for which requests wait at some directory. -/
def State.waitingLines (s : State) : List Nat :=
  ((s.dies.filter (fun (x : Nat × DirEntry) => x.2.waiting ≠ [])).map (fun (x : Nat × DirEntry) => x.1 % 2 ^ 48)
    ++ (s.module.filter (fun (x : Nat × DirEntry) => x.2.waiting ≠ [])).map (fun (x : Nat × DirEntry) => x.1)).eraseDups

end Sys2Proof.Machine
end

