-- ==== Sys2Proof/Machine/FabricSend.lean ====
section
/-! DEFINITION. The sending side of the fabric ports: the bytes of a flit, credits and the replay buffer, routing (15 R357 to
R360, R363, R364). -/

namespace Sys2Proof.Machine

/-! ## Configuration (02 R45) -/

/-- The section 03h that names the roles of the ports: the selected image's until it is activated, since the ports train in step 3 of
start-up (18 R427), then the one in force. -/
def State.portSec (s : State) : List Byte := if s.image.selected.isSome then s.image.trains else s.sec 3

/-- The entry of a port, with its `ROLE`, `PEERPORT` and `PEERID`. -/
def portEntry (sec : List Byte) (p : Fin 12) : Nat := leNat ((sec.drop (8 * p.val)).take 8)
def State.portRole (s : State) (p : Fin 12) : Nat := bits (portEntry s.portSec p) 0 4
def State.portPeerPort (s : State) (p : Fin 12) : Nat := bits (portEntry s.portSec p) 4 4
def State.portPeerId (s : State) (p : Fin 12) : Nat := bits (portEntry s.portSec p) 8 20

/-- A route: destination prefix, prefix length, ports. -/
structure Route where
  dest : Nat
  plen : Nat
  ports : Nat
deriving DecidableEq, Repr

/-- The route entries of section 03h. -/
def State.imageRoutes (s : State) : List Route :=
  (countFrom 0 (s.secNat 3 96 8 % 512)).map (fun i =>
    let w := s.secNat 3 (104 + 8 * i) 8
    { dest := bits w 0 20, plen := bits w 20 5, ports := bits w 32 12 })

/-- The valid recovery routes (16 R407). -/
def State.overlayRoutes (s : State) : List Route :=
  ((s.snap.rovl.map (·.2)).filter (·.valid)).map (fun r => { dest := r.dest.toNat, plen := r.plen.toNat, ports := r.ports.toNat })

/-- Whether the top `PLEN` bits of a route equal those of a destination (15 R363). -/
def Route.covers (r : Route) (dst : Nat) : Bool := decide (dst / 2 ^ (20 - r.plen) = r.dest / 2 ^ (20 - r.plen))

/-- The entry with the longest prefix among those that match. -/
def longest (rs : List Route) (dst : Nat) : Option Route :=
  rs.foldl (fun b r => if r.covers dst then (match b with
    | some x => if x.plen < r.plen then some r else b
    | none => some r) else b) none

/-- The route of a destination: recovery routes take precedence (15 R363, 16 R403). -/
def State.routeOf (s : State) (dst : Nat) : Option Route :=
  match longest s.overlayRoutes dst with
  | some r => some r
  | none => longest s.imageRoutes dst

/-- The port of a flit on its route: only ports of role 1h and 2h take part in routing (15 R362, R364; 16 R407). -/
def State.portOn (s : State) (f : Flit) (r : Route) : Option (Fin 12) :=
  let ps := (countFrom 0 12).filter (fun p => bit r.ports p && decide (s.portRole (Fin.ofNat 12 p) = 1 ∨ s.portRole (Fin.ofNat 12 p) = 2))
  (ps[(f.src ^^^ f.collId ^^^ f.rank) % ps.length]?).map (Fin.ofNat 12)

/-! ## The bytes of a flit (15 R359) -/

/-- Bytes 0 to 27 of a flit's header. -/
def Flit.header (f : Flit) : List Byte :=
  leBytes 8 (f.ftype % 16 + 2 ^ 4 * (f.vc % 4) + 2 ^ 6 * b2n f.last + 2 ^ 8 * (f.fseq % 256) + 2 ^ 16 * (f.ackSeq % 256)
    + 2 ^ 24 * (f.credits % 64) + 2 ^ 30 * (f.crvc % 4) + 2 ^ 32 * (f.dst % 2 ^ 20) + 2 ^ 52 * (f.dcd % 4) + 2 ^ 54 * (f.hops % 64))
  ++ leBytes 8 (f.src % 2 ^ 20 + 2 ^ 20 * (f.ctx % 64) + 2 ^ 32 * (f.collId % 2 ^ 16) + 2 ^ 48 * (f.rank % 2 ^ 16))
  ++ leBytes 8 (f.offset % 2 ^ 40 + 2 ^ 40 * min f.payload.length 224) ++ List.replicate 4 0

/-- The 256 bytes of a flit: header, `FCRC`, payload. -/
def Flit.bytes (f : Flit) : List Byte :=
  let body := fitTo 0 224 f.payload
  f.header ++ leBytes 4 (crc32c (f.header ++ body)) ++ body

/-- Whether 256 received bytes pass `FCRC`. -/
def flitGood (b : List Byte) : Bool := decide (leNat ((b.drop 28).take 4) = crc32c (b.take 28 ++ b.drop 32))

/-- The flit that 256 bytes hold. -/
def Flit.ofBytes (b : List Byte) : Flit :=
  let w0 := leNat (b.take 8)
  let w1 := leNat ((b.drop 8).take 8)
  let w2 := leNat ((b.drop 16).take 8)
  { ftype := bits w0 0 4, vc := bits w0 4 2, last := bit w0 6, fseq := bits w0 8 8, ackSeq := bits w0 16 8, credits := bits w0 24 6
    crvc := bits w0 30 2, dst := bits w0 32 20, dcd := bits w0 52 2, hops := bits w0 54 6, src := bits w1 0 20, ctx := bits w1 20 6
    collId := bits w1 32 16, rank := bits w1 48 16, offset := bits w2 0 40
    reserved := bits w0 7 1 + bits w0 60 4 + bits w1 26 6 + bits w2 48 16 + leNat ((b.drop 24).take 4)
    payload := (b.drop 32).take (bits w2 40 8), inPort := none }

/-! ## Sending (15 R360) -/

/-- A port carries flits: up, or looped back to itself. -/
def Port.carries (p : Port) : Bool := decide (p.st = .up) || decide (p.st = .loopback)

/-- An empty flit. -/
def nullFlit : Flit :=
  { ftype := 0, vc := 2, last := false, fseq := 0, ackSeq := 0, credits := 0, crvc := 0, dst := 0, dcd := 0, hops := 0, src := 0,
    ctx := 0, collId := 0, rank := 0, offset := 0, reserved := 0, payload := [], inPort := none }

/-- The last `FSEQ` received good in order. -/
def Port.acked (p : Port) : Nat := (p.rxSeq - 1).toNat

/-- Transmit a flit with the acknowledgement of the moment; a looped port transmits to its own receiver (15 R362). -/
def State.transmit (s : State) (p : Fin 12) (f : Flit) : State :=
  let x := s.port p
  let b := { f with ackSeq := x.acked }.bytes
  if x.st = .loopback then s.setPort p { x with loop := x.loop ++ [b] } else s.emit (.flit p.val b)

/-- A NULL flit, which carries the acknowledgement of the moment and `n` returned credits of a channel (15 R358, R360). Its `FSEQ`, which it
does not advance, is that of the next sequenced flit (DEDUCED, log entry 62). -/
def State.sendNull (s : State) (p : Fin 12) (n vc : Nat) : State :=
  let x := s.port p
  if x.carries ∧ !s.power.lost156 then s.transmit p { nullFlit with fseq := x.txSeq.toNat, credits := n, crvc := vc } else s

/-- Return a credit of a channel. -/
def State.returnCredit (s : State) (p : Fin 12) (vc : Nat) : State := s.sendNull p 1 vc

/-- A flit leaves the module or is dropped: one in transit leaves its buffer (15 R360). -/
def State.leaveBuffer (s : State) (f : Flit) : State :=
  match f.inPort with
  | some q => s.returnCredit q f.vc
  | none => s

/-- The waiting flit that goes next: in order within each channel, of those whose channel holds a credit, channels 0 and 1 by turns
while both have flits waiting (16 R396). -/
def Port.pick (x : Port) : Option Flit :=
  let ready := x.waitq.filter (fun f => decide (0 < mget 0 x.credits f.vc))
  match ready.find? (fun f => decide (f.vc = b2n x.turn)) with
  | some f => if (ready.head?.map (·.vc)) = some 2 then ready.head? else some f
  | none => ready.head?

/-- Send the waiting flits that have a credit and a place in the replay buffer. A fail-stopped module sends none (18 R437). -/
def State.pumpPort (s : State) (p : Fin 12) : Nat → State
  | 0 => s
  | fuel + 1 =>
    let x := s.port p
    if !x.carries ∨ 255 ≤ x.replay.length ∨ s.power.failStop.isSome then s
    else match x.pick with
    | none => s
    | some f =>
      let g := { f with fseq := x.txSeq.toNat, inPort := none }
      let s1 := s.setPort p { x with
        waitq := x.waitq.erase f, replay := x.replay ++ [g], txSeq := x.txSeq + 1, credits := mmod 0 x.credits f.vc (· - 1)
        turn := if f.vc < 2 then decide (f.vc = 0) else x.turn }
      ((s1.transmit p g).leaveBuffer f).pumpPort p fuel

/-- Queue a flit at a port and send what can be sent. -/
def State.sendFlit (s : State) (p : Fin 12) (f : Flit) : State :=
  let x := s.port p
  (s.setPort p { x with waitq := x.waitq ++ [f] }).pumpPort p (x.waitq.length + 1)

/-- The record of a port (15 R361, R362; 18 R432). -/
def portRec (p : Fin 12) (detail : Nat) : McRec := mkRec (p.val / 3 + 1) (0xA000 + p.val) 0x13 1 0 detail

/-- Send or forward a flit by its route (15 R363, R364): `from'` is the port it arrived on, whose counters a drop takes;
a flit of the module's own has none, and is counted at the first port of its compute die. The class that the record of a
drop carries is not given: a free value (log entry 40). -/
def State.routeFlit (s : State) (from' : Fin 12) (f : Flit) : State :=
  match (s.routeOf f.dst).bind (s.portOn f) with
  | none =>
    let x := s.port from'
    let free := Config.freeWord s.fresh
    ((s.bump.setPort from' { x with noRoute := satAdd x.noRoute 1 }).leaveBuffer f).report
      { portRec from' 0 with cls := free.extractLsb' 0 8, detail := free.extractLsb' 8 8 }
  | some p => s.sendFlit p f

/-- Forward a flit of another module, which takes up the buffer it came into until it has left (15 R360, R364). -/
def State.forwardFlit (s : State) (from' : Fin 12) (f : Flit) : State :=
  if 63 ≤ f.hops then
    let x := s.port from'
    (s.setPort from' { x with hopLimit := satAdd x.hopLimit 1 }).returnCredit from' f.vc
  else s.routeFlit from' { f with hops := f.hops + 1, inPort := some from' }

/-- Send a flit of the module's own from a compute die, or deliver it locally to CD `DCD` (15 R363). -/
def State.originate (s : State) (d : Fin 4) (f : Flit) : State :=
  if f.dst = s.moduleId then
    { s with cre := mmod CreState.reset s.cre f.dcd (fun c => { c with localq := c.localq ++ [f] }) }
  else s.routeFlit (Fin.ofNat 12 (3 * d.val)) f

end Sys2Proof.Machine
end

