-- ==== Sys2Proof/Machine/CopyFirst.lean ====
section
/-! DEFINITION. What an uncached write meets: the way that it takes in the cache that serves it, and copy-before-write with
the manifest and the stream of the epoch (13 R319, R322; 16 R385, R387 to R389, R392, R396). -/

namespace Sys2Proof.Machine

/-! ## A way for a write (13 R309, R311, R315, R322) -/

/-- Time passes until nothing is under way for the lines of a set (log entry 26). -/
def State.settleSet (s : State) (n line : Nat) : State := (s.occupants n line).foldl (fun (s : State) o => s.settled o.2) s

/-- The least recently used line of a set is taken from every cache, its data to memory: the end of a search whose candidates never
become free (log entry 26). -/
def State.forceOut (s : State) (n line : Nat) (ok : Nat → Bool) : Nat × State :=
  let occ := s.occupants n line
  let free (w : Nat) : Bool := ok w && occ.any (fun o => decide (o.1 = w) && !s.pinned o.2)
  let w := ((plruVictim free (mget 0 s.plru (setKey n line)) (plruLevels n) 1 0).orElse
    (fun _ => plruVictim ok (mget 0 s.plru (setKey n line)) (plruLevels n) 1 0)).getD 0
  match occ.find? (fun o => decide (o.1 = w)) with
  | some o => (w, ((s.cleanLine o.2).invalidate o.2 (fun _ => false)).modDirEntry 4 o.2 (fun e => { e with way := none }))
  | none => (w, s)

/-- A way for a write: one that is free or becomes free as time passes (13 R311, R322). -/
def State.roomFor (n line : Nat) (cls : FillClass) : Nat → State → Nat × State
  | 0, s => s.forceOut n line (s.mask n cls)
  | fuel + 1, s =>
    match s.place n line cls with
    | (some w, s1) => (w, s1)
    | (none, s1) => State.roomFor n line cls fuel (s1.settleSet n line)

/-- An entry of the module directory for a line that an L2 takes in M (13 R309, R315). -/
def State.entryFor (line : Nat) : Nat → State → State
  | 0, s =>
    let (w, s1) := s.forceOut dirArray line (fun _ => true)
    s1.modDirEntry 4 line (fun e => { e with way := some w })
  | fuel + 1, s =>
    match s.dirWay line true with
    | (true, s1) => s1
    | (false, s1) => State.entryFor line fuel (s1.settleSet dirArray line)

/-- The cache that serves the uncached requests of a die (13 R308). -/
def servingCache : EtuId → CacheId
  | .cd d => .l2 d
  | .hd => .l3

/-- A line that has been written stands in M in the serving cache, in the way that it has there or in one of the writer's class
(13 R310, R319, R322). -/
def State.standM (s : State) (c : CacheId) (cls : FillClass) (line : Nat) (poison : Bool) : State :=
  let n := cacheKey c
  if (s.line c line).st ≠ .i then (s.modLine c line (fun x => { x with st := .m, poison := poison })).touch c line
  else
    let (w, s1) := State.roomFor n line cls 4 s
    (s1.modLine c line (fun x => { x with st := .m, poison := poison, way := w })).used n line w true

/-- An uncached write within one line, once nothing is under way for the line: every other copy is invalidated, the serving
cache holds the line in M, and the module directory has an entry of it (13 R309, R319, R324). -/
def State.writeLine (s : State) (at' : EtuId) (cls : FillClass) (line off : Nat) (data : List Byte) : State :=
  let c := servingCache at'
  let n := cacheKey c
  let s1 := (s.settled line).mergeDirty line off data
  let s2 := (s1.invalidate line (fun k => k = n)).standM c cls line (s1.dirtyLine line).poison
  if n = 420 then s2.modDirEntry 4 line (fun e => { e with way := none }) else State.entryFor line 4 s2

/-! ## Places (16 R385, R392) -/

/-- A manifest of the own ring, and of the ward ring. -/
def manifestAt (n : Nat) : Nat := 0x27F80000000 + n % 32 * 0x800000
def wardManifestAt (n : Nat) : Nat := 0x27F90000000 + n % 32 * 0x800000

/-- The size of a manifest. -/
def manifestSize : Nat := 0x800000

/-- The address of an offset in the home slot: the inverse of `homeOffset`. -/
def homeAddress (off : Nat) : List (Nat × Nat) → Option Nat
  | [] => none
  | (b, n) :: rest => if off < n then some (b + off) else homeAddress (off - n) rest

/-- Change the snapshot machinery. -/
def State.modSnap (s : State) (f : Snap → Snap) : State := { s with snap := f s.snap }

/-- Set a bit of a manifest's `FLAGS` (16 R392). The manifests lie outside every snapshot set (16 R384). -/
def State.flagManifest (s : State) (at' i : Nat) : State :=
  s.writeLine .hd 4 (lineOf at') 28 (leBytes 4 (s.readNat (at' + 28) 4 ||| 2 ^ i))

/-- The Bridle fields of section 04h. -/
def State.bridleWord (s : State) : Nat := s.secNat 4 8 8

/-! ## The Bridle stream out (16 R396) -/

/-- The ports of `BRIDLEPORTS` (02 R52). -/
def State.bridlePorts (s : State) : List (Fin 12) :=
  ((countFrom 0 12).filter (fun p => bit (bits (s.secNat 10 8 8) 16 12) p)).map (Fin.ofNat 12)

/-- `BRIDLEID` (02 R46). -/
def State.bridleId (s : State) : Nat := bits s.bridleWord 32 20

/-- Send a BRIDLE flit on the port at an index of `BRIDLEPORTS`; a module that names none, as a spare does, sends it by its route
(15 R363, 16 R403). -/
def State.sendBridle (s : State) (dst kind epoch index rank off : Nat) (last : Bool) (payload : List Byte) : State :=
  let ps := s.bridlePorts
  let f : Flit := { nullFlit with
    ftype := 2, vc := 1, last := last, dst := dst, src := s.moduleId, ctx := kind, collId := epoch % 65536, rank := rank % 65536
    offset := off, payload := payload }
  match ps[index % ps.length]? with
  | none => s.routeFlit 0 f
  | some p => s.sendFlit p f

/-- Cut bytes into payloads of 224 bytes. -/
def payloads : Nat → Nat → List Byte → List (Nat × List Byte)
  | 0, _, _ => []
  | fuel + 1, off, b => if b.isEmpty then [] else (off, b.take 224) :: payloads fuel (off + 224) (b.drop 224)

/-- Stream a granule of a slot: 292 flits of 224 bytes and one of 128. -/
def State.sendGranule (s : State) (dst epoch base off : Nat) : State :=
  let g := off / 65536
  (payloads 293 off (memReads s.mem (base + off) 65536)).foldl (fun (s : State) x => s.sendBridle dst 0 epoch g g x.1 false x.2) s

/-- The position record of a manifest of the own ring, as it stood at the arrival at its cut (16 R394); none: as memory holds it. -/
def State.positionOf (s : State) (at' : Nat) : Option (List Byte) :=
  if manifestAt 0 ≤ at' ∧ at' < wardManifestAt 0 then mget none s.snap.positions ((at' - manifestAt 0) / manifestSize) else none

/-- The bytes of a manifest: writes to the position record after the arrival are not part of its epoch (16 R394). -/
def State.manifestBytes (s : State) (at' : Nat) : List Byte :=
  let b := s.readMem at' manifestSize
  match s.positionOf at' with
  | some r => splice (splice b 24 (leBytes 4 r.length)) 0x100000 r
  | none => b

/-- Stream a manifest and the end of the stream, which carries the bytes sent. -/
def State.sendManifest (s : State) (dst epoch at' bytes : Nat) : State :=
  let s1 := (payloads 37500 0 (s.manifestBytes at')).foldl (fun (s : State) x => s.sendBridle dst 1 epoch 0 0 x.1 false x.2) s
  s1.sendBridle dst 3 epoch 0 0 0 true (leBytes 8 (bytes + manifestSize))

/-- Stream the granules that the copy has placed. -/
def State.streamPlaced (s : State) : State :=
  s.snap.unsent.foldl (fun (s : State) g =>
    match homeOffset (g * 65536) 0 s.snapRanges with
    | some off => (s.sendGranule s.bridleId s.snap.epoch.toNat (s.halfBase s.snap.epoch.toNat) off).modSnap (fun x => { x with sent := x.sent + 65536 })
    | none => s) (s.modSnap (fun x => { x with unsent := [] }))

/-! ## Copy-before-write (16 R388, R389, R392) -/

/-- A granule is copied: the manifest is flagged where a poisoned line has been met and where the home slot is complete, the demand
for the granule is served, the stream sends the granule, and what waits for it goes on. -/
def State.granuleCopied (s : State) (g : Nat) : State :=
  let m := manifestAt s.snap.epoch.toNat
  let s1 := s.copyGranule g
  let s2 := if s1.snap.poisoned ∧ !bit (s1.readNat (m + 28) 4) 4 then s1.flagManifest m 4 else s1
  let s3 := if s2.snap.uncopied = [] ∧ !bit (s2.readNat (m + 28) 4) 1 then s2.flagManifest m 1 else s2
  let s4 := (s3.modSnap (fun x => { x with demand := without g x.demand })).streamPlaced
  (s4.waitingLines.filter (fun l => decide (granuleOf l = g))).foldl (fun (s : State) l => s.resumeLine l) s4

/-- An uncached write, or a cache that obtains ownership, meets copy-before-write: its granule is copied first, after those that were
asked for before it (16 R388). -/
def State.copyFirst (s : State) (line : Nat) : State :=
  if s.uncopiedLine line then
    let g := granuleOf line
    let s1 := s.demandCopy line
    (s1.snap.demand.takeWhile (fun x => decide (x ≠ g)) ++ [g]).foldl (fun (s : State) x => s.granuleCopied x) s1
  else s

end Sys2Proof.Machine
end

