-- ==== Sys2Proof/Machine/Coherent.lean ====
section
/-! DEFINITION. The coherent reads and writes of the agents: through a cache of their own, or as uncached requests served by
the L2 of their die or by the L3 (13 R308, R319, R324). -/

namespace Sys2Proof.Machine

/-! ## Through a cache of the agent's own -/

/-- Whether a cache may read a line, or write it, without a request (13 R316). -/
def CacheLine.allows (x : CacheLine) (own : Bool) : Bool := if own then x.st = .m || x.st = .e else decide (x.st ≠ .i)

/-- The lines that stand in the way of a fill of a cache: the occupants of the set, and its outstanding misses. -/
def State.rivals (s : State) (cache : CacheId) (line : Nat) : List Nat :=
  let n := cacheKey cache
  (s.occupants n line).map (·.2)
    ++ (s.lines.filter (fun x => decide (x.1 / 2 ^ 48 = n) && decide (x.2.tr ≠ .none))).map (fun x => x.1 % 2 ^ 48)

/-- One request of a cache for a line, run to its fill (log entry 26). -/
def State.fetchOnce (s : State) (cache : CacheId) (line : Nat) (own nt : Bool) : State :=
  let s1 := s.asks cache line own nt
  match requestOf cache (s1.line cache line).tr with
  | some r => (s1.requestFrom cache line r).settleLine line true
  | none => s1

/-- A cache obtains a line: at once where it holds it, else by a request that runs to its fill, after what stands in its way is
done (13 R308, R322; log entry 26). A grant of ownership follows the copy of its granule (16 R388). A line that the cut or a
constrained pair holds is not obtained. -/
def State.obtain (s : State) (cache : CacheId) (line : Nat) (own nt : Bool) : State :=
  if (s.line cache line).allows own then s.touch cache line
  else
    let s1 := (if own then s.copyFirst line else s).settled line
    let s2 := if (s1.line cache line).allows own then s1 else s1.fetchOnce cache line own nt
    if (s2.line cache line).allows own then s2.touch cache line
    else if s2.writeHeld line then s2
    else
      let s3 := ((s2.rivals cache line).foldl (fun (s : State) l => s.settled l) s2).settled line
      if (s3.line cache line).allows own then s3.touch cache line else s3.fetchOnce cache line own nt

/-! ## Uncached writes (13 R319) -/

/-- An uncached write within one line, after any copy-before-write (13 R319; 16 R388). -/
def State.uncachedLine (s : State) (at' : EtuId) (cls : FillClass) (line off : Nat) (data : List Byte) : State :=
  (s.copyFirst line).writeLine at' cls line off data

/-- The writes that wait for a line go on, in order (16 R387, 06 R177). -/
def State.releaseLine (s : State) (line : Nat) : State :=
  let mine := s.snap.heldWrites.filter (fun w => decide (w.2.2.1 = line))
  mine.foldl (fun (s : State) w => s.uncachedLine w.1 w.2.1 w.2.2.1 w.2.2.2.1 w.2.2.2.2)
    (s.modSnap (fun x => { x with heldWrites := x.heldWrites.filter (fun w => decide (w.2.2.1 ≠ line)) }))

/-- An uncached write of a line, or its wait while the cut is taken (16 R386) or for a constrained pair on the line (06 R177); it
goes behind those that wait for the line. -/
def State.putLine (s : State) (at' : EtuId) (cls : FillClass) (line off : Nat) (data : List Byte) : State :=
  if s.writeHeld line then s.modSnap (fun x => { x with heldWrites := x.heldWrites ++ [(at', cls, line, off, data)] })
  else (s.releaseLine line).uncachedLine at' cls line off data

/-- A coherent write by an agent without a cache of its own, or into an SRAM window (13 R319, 01 R29). -/
def State.writeMem (s : State) (at' : EtuId) (cls : FillClass) (a : Nat) (data : List Byte) : State :=
  if (s.kindAt a).sram then s.sramWrite a data
  else (linePieces (data.length + 1) a data).foldl (fun s x => s.putLine at' cls x.1 x.2.1 x.2.2) s

/-- A write into a line that a cache has obtained: its copy becomes M (13 R316). A line that is held waits with the write below the
cache (16 R386, 06 R177). -/
def State.cachedLine (s : State) (at' : EtuId) (cache : CacheId) (nt : Bool) (line off : Nat) (data : List Byte) : State :=
  let s1 := s.obtain cache line true nt
  if (s1.line cache line).allows true then
    let s2 := s1.mergeDirty line off data
    (s2.modLine cache line (fun x => { x with poison := (s2.dirtyLine line).poison })).restate cache line .m
  else s1.putLine at' (fillClass (cacheKey cache)) line off data

/-- How the accesses of an agent reach normal memory: through a cache of its own, with the non-temporal hint or without, or as
uncached requests of a class (13 R308, R311; 02 R49). -/
inductive Via where
  | cached (c : CacheId) (nt : Bool)
  | uncached (cls : FillClass)
deriving DecidableEq, Repr

/-- The cache that stands for a core at the directories: its L1 D, or the L2 of a Hazia core (13 R308, R309). -/
def coherentCache : CoreId → CacheId
  | .sycen d nn => .l1d (.sycen d nn)
  | .hazia k => .haziaL2 k

/-- The lines that a read of an agent with a cache of its own brings into it. -/
def State.fetchVia (s : State) (r : Via) (a n : Nat) : State :=
  match r with
  | .cached c nt => if (s.kindAt a).normal then (linesOf a n).foldl (fun (s : State) l => s.obtain c l false nt) s else s
  | .uncached _ => s

/-- A write of an agent to a physical address. -/
def State.writeVia (s : State) (at' : EtuId) (r : Via) (a : Nat) (data : List Byte) : State :=
  match r with
  | .uncached cls => s.writeMem at' cls a data
  | .cached c nt =>
    if (s.kindAt a).sram then s.sramWrite a data
    else (linePieces (data.length + 1) a data).foldl (fun (s : State) x =>
      if s.writeHeld x.1 then s.putLine at' (fillClass (cacheKey c)) x.1 x.2.1 x.2.2 else s.cachedLine at' c nt x.1 x.2.1 x.2.2) s

/-! ## Seal-verifying reads (01 R32) -/

/-- A seal-verifying read first cleans the lines of the tile: every dirty copy is written back after its hold window, and each
writer keeps S (01 R32, 13 R319, R320). -/
def State.cleanTile (s : State) (tileBase : Nat) : State :=
  (countFrom (lineOf tileBase) 32).foldl (fun s l => if s.isDirty l then (s.settled l).maintain .clean l else s) s

end Sys2Proof.Machine
end

