-- ==== Sys2Proof/Machine/Etu.lean ====
section
/-! DEFINITION. The engine translation units: segments, the engine-table walk, the translation cache, and the parking
of accesses in fault batches (12 R297 to R304). -/

namespace Sys2Proof.Machine

/-- An address is canonical when bits [63:56] are all equal (01 R30). -/
def canonical (va : Nat) : Bool := va / 2 ^ 56 = 0 || va / 2 ^ 56 = 255

/-- The outcome of a translation (12 R298 to R300). -/
inductive Trans where
  | ok (pa : Nat)
  | address
  | segment (detail : Nat)
  | page (cause level : Nat)
  | bus
deriving DecidableEq, Repr

def Etu.seg (e : Etu) (ctx : Nat) (i : Nat) : Segment := mget Segment.reset e.segs (ctx * 8 + i)
def Etu.ctxTable (e : Etu) (ctx : Nat) : CtxTable := mget CtxTable.reset e.ctxs ctx

/-- The lowest-numbered segment in use that holds an address (12 R297, R298). -/
def Etu.findSeg (e : Etu) (ctx va : Nat) : Option Nat :=
  (countFrom 0 (min (e.ctxTable ctx).segCount.toNat 8)).find? (fun i =>
    decide ((e.seg ctx i).base.toNat ≤ va) && decide (va ≤ (e.seg ctx i).limit.toNat))

/-- Whether a segment grants an access (12 R297). -/
def Segment.grants (g : Segment) : Access → Bool
  | .read => g.r
  | .write => g.w
  | .fetch => g.x

/-- The bit of the missing permission in `TRAPINFO.DETAIL` of a segment fault (09 R223). -/
def permBit : Access → Nat
  | .read => 1
  | .write => 2
  | .fetch => 4

/-- The level-1 entries of the region of a segment (12 R299). -/
def Segment.regionSize (g : Segment) : Nat := g.limit.toNat / 2 ^ 30 - g.base.toNat / 2 ^ 30 + 1

/-- The physical address of the level-1 entry of an address in segment `i` (12 R299). -/
def Etu.entryAddr (e : Etu) (ctx i va : Nat) : Nat :=
  let before := ((countFrom 0 i).map (fun j => (e.seg ctx j).regionSize)).sum
  (e.ctxTable ctx).base.toNat * 4096 + 8 * (before + (va / 2 ^ 30 - (e.seg ctx i).base.toNat / 2 ^ 30))

/-- The bits of an address below a page of a level: 1 GiB, 2 MiB, 4 KiB (12 R299). -/
def levelBits (level : Nat) : Nat := if level = 1 then 30 else if level = 2 then 21 else 12

/-- The physical ranges that a leaf may map for a requester, as first and last byte (12 R300). -/
def State.permitted (s : State) (seq : Bool) : List (Nat × Nat) :=
  (if s.interleaved then [(0, 0x8FDBFFFFFF)]
   else (countFrom 0 4).map (fun d => (d * 0x2400000000, d * 0x2400000000 + 0x23F6FFFFFF)))
  ++ [(0x10000000000, s.drawerBase - 1), (0xE0000000000, 0xEFFFFFFFFFF)]
  ++ (countFrom 0 4).map (fun d => (0xF1080000000 + d * 0x100000000, 0xF1083FFFFFF + d * 0x100000000))
  ++ (countFrom 0 4).map (fun d => (0xF10C0000000 + d * 0x100000000, 0xF10CBFFFFFF + d * 0x100000000))
  ++ (if seq then [(0xF0000000000, 0xF00FFFFFFFF), (0xF1000000000, 0xF107FFFFFFF), (0xF1100000000, 0xF117FFFFFFF),
        (0xF1200000000, 0xF127FFFFFFF), (0xF1300000000, 0xF137FFFFFFF), (0xF2000000000, 0xF23FFFFFFFF),
        (0xF3000000000, 0xF300FFFFFFF)] else [])

/-- A page that lies wholly in forbidden physical space (12 R300 cause 04h). -/
def State.pageForbidden (s : State) (seq : Bool) (base size : Nat) : Bool :=
  (s.permitted seq).all (fun r => decide (r.2 < base) || decide (base + size - 1 < r.1))

/-- Whether an access through an ETU reaches its unit: the bus rules, and no forbidden part of a page (12 R300). -/
def State.etuBusOk (s : State) (seq : Bool) (pa size : Nat) : Bool :=
  s.busOk pa size && (s.permitted seq).any (fun r => decide (r.1 ≤ pa) && decide (pa + size - 1 ≤ r.2))

/-- One level of the walk, and the levels below it in maintenance mode (12 R299, R300). `none` with `false`: a walk read
that failed as a bus error. -/
def State.walkFrom (s : State) (maint seq : Bool) (acc : Access) (va : Nat) : Nat → Nat → Nat → Trans × Option (Nat × Nat × Bool)
  | 0, _, _ => (.bus, none)
  | fuel + 1, level, entry =>
    if !s.busOk entry 8 || s.readPoison entry 8 then (.bus, none)
    else
      let w := s.readNat entry 8
      let size := 2 ^ levelBits level
      let frame := bits w 12 40 * 4096
      if !bit w 0 then (.page 1 level, none)
      else if bits w 3 9 ≠ 0 ∨ (!bit w 1 ∧ frame % size ≠ 0) then (.page 5 level, none)
      else if bit w 1 then
        if !maint ∨ level = 3 then (.page 3 level, none)
        else s.walkFrom maint seq acc va fuel (level + 1) (frame + 8 * bits va (levelBits (level + 1)) 9)
      else if s.pageForbidden seq frame size then (.page 4 level, none)
      else if bit w 2 ∧ acc = .write then (.page 2 level, none)
      else (.ok (frame + va % size), some (level, frame, bit w 2))

/-- A translation held by the ETU that serves an access (12 R298). One that refuses a write is walked again, and so is one
whose page is forbidden to the requester (R300). -/
def Etu.lookup (e : Etu) (ctx : BitVec 6) (va : Nat) (acc : Access) (forbidden : Nat → Nat → Bool) : Option Nat :=
  match e.tlb.find? (fun t => decide (t.ctx = ctx) && decide (t.vpage = va / 2 ^ levelBits t.level)
      && !(t.ro && acc = .write) && !forbidden t.frame (2 ^ levelBits t.level)) with
  | some t => some (t.frame + va % 2 ^ levelBits t.level)
  | none => none

/-- The checks of a translation before the cache and the walk (12 R298): the segment, or the failure. -/
def Etu.check (e : Etu) (ctx va : Nat) (acc : Access) : Except Trans Nat :=
  if !canonical va then .error .address
  else match e.findSeg ctx va with
    | none => .error (.segment 0)
    | some i => if (e.seg ctx i).grants acc then .ok i else .error (.segment (permBit acc))

/-- Translate an access: checks, translation cache, walk. The new state counts the walk, holds the translation, and
has the record of a walk read that failed (12 R298 to R300). -/
def State.translate (s : State) (id : EtuId) (ctx : BitVec 6) (va : Nat) (acc : Access) (seq : Bool) : Trans × State :=
  let e := s.etu id
  match e.check ctx.toNat va acc with
  | .error t => (t, s)
  | .ok i =>
    match e.lookup ctx va acc (s.pageForbidden seq) with
    | some pa => (.ok pa, s)
    | none =>
      let (t, leaf) := s.walkFrom e.maint seq acc va 3 1 (e.entryAddr ctx.toNat i va)
      let e1 := { e with walks := satAdd e.walks 1 }
      match t, leaf with
      | .ok pa, some (level, frame, ro) =>
        let entry : TlbEntry := { ctx := ctx, level := level, vpage := va / 2 ^ levelBits level, frame := frame, ro := ro }
        (.ok pa, s.setEtu id { e1 with tlb := entry :: e1.tlb.filter (fun x => decide (x ≠ { entry with ro := true })) })
      | .bus, _ =>
        let die := match id with
          | .cd d => d.val + 1
          | .hd => 0
        let r := mkRec die 0x5000 0x0B 1 0 0
        (.bus, (s.setEtu id e1).report { r with vaddr := BitVec.ofNat 64 va, ctx := some ctx })
      | t, _ => (t, s.setEtu id e1)

/-! ## Fault batches (12 R302, R303) -/

/-- The requester ID of a fault record (12 R302). -/
def requesterId : Requester → Nat
  | .feeder p _ => p.cl.val * 16 + p.arr.val * 4 + p.q.val
  | .drain p _ => 0x1000 + (p.cl.val * 16 + p.arr.val * 4 + p.q.val)
  | .sequencer _ nn => 0x2000 + nn.val
  | .mover (.cluster _ cl m) desc => if desc then 0x7800 + (cl.val * 2 + m.val) else 0x3000 + (cl.val * 2 + m.val)
  | .mover (.bulk _ m) desc => if desc then 0x7800 + m.val else 0x4000 + m.val
  | .mover (.host m) desc => if desc then 0x7800 + m.val else 0x6000 + m.val
  | .engine e acc => if acc = .data then 0x5000 + engineIndex e.kind else 0x7800 + engineIndex e.kind

/-- Whether a fault falls under the key of a record: context and page at the level of the stop (12 R302). -/
def FaultRec.covers (r : FaultRec) (ctx : BitVec 6) (va level : Nat) : Bool :=
  decide (r.ctx = ctx) && decide (r.level = level) &&
    decide (r.vpage / 2 ^ (levelBits level - 12) = va % 2 ^ 57 / 2 ^ levelBits level)

/-- The requester that a parked access belongs to: a feeder, or a drain with the writer of its completion records, is one (12 R302). -/
def Requester.owner : Requester → Requester
  | .feeder p _ => .feeder p false
  | .drain p _ => .drain p false
  | q => q

/-- A record of 64 bytes as it is written to memory (12 R302). -/
def FaultRec.bytes (r : FaultRec) : List Byte :=
  let w0 := r.ctx.toNat + 64 * b2n r.write + 128 * b2n r.fetch + 256 * r.cause + 4096 * r.level + 16384 * b2n r.early
    + 65536 * r.vpage
  let ids := (r.parked.map Requester.owner).eraseDups.map requesterId
  let w1 := min ids.length 255 + 256 * min ids.length 24
  leBytes 8 w0 ++ leBytes 8 w1 ++ (fitTo 0 24 (ids.take 24)).flatMap (leBytes 2)

/-- Deliver the collecting batch of an ETU: records, header, interrupt message; the buffers change roles (12 R303). -/
def State.deliverBatch (s : State) (id : EtuId) (byTime : Bool) : State :=
  let e := s.etu id
  if e.collecting = [] then s
  else if e.outstanding.isSome ∨ s.pieceHeld [(e.fbBase.toNat * 65536, 65536)] then s.setEtu id { e with byTime := e.byTime || byTime }
  else
    let base := e.fbBase.toNat * 65536
    let recs := e.collecting.flatMap FaultRec.bytes
    let hdr := leBytes 8 (e.bseq.toNat + 65536 * e.collecting.length + 2 ^ 25 * b2n byTime) ++ List.replicate 56 0
    let s1 := s.writeMem id 1 (base + b2n e.collBuf * 0x4000) recs
    let s2 := s1.writeMem id 1 (base + 0x8000 + b2n e.collBuf * 0x40) hdr
    let s3 := s2.setEtu id { e with
      outstanding := some e.collecting, collecting := [], outSeq := e.bseq, bseq := e.bseq + 1,
      collBuf := !e.collBuf, byTime := false }
    if e.fbHostIrq then
      s3.hicSource (match id with
        | .cd d => 0xD0 + d.val
        | .hd => 0xD4)
    else s3

/-- Deliver if the collecting batch has reached `THRESH`, or its timer has run out meanwhile (12 R303). -/
def State.deliverIfDue (s : State) (id : EtuId) : State :=
  let e := s.etu id
  if e.outstanding.isNone ∧ e.collecting ≠ [] ∧ (e.fbThresh.toNat ≤ e.collecting.length ∨ e.byTime) then
    s.deliverBatch id e.byTime
  else s

/-- Place a page fault in the batches of an ETU: join the outstanding batch late, coalesce, open a record, or wait
without one (12 R302, R304). `req` is none for a prefetch, which only opens a record (R301). -/
def State.park (s : State) (id : EtuId) (ctx : BitVec 6) (va : Nat) (acc : Access) (cause level : Nat)
    (req : Option Requester) : State :=
  let e := s.etu id
  let parked := req.toList
  let out := e.outstanding.getD []
  if out.any (fun r => r.covers ctx va level) then
    match req with
    | none => s
    | some q =>
      let upd := out.map (fun r => if r.covers ctx va level then { r with late := addNew q r.late } else r)
      s.setEtu id { e with outstanding := some upd, late := satAdd e.late 1 }
  else if e.collecting.any (fun r => r.covers ctx va level) then
    let upd := e.collecting.map (fun r =>
        if r.covers ctx va level then
          { r with write := r.write || (acc == .write && req.isSome), fetch := r.fetch || (acc == .fetch && req.isSome),
                   parked := match req with
                     | some q => addNew q r.parked
                     | none => r.parked }
        else r)
    s.setEtu id { e with collecting := upd }
  else if 256 ≤ e.collecting.length then
    match req with
    | none => s
    | some q => s.setEtu id { e with fullParked := e.fullParked ++ [q], fullWait := satAdd e.fullWait 1 }
  else
    let r : FaultRec :=
      { ctx := ctx, write := acc == .write && req.isSome, fetch := acc == .fetch && req.isSome, cause := cause, level := level,
        early := req.isNone, vpage := va % 2 ^ 57 / 4096, parked := parked, late := [] }
    (s.setEtu id { e with collecting := e.collecting ++ [r] }).deliverIfDue id

/-- A requester leaves every fault record and list of waiting requesters of an ETU (12 R304, R296; 17 R411). -/
def State.dropRequester (s : State) (id : EtuId) (q : Requester) : State :=
  let e := s.etu id
  let drop (r : FaultRec) : FaultRec := { r with parked := without q r.parked, late := without q r.late }
  s.setEtu id { e with
    collecting := e.collecting.map drop, outstanding := e.outstanding.map (fun l => l.map drop), fullParked := without q e.fullParked }

end Sys2Proof.Machine
end

