-- ==== Sys2Proof/Machine/Agents.lean ====
section
/-! DEFINITION. The accesses of the agents that reach memory through an ETU: feeders and drains, engines and movers (01 R23, R29; 12 R298 to R304). -/

namespace Sys2Proof.Machine

/-- Why an access of an agent fails. -/
inductive AgentStop where
  /-- non-canonical, outside every segment, or without permission (12 R298). -/
  | segment
  | page (cause level : Nat)
  | bus
  /-- the access waits: a write for the cut (16 R386) or for a constrained pair (06 R177), a read for a miss register (13 R312). -/
  | held
  /-- the poison bit, or an uncorrectable word (03 R95, 11 R269). -/
  | data
deriving DecidableEq, Repr

/-- A failure with the virtual address of the first byte of the failing access, and its physical address where one has
been found. -/
structure AgentFault where
  stop : AgentStop
  va : Nat
  pa : Option Nat
deriving DecidableEq, Repr

/-- Cut a virtual range at page boundaries, sizes as given; a range of any length. -/
def rangePieces (va n : Nat) : List (Nat × Nat) := pageCut (n / 4096 + 2) va n
where
  pageCut : Nat → Nat → Nat → List (Nat × Nat)
    | 0, _, _ => []
    | fuel + 1, va, n =>
      if n = 0 then []
      else
        let room := min n (4096 - va % 4096)
        (va, room) :: pageCut fuel ((va + room) % 2 ^ 64) (n - room)

/-- Locate the pieces of a range in order; the first that fails decides. -/
def State.agentLocate (s : State) (id : EtuId) (ctx : BitVec 6) (acc : Access) :
    List (Nat × Nat) → Except AgentFault (List (Nat × Nat)) × State
  | [] => (.ok [], s)
  | (va, n) :: rest =>
    match s.translate id ctx va acc false with
    | (.ok pa, s1) =>
      if !s1.etuBusOk false pa 1 || !s1.etuBusOk false (pa + n - 1) 1 then (.error { stop := .bus, va := va, pa := some pa }, s1)
      else match s1.agentLocate id ctx acc rest with
      | (.ok l, s2) => (.ok ((pa, n) :: l), s2)
      | (.error f, s2) => (.error f, s2)
    | (.page cause level, s1) => (.error { stop := .page cause level, va := va, pa := none }, s1)
    | (.bus, s1) => (.error { stop := .bus, va := va, pa := none }, s1)
    | (_, s1) => (.error { stop := .segment, va := va, pa := none }, s1)

/-- A read of the PCIe memory window by an agent that is no core: what the device answers is outside the module, so that the data, an
error status and a time-out are free; the last two are bus errors, and none here (17 R412; log entry 37). -/
def State.pcieRead (s : State) (pa n : Nat) : Option (List Byte) × State :=
  let s1 := (s.emit (.pcie (pa - 0xE0000000000) n none)).bump
  match (Config.pcieAnswer s.fresh).val with
  | 0 => (some ((countFrom 0 n).map (Config.freeByte s.fresh)), s1)
  | 1 => (none, s1)
  | _ => (none, { s1 with host := { s1.host with cplTo := satAdd s1.host.cplTo 1 } })

/-- The bytes of a located piece; none: a bus error. -/
def State.agentBytes (s : State) (via : Via) (pa n : Nat) : Option (List Byte) × State :=
  match s.kindAt pa with
  | .pcieMem => s.pcieRead pa n
  | _ => let s1 := s.fetchVia via pa n
         (some (s1.readMem pa n), s1)

/-- The first poisoned byte of a located piece, by line or SRAM word. -/
def State.poisonIn (s : State) (pa n : Nat) : Option Nat :=
  if s.readPoison pa n then (countFrom pa n).find? (fun a => s.readPoison a 1) else none

/-- Clean the tiles of a piece of normal memory before a seal-verifying consumer reads it (01 R32). -/
def State.verifyTiles (s : State) (pa n : Nat) : State :=
  if (s.kindAt pa).normal then
    (countFrom (pa / 4096) ((pa + n - 1) / 4096 - pa / 4096 + 1)).foldl (fun (s : State) t => s.cleanTile (t * 4096)) s
  else s

/-- Read located pieces in order; `va` is the address of the next. -/
def State.agentGather (s : State) (via : Via) (verify : Bool) : Nat → List (Nat × Nat) → Except AgentFault (List Byte) × State
  | _, [] => (.ok [], s)
  | va, (pa, n) :: rest =>
    let s1 := if verify then s.verifyTiles pa n else s
    match s1.poisonIn pa n with
    | some a => (.error { stop := .data, va := va + (a - pa), pa := some a }, s1)
    | none =>
      match s1.agentBytes via pa n with
      | (none, s2) => (.error { stop := .bus, va := va, pa := some pa }, s2)
      | (some b, s2) =>
        match s2.agentGather via verify (va + n) rest with
        | (.ok bs, s3) => (.ok (b ++ bs), s3)
        | (.error f, s3) => (.error f, s3)

/-- Whether an uncached read waits at the input of the cache that serves it (13 R312). -/
def State.readHeld (s : State) (id : EtuId) (via : Via) (l : List (Nat × Nat)) : Bool :=
  match via with
  | .uncached _ => l.any (fun x => (s.kindAt x.1).normal && (linesOf x.1 x.2).any (s.inputHeld id))
  | .cached _ _ => false

/-- A read of an agent; `verify` for a seal-verifying consumer (01 R32). -/
def State.agentRead (s : State) (id : EtuId) (via : Via) (ctx : BitVec 6) (va n : Nat) (verify : Bool) : Except AgentFault (List Byte) × State :=
  match s.agentLocate id ctx .read (rangePieces va n) with
  | (.ok l, s1) => if s1.readHeld id via l then (.error { stop := .held, va := va, pa := none }, s1) else s1.agentGather via verify va l
  | (.error f, s1) => (.error f, s1)

/-- Write located pieces in order. -/
def State.agentScatter (s : State) (id : EtuId) (via : Via) : List (Nat × Nat) → List Byte → State
  | [], _ => s
  | (pa, n) :: rest, data =>
    let s1 := match s.kindAt pa with
      | .pcieMem => s.emit (.pcie (pa - 0xE0000000000) n (some (data.take n)))
      | _ => s.writeVia id via pa (data.take n)
    s1.agentScatter id via rest (data.drop n)

/-- A write of an agent; one that fails changes nothing (01 R23). -/
def State.agentWrite (s : State) (id : EtuId) (via : Via) (ctx : BitVec 6) (va : Nat) (data : List Byte) : Except AgentFault State × State :=
  match s.agentLocate id ctx .write (rangePieces va data.length) with
  | (.ok l, s1) => if s1.pieceHeld l then (.error { stop := .held, va := va, pa := none }, s1) else (.ok (s1.agentScatter id via l data), s1)
  | (.error f, s1) => (.error f, s1)

/-- Park a requester on a page fault, while the ETU parks, or on an access that waits at a cache or a directory (13 R312, 16 R386,
06 R177); none: the access fails at once (12 R302). -/
def State.parkAgent (s : State) (id : EtuId) (ctx : BitVec 6) (f : AgentFault) (acc : Access) (req : Requester) : Option State :=
  match f.stop with
  | .held => some { s with snap := { s.snap with heldReq := addNew req s.snap.heldReq } }
  | .page cause level => if (s.etu id).fbEnable then some (s.park id ctx f.va acc cause level (some req)) else none
  | _ => none

end Sys2Proof.Machine
end

