-- ==== Sys2Proof/Machine/Numerics.lean ====
section
/-! DEFINITION. The number formats by code (00_scope R12, 04 R103, R108), exact values, and exact arithmetic on them
(04 R104, R111, R113). Rounding, with the flags that it raises, is in Machine/Flags.lean. -/

namespace Sys2Proof.Machine

/-! ## Formats -/

/-- What an all-ones exponent stands for (04 R103). -/
inductive TopExp where
  /-- infinity and NaN. -/
  | ieee
  /-- numbers, but for the all-ones fraction, which is NaN (FP8 E4M3). -/
  | e4m3
  /-- numbers. -/
  | numbers
deriving DecidableEq, Repr

/-- A floating-point format: its width, exponent and fraction bits and bias; `explicit` for the integer bit of W80. -/
structure FFmt where
  width : Nat
  eb : Nat
  fb : Nat
  bias : Nat
  top : TopExp := .ieee
  explicit : Bool := false
deriving DecidableEq, Repr

/-- The floating-point format of a code (00_scope R12; 04 R103, R108). An MX code names its element format. -/
def floatFmt (code : Nat) : Option FFmt :=
  match code with
  | 0x08 => some { width := 4, eb := 2, fb := 1, bias := 1, top := .numbers }
  | 0x20 => some { width := 4, eb := 2, fb := 1, bias := 1, top := .numbers }
  | 0x09 => some { width := 6, eb := 2, fb := 3, bias := 1, top := .numbers }
  | 0x21 => some { width := 6, eb := 2, fb := 3, bias := 1, top := .numbers }
  | 0x0A => some { width := 6, eb := 3, fb := 2, bias := 3, top := .numbers }
  | 0x22 => some { width := 6, eb := 3, fb := 2, bias := 3, top := .numbers }
  | 0x0B => some { width := 8, eb := 4, fb := 3, bias := 7, top := .e4m3 }
  | 0x23 => some { width := 8, eb := 4, fb := 3, bias := 7, top := .e4m3 }
  | 0x0C => some { width := 8, eb := 5, fb := 2, bias := 15 }
  | 0x24 => some { width := 8, eb := 5, fb := 2, bias := 15 }
  | 0x0D => some { width := 16, eb := 8, fb := 7, bias := 127 }
  | 0x0E => some { width := 16, eb := 5, fb := 10, bias := 15 }
  | 0x0F => some { width := 32, eb := 8, fb := 23, bias := 127 }
  | 0x1B => some { width := 32, eb := 8, fb := 23, bias := 127 }
  | 0x10 => some { width := 64, eb := 11, fb := 52, bias := 1023 }
  | 0x19 => some { width := 64, eb := 11, fb := 52, bias := 1023 }
  | 0x18 => some { width := 40, eb := 8, fb := 31, bias := 127 }
  | 0x1A => some { width := 80, eb := 15, fb := 63, bias := 16383, explicit := true }
  | _ => none

/-- The integer format of a code: width, and whether it is two's complement (00_scope R12; 04 R103). -/
def intFmt (code : Nat) : Option (Nat × Bool) :=
  match code with
  | 0x00 => some (4, true)
  | 0x01 => some (8, true)
  | 0x02 => some (16, true)
  | 0x03 => some (32, true)
  | 0x04 => some (64, true)
  | 0x05 => some (8, false)
  | 0x06 => some (4, false)
  | _ => none

/-- The width of an element of a format in bits (04 R105); 8 for a code without a format. -/
def fmtWidth (code : Nat) : Nat :=
  match floatFmt code with
  | some f => f.width
  | none => match intFmt code with
    | some (w, _) => w
    | none => 8

/-- The smallest exponent of a normal value. -/
def FFmt.emin (f : FFmt) : Int := 1 - (f.bias : Int)

/-- The largest finite value: integer significand, and the exponent of its unit. -/
def FFmt.maxFinite (f : FFmt) : Nat × Int :=
  match f.top with
  | .ieee => (2 ^ (f.fb + 1) - 1, (2 ^ f.eb - 2 : Int) - f.bias - f.fb)
  | .e4m3 => (2 ^ (f.fb + 1) - 2, (2 ^ f.eb - 1 : Int) - f.bias - f.fb)
  | .numbers => (2 ^ (f.fb + 1) - 1, (2 ^ f.eb - 1 : Int) - f.bias - f.fb)

/-! ## Values -/

/-- An exact value: `fin neg m e` is m * 2^e, negative if `neg`; m = 0 is a zero with a sign. -/
inductive FVal where
  | nan
  | inf (neg : Bool)
  | fin (neg : Bool) (m : Nat) (e : Int)
deriving DecidableEq, Repr

/-- Plus zero. -/
def FVal.zero : FVal := .fin false 0 0

/-- The value of an integer. -/
def FVal.ofInt (x : Int) : FVal := .fin (decide (x < 0)) x.natAbs 0

def FVal.isNan : FVal → Bool
  | .nan => true
  | _ => false

def FVal.isInf : FVal → Bool
  | .inf _ => true
  | _ => false

def FVal.isZero : FVal → Bool
  | .fin _ 0 _ => true
  | _ => false

def FVal.negative : FVal → Bool
  | .nan => false
  | .inf s => s
  | .fin s _ _ => s

/-- The value with the other sign; a NaN stays the one NaN (04 R113). -/
def FVal.neg : FVal → FVal
  | .nan => .nan
  | .inf s => .inf !s
  | .fin s m e => .fin (!s) m e

/-- The value with sign 0. -/
def FVal.abs : FVal → FVal
  | .nan => .nan
  | .inf _ => .inf false
  | .fin _ m e => .fin false m e

/-- A canonical W80 pattern (04 R109). -/
def w80Canonical (raw : Nat) : Bool := bit raw 63 == decide (bits raw 64 15 ≠ 0)

/-- The value of an encoding: every NaN, and a non-canonical W80 pattern, is the one NaN (04 R104, R109). -/
def FFmt.decode (f : FFmt) (raw : Nat) : FVal :=
  let mb := if f.explicit then f.fb + 1 else f.fb
  let m := bits raw 0 mb
  let e := bits raw mb f.eb
  let s := bit raw (mb + f.eb)
  let frac := bits raw 0 f.fb
  if f.explicit ∧ !w80Canonical raw then .nan
  else if e = 2 ^ f.eb - 1 ∧ f.top = .ieee then (if frac = 0 then .inf s else .nan)
  else if e = 2 ^ f.eb - 1 ∧ f.top = .e4m3 ∧ frac = 2 ^ f.fb - 1 then .nan
  else if e = 0 then .fin s m (f.emin - f.fb)
  else .fin s (if f.explicit then m else 2 ^ f.fb + m) ((e : Int) - f.bias - f.fb)

/-- The canonical NaN of a format (04 R113); formats without one encode +0. -/
def FFmt.nanBits (f : FFmt) : Nat :=
  match f.top with
  | .ieee => (2 ^ f.eb - 1) * 2 ^ (if f.explicit then f.fb + 1 else f.fb) + (if f.explicit then 2 ^ f.fb else 0) + 2 ^ (f.fb - 1)
  | .e4m3 => 2 ^ (f.eb + f.fb) - 1
  | .numbers => 0

/-- The encoding of a value that the format represents. -/
def FFmt.encode (f : FFmt) (v : FVal) : Nat :=
  let mb := if f.explicit then f.fb + 1 else f.fb
  let sign (s : Bool) : Nat := b2n s * 2 ^ (mb + f.eb)
  match v with
  | .nan => f.nanBits
  | .inf s => sign s + (2 ^ f.eb - 1) * 2 ^ mb + (if f.explicit then 2 ^ f.fb else 0)
  | .fin s m e =>
    if m = 0 then sign s
    else
      let x : Int := e + (Nat.log2 m : Int)
      let q : Int := max x f.emin - f.fb
      let sig := if q ≤ e then m * 2 ^ (e - q).toNat else m / 2 ^ (q - e).toNat
      let ef : Nat := if x < f.emin then 0 else (x + f.bias).toNat
      sign s + ef * 2 ^ mb + (if f.explicit then sig else sig % 2 ^ f.fb)

/-- Compare two magnitudes m * 2^e. -/
def magLt (m1 : Nat) (e1 : Int) (m2 : Nat) (e2 : Int) : Bool :=
  let e := min e1 e2
  decide (m1 * 2 ^ (e1 - e).toNat < m2 * 2 ^ (e2 - e).toNat)

/-- A signed integer significand at exponent `e` of a finite value whose exponent is at least `e`. -/
def alignTo (s : Bool) (m : Nat) (ex e : Int) : Int :=
  let x : Int := ((m * 2 ^ (ex - e).toNat : Nat) : Int)
  if s then -x else x

/-- An exact sum; the Bool says that the operation is invalid. An exact zero sum of unlike signs, or of a non-zero pair,
takes the sign `zneg`; two zeros of one sign keep it (04 R113, 06 R452). -/
def FVal.add (a b : FVal) (zneg : Bool) : FVal × Bool :=
  match a, b with
  | .nan, _ => (.nan, false)
  | _, .nan => (.nan, false)
  | .inf s, .inf t => if s = t then (.inf s, false) else (.nan, true)
  | .inf s, _ => (.inf s, false)
  | _, .inf t => (.inf t, false)
  | .fin s m e, .fin t n f =>
    if m = 0 ∧ n = 0 then (.fin (if s = t then s else zneg) 0 0, false)
    else if m = 0 then (.fin t n f, false)
    else if n = 0 then (.fin s m e, false)
    else
      let g := min e f
      let x := alignTo s m e g + alignTo t n f g
      if x = 0 then (.fin zneg 0 0, false) else (.fin (decide (x < 0)) x.natAbs g, false)

/-- An exact product; the Bool says that the operation is invalid (04 R111, R113). -/
def FVal.mul (a b : FVal) : FVal × Bool :=
  match a, b with
  | .nan, _ => (.nan, false)
  | _, .nan => (.nan, false)
  | .inf s, y => if y.isZero then (.nan, true) else (.inf (s != y.negative), false)
  | x, .inf t => if x.isZero then (.nan, true) else (.inf (x.negative != t), false)
  | .fin s m e, .fin t n f => (.fin (s != t) (m * n) (e + f), false)

/-- The integer square root of a number, by bits: `fuel` binary digits of the root from `r` on. -/
def sqrtBits (n : Nat) : Nat → Nat → Nat
  | 0, r => r
  | fuel + 1, r =>
    let c := r + 2 ^ fuel
    sqrtBits n fuel (if c * c ≤ n then c else r)

/-- The integer square root. -/
def isqrt (n : Nat) : Nat := sqrtBits n (Nat.log2 n / 2 + 1) 0

/-- A quotient of finite non-zero values with `p` bits and a last bit that holds whether it is inexact. -/
def quotient (p : Nat) (m : Nat) (e : Int) (n : Nat) (f : Int) : Nat × Int :=
  let k := p + 3 + Nat.log2 n
  let q := m * 2 ^ k / n
  let sticky := b2n (m * 2 ^ k % n ≠ 0)
  (2 * q + sticky, e - f - k - 1)

/-- A square root of a finite positive value with more than `p` bits and a last bit that holds whether it is inexact. -/
def root (p : Nat) (m : Nat) (e : Int) : Nat × Int :=
  let odd : Nat := if e % 2 = 0 then 0 else 1
  let k := p + 3
  let n := m * 2 ^ odd * 2 ^ (2 * k)
  let r := isqrt n
  let sticky := b2n (r * r ≠ n)
  (2 * r + sticky, (e - odd) / 2 - k - 1)

/-- Whether two values compare as less: none when a NaN is among them (06 R452). -/
def FVal.lt (a b : FVal) : Option Bool :=
  match a, b with
  | .nan, _ => none
  | _, .nan => none
  | .inf s, .inf t => some (s && !t)
  | .inf s, _ => some s
  | _, .inf t => some (!t)
  | .fin s m e, .fin t n f =>
    let g := min e f
    some (decide (alignTo s m e g < alignTo t n f g))

/-- Whether two values compare as equal; -0 equals +0. -/
def FVal.eq (a b : FVal) : Option Bool :=
  match a.lt b, b.lt a with
  | some x, some y => some (!x && !y)
  | _, _ => none

/-- `minimumNumber` and `maximumNumber` of IEEE 754-2019, with -0 below +0 (10 R247). -/
def FVal.pick (wantMax : Bool) (a b : FVal) : FVal :=
  match a, b with
  | .nan, y => y
  | x, .nan => x
  | x, y =>
    let less : Bool := (x.lt y).getD false || ((x.eq y).getD false && x.negative && !y.negative)
    if less != wantMax then x else y

/-! ## Packed elements (04 R105) -/

/-- Bits in memory of an element: W40 takes 8 bytes and W80 16 (04 R109). -/
def memWidth (code : Nat) : Nat := if code = 0x18 then 64 else if code = 0x1A then 128 else fmtWidth code

/-- The bytes of `n` packed elements (04 R105). -/
def rowBytes (code n : Nat) : Nat := (n * memWidth code + 7) / 8

/-- Element `j` of a packed string of elements of `w` bits. -/
def elemAt (w x j : Nat) : Nat := bits x (w * j) w

/-- The elements of a packed string, `n` of them. -/
def elems (w x n : Nat) : List Nat := (countFrom 0 n).map (elemAt w x)

/-- Pack elements of `w` bits, the first lowest. -/
def packElems (w : Nat) : List Nat → Nat
  | [] => 0
  | x :: xs => x % 2 ^ w + 2 ^ w * packElems w xs

end Sys2Proof.Machine
end

