-- ==== Sys2Proof/Machine/Flags.lean ====
section
/-! DEFINITION. Rounding with the flags that it raises (06 R157, R452; 04 R119, R123), and the arithmetic of one rounding
that the scalar, vector and matrix units share. -/

namespace Sys2Proof.Machine

/-- The sticky flags (06 R157). -/
structure Flg where
  nx : Bool := false
  uf : Bool := false
  of : Bool := false
  dz : Bool := false
  nv : Bool := false
deriving DecidableEq, Repr

/-- No flag. -/
def Flg.none : Flg := {}

/-- Invalid operation. -/
def Flg.invalid : Flg := { nv := true }

/-- The union of two sets of flags. -/
def Flg.or (a b : Flg) : Flg :=
  { nx := a.nx || b.nx, uf := a.uf || b.uf, of := a.of || b.of, dz := a.dz || b.dz, nv := a.nv || b.nv }

/-- The rounding modes: those of `STATUS.RM`, and stochastic with its 24 random bits (04 R119). -/
inductive Rnd where
  | rne | rz | rup | rdn
  | sr (r : Nat)
deriving DecidableEq, Repr

/-- The rounding mode of `STATUS.RM` (06 R157). -/
def rndOf (rm : BitVec 2) : Rnd :=
  match rm.toNat with
  | 0 => .rne
  | 1 => .rz
  | 2 => .rup
  | _ => .rdn

/-- Whether a magnitude `mag + rem / 2^s`, with `rem` not 0, rounds up. -/
def Rnd.up (r : Rnd) (neg : Bool) (mag rem s : Nat) : Bool :=
  match r with
  | .rne => decide (2 ^ s < 2 * rem) || (decide (2 * rem = 2 ^ s) && decide (mag % 2 = 1))
  | .rz => false
  | .rup => !neg
  | .rdn => neg
  | .sr x => decide (2 ^ 24 ≤ rem * 2 ^ 24 / 2 ^ s + x)

/-- `m / 2^s` rounded, and whether it is inexact. -/
def roundShift (r : Rnd) (neg : Bool) (m s : Nat) : Nat × Bool :=
  let mag := m / 2 ^ s
  let rem := m % 2 ^ s
  if rem = 0 then (mag, false) else (if r.up neg mag rem s then mag + 1 else mag, true)

/-- Whether an overflow of a sign is delivered as the largest finite value (06 R452, 10 R263). -/
def Rnd.towardZero (r : Rnd) (neg : Bool) : Bool :=
  match r with
  | .rz => true
  | .rup => neg
  | .rdn => !neg
  | _ => false

/-- The value that an overflow, or an infinity, delivers in a format without infinity: NaN in FP8 E4M3, the largest finite
value in FP4 and FP6 (10 R247, R252; 04 R123). -/
def FFmt.beyond (f : FFmt) (neg : Bool) : FVal :=
  match f.top with
  | .ieee => .inf neg
  | .e4m3 => .nan
  | .numbers => .fin neg f.maxFinite.1 f.maxFinite.2

/-- Tininess after rounding: the value rounded to the precision with an unbounded exponent lies below the smallest normal
magnitude (06 R452). -/
def FFmt.tiny (f : FFmt) (r : Rnd) (neg : Bool) (m : Nat) (e : Int) : Bool :=
  let x : Int := e + (Nat.log2 m : Int)
  let q : Int := x - f.fb
  if q ≤ e then decide (x < f.emin)
  else
    let u := (roundShift r neg m (q - e).toNat).1
    decide (q + (Nat.log2 u : Int) < f.emin)

/-- Round an exact value to a format, with the flags of R452; `beyondMax` gives what an overflow of a sign delivers. -/
def FFmt.roundTo (f : FFmt) (r : Rnd) (beyondMax : Bool → FVal) (v : FVal) : FVal × Flg :=
  match v with
  | .nan => if f.top = .numbers then (.zero, .invalid) else (.nan, .none)
  | .inf s => if f.top = .ieee then (.inf s, .none) else (f.beyond s, .invalid)
  | .fin s m e =>
    if m = 0 then (.fin s 0 0, .none)
    else
      let q : Int := max (e + (Nat.log2 m : Int)) f.emin - f.fb
      let (mag, ix, qe) : Nat × Bool × Int :=
        if q ≤ e then (m, false, e)
        else let (a, b) := roundShift r s m (q - e).toNat
             (a, b, q)
      if magLt f.maxFinite.1 f.maxFinite.2 mag qe then
        (beyondMax s, { of := true, nx := true })
      else (.fin s mag qe, { nx := ix, uf := ix && f.tiny r s m e })

/-- The largest finite value of a sign. -/
def FFmt.largest (f : FFmt) (neg : Bool) : FVal := .fin neg f.maxFinite.1 f.maxFinite.2

/-- A result of Zizil arithmetic: an overflow delivers what IEEE 754 has for the rounding mode, and NaN in FP8 E4M3 whatever
the mode (06 R452; 10 R247). -/
def FFmt.round (f : FFmt) (r : Rnd) (v : FVal) : FVal × Flg :=
  f.roundTo r (fun s => if r.towardZero s && decide (f.top ≠ .e4m3) then f.largest s else f.beyond s) v

/-- A conversion of `VCVT`: a finite value beyond the range delivers infinity, NaN in FP8 E4M3, or the largest finite value in
FP4 and FP6, whatever the rounding mode (10 R252). -/
def FFmt.convert (f : FFmt) (r : Rnd) (v : FVal) : FVal × Flg := f.roundTo r f.beyond v

/-- A conversion of a drain: an overflow that rounds toward zero delivers the largest finite value in every format (04 R123; 10
R263). -/
def FFmt.drainTo (f : FFmt) (r : Rnd) (v : FVal) : FVal × Flg :=
  f.roundTo r (fun s => if r.towardZero s then f.largest s else f.beyond s) v

/-- Whether an exact zero sum is negative: only under rounding toward minus infinity (06 R452). -/
def Rnd.zeroNeg (r : Rnd) : Bool := r = .rdn

/-- Round the result of an exact operation; an invalid one delivers NaN and `NV`. -/
def FFmt.deliver (f : FFmt) (r : Rnd) (x : FVal × Bool) : FVal × Flg :=
  if x.2 then (.nan, .invalid) else f.round r x.1

/-- A sum of one rounding. -/
def FFmt.add (f : FFmt) (r : Rnd) (a b : FVal) : FVal × Flg := f.deliver r (a.add b r.zeroNeg)

/-- A product of one rounding. -/
def FFmt.mul (f : FFmt) (r : Rnd) (a b : FVal) : FVal × Flg := f.deliver r (a.mul b)

/-- `a * b + c` of one rounding; 0 times infinity is invalid, whatever c (06 R452). -/
def FFmt.fma (f : FFmt) (r : Rnd) (a b c : FVal) : FVal × Flg :=
  let p := a.mul b
  if p.2 then (.nan, .invalid) else f.deliver r (p.1.add c r.zeroNeg)

/-- A quotient of one rounding (06 R452). -/
def FFmt.div (f : FFmt) (r : Rnd) (a b : FVal) : FVal × Flg :=
  let s := a.negative != b.negative
  match a, b with
  | .nan, _ => (.nan, .none)
  | _, .nan => (.nan, .none)
  | .inf _, .inf _ => (.nan, .invalid)
  | .inf _, _ => (.inf s, .none)
  | _, .inf _ => (.fin s 0 0, .none)
  | .fin _ m e, .fin _ n g =>
    if n = 0 then (if m = 0 then (.nan, .invalid) else (.inf s, { dz := true }))
    else if m = 0 then (.fin s 0 0, .none)
    else let (x, y) := quotient (f.fb + 1) m e n g
         f.round r (.fin s x y)

/-- A square root of one rounding (06 R452). -/
def FFmt.sqrt (f : FFmt) (r : Rnd) (a : FVal) : FVal × Flg :=
  match a with
  | .nan => (.nan, .none)
  | .inf s => if s then (.nan, .invalid) else (.inf false, .none)
  | .fin s m e =>
    if m = 0 then (.fin s 0 0, .none)
    else if s then (.nan, .invalid)
    else let (x, y) := root (f.fb + 1) m e
         f.round r (.fin false x y)

/-! ## Conversions (06 R452, 10 R252) -/

/-- The range of an integer format. -/
def intRange (w : Nat) (signed : Bool) : Int × Int :=
  if signed then (-(2 ^ (w - 1) : Nat), (2 ^ (w - 1) : Nat) - 1) else (0, (2 ^ w : Nat) - 1)

/-- A finite value rounded to an integer, and whether that changes it. -/
def roundInt (r : Rnd) (s : Bool) (m : Nat) (e : Int) : Int × Bool :=
  let (a, ix) : Nat × Bool := if 0 ≤ e then (m * 2 ^ e.toNat, false) else roundShift r s m (-e).toNat
  (if s then -(a : Int) else (a : Int), ix)

/-- Clamp an integer to a range, and whether that changes it. -/
def clampInt (lo hi x : Int) : Int × Bool := if x < lo then (lo, true) else if hi < x then (hi, true) else (x, false)

/-- A conversion to an integer format: rounded, then clamped; clamping, infinities and NaN set `NV` alone (06 R452). -/
def toInteger (r : Rnd) (w : Nat) (signed : Bool) (v : FVal) : Int × Flg :=
  let (lo, hi) := intRange w signed
  match v with
  | .nan => (0, .invalid)
  | .inf s => (if s then lo else hi, .invalid)
  | .fin s m e =>
    let (x, ix) := roundInt r s m e
    let (y, c) := clampInt lo hi x
    if c then (y, .invalid) else (y, { nx := ix })

/-- The exact value of an encoding in any format of numbers. -/
def decodeAny (code raw : Nat) : FVal :=
  match floatFmt code with
  | some f => f.decode raw
  | none => match intFmt code with
    | some (w, s) => FVal.ofInt (if s then toSigned w (raw % 2 ^ w) else (raw % 2 ^ w : Nat))
    | none => .nan

/-- Round a value to any format of numbers and encode it, with the flags; `rnd` rounds to a floating format. -/
def encodeBy (rnd : FFmt → Rnd → FVal → FVal × Flg) (code : Nat) (r : Rnd) (v : FVal) : Nat × Flg :=
  match floatFmt code with
  | some f => let (x, g) := rnd f r v
              (f.encode x, g)
  | none => match intFmt code with
    | some (w, s) => let (x, g) := toInteger r w s v
                     (ofSigned w x, g)
    | none => (0, .none)

/-- Round and encode as `VCVT` does (10 R252). -/
def encodeAny (code : Nat) (r : Rnd) (v : FVal) : Nat × Flg := encodeBy FFmt.convert code r v

/-- Convert an encoding from one format to another as `VCVT` does (10 R252). -/
def convertAny (src dst : Nat) (r : Rnd) (raw : Nat) : Nat × Flg := encodeAny dst r (decodeAny src raw)

/-- Convert as `FCVT` does, by the rules of arithmetic (07 R185; 06 R452). -/
def fcvtAny (src dst : Nat) (r : Rnd) (raw : Nat) : Nat × Flg := encodeBy FFmt.round dst r (decodeAny src raw)

/-- Convert as the DRAIN instruction does (10 R263). -/
def drainAny (src dst : Nat) (r : Rnd) (raw : Nat) : Nat × Flg := encodeBy FFmt.drainTo dst r (decodeAny src raw)

end Sys2Proof.Machine
end

