-- ==== Sys2Proof/Machine/ArrayMath.lean ====
section
/-! DEFINITION. The arithmetic of the matrix arrays: products, column sums, accumulation, stochastic rounding and the drain
pipeline (04 R106 to R125). -/

namespace Sys2Proof.Machine

/-! ## Stochastic rounding (04 R120) -/

/-- `mix` of R120. -/
def srMix (x : Word) : Word :=
  let x := x ^^^ (x >>> 30)
  let x := x * 0xA5C31E974D2B86F1
  let x := x ^^^ (x >>> 27)
  let x := x * 0x6B3FD8A1C9472E5D
  x ^^^ (x >>> 31)

/-- `srbits` of R120: 24 random bits. -/
def srBits (seed : Word) (step m n k site : Nat) : Nat :=
  let w (x : Nat) : Word := BitVec.ofNat 64 (x % 2 ^ 32)
  let h := srMix (seed ^^^ w step)
  let h := srMix (h ^^^ ((w m <<< 32) ||| w n))
  let h := srMix (h ^^^ ((w k <<< 8) ||| BitVec.ofNat 64 site))
  (h >>> 40).toNat

/-! ## Formats of the arrays (03 R71, R72; 04 R110) -/

/-- The input formats of the arrays (03 R71). -/
def arrayInputs : List Nat :=
  [0x00, 0x01, 0x02, 0x05, 0x06, 0x08, 0x09, 0x0A, 0x0B, 0x0C, 0x0D, 0x0E, 0x0F, 0x10, 0x20, 0x21, 0x22, 0x23, 0x24]

/-- An MX format. -/
def isMx (code : Nat) : Bool := decide (0x20 ≤ code ∧ code ≤ 0x24)

/-- Output columns per cell column in the slice mode of a format (03 R72). -/
def sliceCols (code : Nat) : Nat := if code = 0x10 then 1 else if code = 0x0F ∨ code = 0x02 then 2 else 4

/-- The accumulate formats that pair with an input format (04 R110). -/
def accFor (code : Nat) : List Nat :=
  if (intFmt code).isSome then [0x03] else if code = 0x0F then [0x19] else if code = 0x10 then [0x1A] else [0x18, 0x1B]

/-- The accumulate formats (04 R108). -/
def accFormats : List Nat := [0x03, 0x18, 0x19, 0x1A, 0x1B]

/-- The vectors that a tile holds in an accumulate format (04 R110). -/
def tileRows (acc : Nat) : Nat := if acc = 0x1B ∨ acc = 0x03 then 80 else 64

/-- The columns that a tile holds in an accumulate format (04 R110). -/
def tileCols (acc : Nat) : Nat := if acc = 0x19 then 128 else if acc = 0x1A then 64 else 256

/-- The accumulate format as a floating-point format; W40 for INT32, whose sums are integers. -/
def accFloat (acc : Nat) : FFmt := (floatFmt acc).getD { width := 40, eb := 8, fb := 31, bias := 127 }

/-! ## Tile flags (04 R125) -/

/-- The sticky flags of a tile. -/
structure TFlags where
  sat : Bool := false
  nv : Bool := false
  of : Bool := false
deriving DecidableEq, Repr

def TFlags.none : TFlags := {}

def TFlags.or (a b : TFlags) : TFlags := { sat := a.sat || b.sat, nv := a.nv || b.nv, of := a.of || b.of }

/-- The tile flags of an operation in floating point. -/
def tileFlags (g : Flg) : TFlags := { nv := g.nv, of := g.of }

/-! ## Sums (04 R111, R112, R114) -/

/-- The random bits of the roundings of one result: the seed and the logical coordinates (04 R120). -/
structure SrCtx where
  seed : Word
  step : Nat
  m : Nat
  n : Nat
  korg : Nat
deriving DecidableEq, Repr

/-- The rounding of an accumulate format at an event (04 R119, R120). -/
def accRnd (acc : Nat) (c : SrCtx) (site k : Nat) : Rnd := if acc = 0x1B then .sr (srBits c.seed c.step c.m c.n k site) else .rne

/-- A subnormal element taken as a zero of the same sign (04 R107). -/
def flushIn (daz : Bool) (code raw : Nat) : FVal :=
  match floatFmt code with
  | some f =>
    match f.decode raw with
    | .fin s m e => if daz && decide (bits raw (if f.explicit then f.fb + 1 else f.fb) f.eb = 0) then .fin s 0 0 else .fin s m e
    | v => v
  | none => decodeAny code raw

/-- An exact product with the E8M0 scales of its MX blocks; a scale FFh makes it NaN (04 R106). -/
def scaledProduct (mx : Bool) (xa xb : Nat) (a b : FVal) : FVal × Bool :=
  if mx ∧ (xa = 255 ∨ xb = 255) then (.nan, false)
  else
    let p := a.mul b
    match p.1 with
    | .fin s m e => (.fin s m (if mx then e + xa + xb - 254 else e), p.2)
    | _ => p

/-- The column sum of floating-point products, in logical row order from row `i` on (04 R111). -/
def columnSum (acc : Nat) (c : SrCtx) : Nat → FVal → TFlags → List (FVal × Bool) → FVal × TFlags
  | _, s, g, [] => (s, g)
  | i, s, g, p :: ps =>
    let r := accRnd acc c 0 (c.korg + i)
    let f := accFloat acc
    let x : FVal × Bool := if p.2 then p else if i = 0 then p else s.add p.1 false
    let (v, h) := f.deliver r x
    columnSum acc c (i + 1) v (g.or (tileFlags h)) ps

/-- An addition in 32 bits, wrapping or clamping (04 R114). -/
def satAdd32 (clamp : Bool) (a b : Int) : Int × TFlags :=
  let x := a + b
  let (y, out) := clampInt (-(2 ^ 31 : Nat)) ((2 ^ 31 : Nat) - 1) x
  if out then (if clamp then y else toSigned 32 (ofSigned 32 x), { sat := true }) else (x, .none)

/-- The column sum of integer products (04 R114). -/
def columnSumInt (clamp : Bool) (ps : List Int) : Int × TFlags :=
  ps.foldl (fun r p => let (x, g) := satAdd32 clamp r.1 p
                       (x, r.2.or g)) (0, .none)

/-- A tile entry after `MXA`: the entry and the column sum, in one rounding (04 R112). -/
def tileAdd (acc : Nat) (clamp : Bool) (c : SrCtx) (old sum : Nat) : Nat × TFlags :=
  if acc = 0x03 then
    let (x, g) := satAdd32 clamp (toSigned 32 old) (toSigned 32 sum)
    (ofSigned 32 x, g)
  else
    let f := accFloat acc
    let (v, h) := f.deliver (accRnd acc c 1 c.korg) ((f.decode old).add (f.decode sum) false)
    (f.encode v, tileFlags h)

/-! ## The drain pipeline (04 R117, R122 to R124) -/

/-- The settings of a `DRAIN` (05 R139). -/
structure DrainCfg where
  out : Nat
  aux : Nat
  tfmt : Nat
  eop : Nat
  scmode : Nat
  rmode : Nat
  ovf : Bool
  ftz : Bool
  clamp : Bool
deriving DecidableEq, Repr

/-- A value in the drain: an integer of 32 bits, or a value of the working format. -/
inductive DVal where
  | int (x : Int)
  | flt (v : FVal)
deriving DecidableEq, Repr

/-- The working format (04 R122). -/
def DrainCfg.work (d : DrainCfg) : Nat := if d.tfmt = 0x19 then 0x19 else if d.tfmt = 0x1A then 0x1A else 0x18

/-- Whether stage 2 converts an INT32 tile to W40 (04 R122). -/
def DrainCfg.stage2 (d : DrainCfg) : Bool :=
  decide (d.tfmt = 0x03) && (decide (d.scmode ≠ 0) || (decide (d.eop ≠ 0) && (floatFmt d.aux).isSome) || (floatFmt d.out).isSome)

/-- Stage 1: the entry, or the combine of a split (04 R117). An overflow to infinity of a combine sets OF, as one of a tile addition does:
R125 names the combine in no case of OF (DESIGN CHOICE, log entry 65). -/
def combine (d : DrainCfg) (c : SrCtx) (raws : List Nat) : DVal × TFlags :=
  if d.tfmt = 0x03 then
    let x (i : Nat) : Int := toSigned 32 (nth 0 raws i)
    let add (a b : Int × TFlags) : Int × TFlags :=
      let (y, g) := satAdd32 d.clamp a.1 b.1
      (y, (a.2.or b.2).or g)
    let r : Int × TFlags := match raws.length with
      | 4 => add (add (x 0, .none) (x 1, .none)) (add (x 2, .none) (x 3, .none))
      | 2 => add (x 0, .none) (x 1, .none)
      | _ => (x 0, .none)
    (.int r.1, r.2)
  else
    let f := accFloat d.tfmt
    let x (i : Nat) : FVal × TFlags := (f.decode (nth 0 raws i), .none)
    let add (k : Nat) (a b : FVal × TFlags) : FVal × TFlags :=
      let (v, h) := f.deliver (accRnd d.tfmt c 3 k) (a.1.add b.1 false)
      (v, (a.2.or b.2).or (tileFlags h))
    let r : FVal × TFlags := match raws.length with
      | 4 => add 2 (add 0 (x 0) (x 1)) (add 1 (x 2) (x 3))
      | 2 => add 0 (x 0) (x 1)
      | _ => x 0
    (.flt r.1, r.2)

/-- Stages 2 to 4: conversion, scale, element-wise operation (04 R122). `e` is the raw element of the E tensor. -/
def drainStages (d : DrainCfg) (scale : FVal) (e : Nat) (x : DVal × TFlags) : DVal × TFlags :=
  let w := accFloat d.work
  let v2 : DVal := match x.1 with
    | .int i => if d.stage2 then .flt (FVal.ofInt i) else .int i
    | v => v
  match v2 with
  | .int i =>
    if d.eop = 0 then (.int i, x.2)
    else
      let y := match intFmt d.aux with
        | some (wd, sg) => if sg then toSigned wd (e % 2 ^ wd) else ((e % 2 ^ wd : Nat) : Int)
        | none => 0
      let r := if d.eop = 1 then i + y else i * y
      let (cl, out) := clampInt (-(2 ^ 31 : Nat)) ((2 ^ 31 : Nat) - 1) r
      (.int (if out ∧ !d.clamp then toSigned 32 (ofSigned 32 r) else cl), x.2.or { sat := out })
  | .flt v =>
    let (v3, g3) : FVal × Flg := if d.scmode = 0 then (v, .none) else w.mul .rne v scale
    let ev := decodeAny d.aux e
    let (v4, g4) : FVal × Flg :=
      if d.eop = 1 then w.add .rne v3 ev else if d.eop = 2 then w.mul .rne v3 ev else (v3, .none)
    let bad : TFlags := { nv := decide (d.eop ≠ 0) && decide (d.aux = 0x1A) && !w80Canonical e }
    (.flt v4, ((x.2.or (tileFlags g3)).or (tileFlags g4)).or bad)

/-- A subnormal result replaced by a zero of its sign (04 R107). -/
def flushOut (ftz : Bool) (f : FFmt) (v : FVal) : FVal :=
  match v with
  | .fin s m e => if ftz && decide (m ≠ 0) && decide (e + (Nat.log2 m : Int) < f.emin) then .fin s 0 0 else .fin s m e
  | v => v

/-- The rounding mode of the last stage (04 R119, R122). -/
def DrainCfg.rnd (d : DrainCfg) (c : SrCtx) : Rnd :=
  if d.rmode = 0 then .rne else if d.rmode = 1 then .rz else .sr (srBits c.seed c.step c.m c.n 0 2)

/-- FP8 E4M3 beyond its largest finite value with `OVF` = 1: the largest finite value (04 R123). -/
def saturateE4m3 (d : DrainCfg) (f : FFmt) (v r : FVal) : FVal :=
  if d.ovf ∧ f.top = .e4m3 ∧ r = .nan ∧ v ≠ .nan then .fin v.negative f.maxFinite.1 f.maxFinite.2 else r

/-- A finite value beyond the largest finite value of a format. -/
def FFmt.exceeds (f : FFmt) (v : FVal) : Bool :=
  match v with
  | .fin _ m e => decide (magLt f.maxFinite.1 f.maxFinite.2 m e)
  | _ => false

/-- Stage 5 to a format without shared scales (04 R123): under RZ a value beyond the largest finite value sets `OF`, however
little it lies beyond; an infinity lost in an integer format sets `NV` (R125). -/
def drainOut (d : DrainCfg) (c : SrCtx) (x : DVal) : Nat × TFlags :=
  match x, intFmt d.out with
  | .int i, some (w, sg) =>
    let (lo, hi) := intRange w sg
    let (y, out) := clampInt lo hi i
    (ofSigned w (if out ∧ d.clamp then y else i), { sat := out })
  | .int _, none => (0, .none)
  | .flt v, some (w, sg) =>
    let (lo, hi) := intRange w sg
    match v with
    | .nan => (0, { nv := true })
    | .inf s => (ofSigned w (if s then lo else hi), { sat := true, nv := true })
    | .fin s m e =>
      let (i, _) := roundInt (d.rnd c) s m e
      let (y, out) := clampInt lo hi i
      (ofSigned w y, { sat := out })
  | .flt v, none =>
    match floatFmt d.out with
    | some f =>
      let (r, g) := f.drainTo (d.rnd c) v
      (f.encode (flushOut d.ftz f (saturateE4m3 d f v r)), (tileFlags g).or { of := decide (d.rnd c = .rz) && f.exceeds v })
    | none => (0, .none)

/-- The largest exponent of an element format in an MX block (04 R124). -/
def mxEmax (code : Nat) : Int :=
  if code = 0x22 then 4 else if code = 0x23 then 8 else if code = 0x24 then 15 else 2

/-- The magnitude exponent of a value: floor(log2 |v|); none for a zero. -/
def valueExp : FVal → Option Int
  | .fin _ m e => if m = 0 then none else some (e + (Nat.log2 m : Int))
  | _ => none

/-- Clamp to the largest finite value of a format (04 R124). -/
def FFmt.saturate (f : FFmt) (v r : FVal) : FVal :=
  match r with
  | .fin s m e => .fin s m e
  | _ => .fin v.negative f.maxFinite.1 f.maxFinite.2

/-- An MX block: its scale byte, its elements, its flags (04 R124). Each value comes with its coordinates. -/
def mxBlock (d : DrainCfg) (xs : List (FVal × SrCtx)) : Nat × List Nat × TFlags :=
  let f := (floatFmt d.out).getD { width := 8, eb := 4, fb := 3, bias := 7, top := .e4m3 }
  if xs.any (fun x => x.1.isNan || x.1.isInf) then (0xFF, xs.map (fun _ => 0), { nv := true })
  else
    match (xs.filterMap (fun x => valueExp x.1)) with
    | [] => (0, xs.map (fun x => f.encode (.fin x.1.negative 0 0)), .none)
    | e :: es =>
      let top := es.foldl max e
      let x : Int := max (-127) (min 127 (top - mxEmax d.out))
      ((x + 127).toNat, xs.map (fun y =>
        let v : FVal := match y.1 with
          | .fin s m q => .fin s m (q - x)
          | v => v
        let r := (f.drainTo (d.rnd y.2) v).1
        f.encode (flushOut d.ftz f (f.saturate v r))), .none)

end Sys2Proof.Machine
end

