-- ==== Sys2Proof/Machine/Lz4.lean ====
section
/-! DEFINITION. Compressed streams: chunk headers, and the LZ4 block format by its published definition (11 R287;
log entry 14). -/

namespace Sys2Proof.Machine

/-! ## LZ4 blocks -/

/-- The bytes of a length beyond 15: each 255 goes on. -/
def lz4Length : List Byte → Option (Nat × List Byte)
  | [] => none
  | b :: bs =>
    if b = 255 then (lz4Length bs).map (fun x => (x.1 + 255, x.2))
    else some (b.toNat, bs)

/-- A length of a sequence: a nibble, continued by bytes where it is 15. -/
def lz4Field (nibble : Nat) (bs : List Byte) : Option (Nat × List Byte) :=
  if nibble = 15 then (lz4Length bs).map (fun x => (x.1 + 15, x.2)) else some (nibble, bs)

/-- Append `n` bytes of a match at a distance to the output, which is held in reverse. -/
def lz4Copy (dist : Nat) : Nat → List Byte → List Byte
  | 0, out => out
  | n + 1, out => lz4Copy dist n (nth 0 out (dist - 1) :: out)

/-- Decode sequences; the output is held in reverse with its length, `lastMatch` is where the last match starts. The last
sequence is literals alone, of at least 5 bytes after a match, and a match starts at least 12 bytes before the end. -/
def lz4Seqs : Nat → Option Nat → List Byte → Nat → List Byte → Option (List Byte)
  | 0, _, _, _, _ => none
  | fuel + 1, lastMatch, out, len, bs =>
    match bs with
    | [] => none
    | t :: r =>
      match lz4Field (t.toNat / 16) r with
      | none => none
      | some (lits, r1) =>
        if r1.length < lits then none
        else
          let out1 := (r1.take lits).reverse ++ out
          let len1 := len + lits
          match r1.drop lits with
          | [] =>
            match lastMatch with
            | none => some out1.reverse
            | some m => if 5 ≤ lits ∧ m + 12 ≤ len1 then some out1.reverse else none
          | [_] => none
          | o0 :: o1 :: r2 =>
            let dist := o0.toNat + 256 * o1.toNat
            if dist = 0 ∨ len1 < dist then none
            else match lz4Field (t.toNat % 16) r2 with
            | none => none
            | some (ml, r3) => lz4Seqs fuel (some len1) (lz4Copy dist (ml + 4) out1) (len1 + ml + 4) r3

/-- The bytes that a valid LZ4 block stands for. -/
def lz4Decode (block : List Byte) : Option (List Byte) := lz4Seqs (block.length + 1) none [] 0 block

/-! ## Chunks (11 R287) -/

/-- Bytes of a chunk of the input. -/
def chunkSize : Nat := 65536

/-- The bytes padded with zeros to a multiple of 16. -/
def pad16 (b : List Byte) : List Byte := b ++ List.replicate ((16 - b.length % 16) % 16) 0

/-- A chunk with its header: stored unless the LZ4 block is smaller. What the block's bytes are is not given: a free value,
taken as a block only where it decodes to the chunk (log entry 14). -/
def compressChunk (raw : List Byte) : List Byte :=
  let block := Config.lz4Block raw
  let lz := decide (block.length < raw.length) && decide (lz4Decode block = some raw)
  let payload := if lz then block else raw
  leBytes 4 raw.length ++ leBytes 4 payload.length ++ leBytes 4 (crc32c raw) ++ [if lz then 1 else 0] ++ List.replicate 3 0
    ++ pad16 payload

/-- A chunk header: `RAWLEN`, `PAYLEN`, CRC, method and reserved bits. -/
structure ChunkHeader where
  rawLen : Nat
  payLen : Nat
  crc : Nat
  method : Nat
  reserved : Nat
deriving DecidableEq, Repr

def parseChunk (b : List Byte) : ChunkHeader :=
  let x := leNat (b.take 16)
  { rawLen := bits x 0 32, payLen := bits x 32 32, crc := bits x 64 32, method := bits x 96 8, reserved := bits x 104 24 }

/-- A header that COMPRESS can write. -/
def ChunkHeader.legal (h : ChunkHeader) : Bool :=
  decide (h.rawLen ≤ chunkSize) && decide (h.method ≤ 1) && decide (h.reserved = 0)

/-- The padded length of the payload. -/
def ChunkHeader.padded (h : ChunkHeader) : Nat := (h.payLen + 15) / 16 * 16

/-- The raw bytes of a chunk from its payload: none where the block, the length or the CRC does not fit. -/
def ChunkHeader.expand (h : ChunkHeader) (payload : List Byte) : Option (List Byte) :=
  match (if h.method = 0 then some payload else lz4Decode payload) with
  | none => none
  | some raw => if raw.length = h.rawLen ∧ crc32c raw = h.crc then some raw else none

end Sys2Proof.Machine
end

