-- ==== Sys2Proof/Machine/MoverRow.lean ====
section
/-! DEFINITION. What a mover channel does with a row: its descriptor, the funnel, the units of the transforms, and what a halt
leaves (12 R288, R291 to R295). -/

namespace Sys2Proof.Machine

/-! ## The channels (12 R288) -/

/-- The ETU of a channel. -/
def moverEtu : MoverId → EtuId
  | .cluster d _ _ => .cd d
  | .bulk d _ => .cd d
  | .host _ => .hd

/-- The bulk movers of a CD share a line cache; the other movers make uncached requests (13 R308). `W0[7]` of the descriptor is
the non-temporal hint (12 R290). -/
def State.moverVia (s : State) : MoverId → Via
  | .cluster _ _ _ => .uncached 3
  | .bulk d m => .cached (.engineLines d 7) (bit (nth 0 (s.mover (.bulk d m)).desc 0).toNat 7)
  | .host _ => .uncached 1

/-- The context byte of a channel; bit 7 marks it unbound (02 R44). -/
def State.moverByte (s : State) : MoverId → Nat
  | .cluster d cl _ => s.cctxByte (clusterKey d cl)
  | .bulk d m => s.bulkCtxByte (d.val * 16 + m.val)
  | .host m => s.bulkCtxByte (64 + m.val)

def State.moverCtx (s : State) (m : MoverId) : BitVec 6 := BitVec.ofNat 6 (s.moverByte m)

/-- A channel is powered. -/
def State.moverUp (s : State) : MoverId → Bool
  | .cluster d _ _ => s.cdUp d
  | .bulk d _ => s.cdUp d
  | .host _ => s.powered 2

/-- The interrupt of a channel (12 R288, 17 R408). -/
def State.moverIrq (s : State) : MoverId → State
  | .cluster d cl _ => s.setIpend d cl 1
  | .bulk d m => s.hicSource (0x80 + 16 * d.val + m.val)
  | .host m => s.hicSource (0xC0 + m.val)

/-- Descriptors of the ring. -/
def Mover.slots (x : Mover) : Nat := 2 ^ (x.size.toNat + 4)

/-- The address of the descriptor at `IDX`. -/
def Mover.descVa (x : Mover) : Nat := x.base.toNat * 64 + 64 * x.idx.toNat

/-! ## The descriptor (12 R291) -/

def dW (d : List Word) (i : Nat) : Nat := (nth 0 d i).toNat
def dF (d : List Word) (i lo len : Nat) : Nat := bits (dW d i) lo len
def dXform (d : List Word) : Nat := dF d 0 2 2
def dLen (d : List Word) : Nat := dF d 3 0 32
def dRows (d : List Word) : Nat := if dF d 0 0 2 = 1 then dF d 3 32 32 else 1
def dSfmt (d : List Word) : Nat := dF d 0 8 8
def dDfmt (d : List Word) : Nat := dF d 0 16 8
def dCap (d : List Word) : Nat := dF d 7 0 32

/-- The elements of a row that is converted. -/
def dElems (d : List Word) : Nat := dLen d * 8 / fmtWidth (dSfmt d)

/-- Destination bytes of a row. -/
def dOutLen (d : List Word) : Nat := if dXform d = 1 then rowBytes (dDfmt d) (dElems d) else dLen d

/-- The address of a row. -/
def rowVa (base stride row : Nat) : Nat := (((base : Int) + toSigned 64 stride * row) % (2 ^ 64 : Nat)).toNat

def dSrc (d : List Word) (row : Nat) : Nat := rowVa (dW d 1) (dW d 4) row
def dDst (d : List Word) (row : Nat) : Nat := rowVa (dW d 2) (dW d 5) row

/-- The longest destination row. -/
def dDstLen (d : List Word) : Nat := if 2 ≤ dXform d then dCap d else dOutLen d

/-- The source of one descriptor and the destination of another share a byte. -/
def descOverlap (a b : List Word) : Bool :=
  (countFrom 0 (dRows a)).any (fun i => (countFrom 0 (dRows b)).any (fun j =>
    decide (dSrc a i < dDst b j + dDstLen b) && decide (dDst b j < dSrc a i + dLen a)))

/-- The destination values are undefined: overlap within the descriptor, or with one that it may overtake (12 R294). -/
def Mover.undefinedOut (x : Mover) : Bool :=
  descOverlap x.desc x.desc
  || (!bit (dW x.desc 0) 5 && x.earlier.any (fun p => descOverlap p.1 x.desc || descOverlap x.desc p.1))

/-! ## What stops a channel (12 R295) -/

/-- What stops a channel: a parked access (`desc` for its descriptor), or a halt with cause, direction and addresses. -/
inductive MvStop where
  | park (desc : Bool) (acc : Access) (f : AgentFault)
  | halt (cause : Nat) (write : Bool) (va : Nat) (pa : Option Nat)
deriving DecidableEq, Repr

/-- The stop that a failed access of a transform makes. -/
def mvFault (acc : Access) (f : AgentFault) : MvStop :=
  match f.stop with
  | .page _ _ => .park false acc f
  | .held => .park false acc f
  | .segment => .halt 2 (acc == .write) f.va f.pa
  | .bus => .halt 4 (acc == .write) f.va f.pa
  | .data => .halt 6 (acc == .write) f.va f.pa

/-- The stop of a failed descriptor access: its `FVA` is the descriptor's address. -/
def mvDescFault (x : Mover) (acc : Access) (f : AgentFault) : MvStop :=
  match f.stop with
  | .page _ _ => .park true acc f
  | .held => .park true acc f
  | _ => .halt 7 (acc == .write) x.descVa none

/-! ## The funnel (12 R293) -/

/-- The largest power of two up to 64 that is aligned at `a` and no longer than `n`. -/
def pieceSize (a n : Nat) : Nat :=
  (([64, 32, 16, 8, 4, 2].find? (fun k => decide (a % k = 0) && decide (k ≤ n)))).getD 1

/-- Naturally aligned pieces of a stretch, and whole lines. -/
def naturalPieces : Nat → Nat → Nat → List (Nat × Nat)
  | 0, _, _ => []
  | fuel + 1, a, n =>
    if n = 0 then []
    else
      let k := if a % 128 = 0 ∧ 128 ≤ n then 128 else pieceSize a n
      (a, k) :: naturalPieces fuel (a + k) (n - k)

/-- A failed read, with the first byte of the line that it read: a whole line, or the bytes themselves of a PCIe window
(12 R293, R295). -/
def State.lineFault (s : State) (f : AgentFault) : AgentFault :=
  if (f.pa.map s.kindAt).any (fun k => decide (k = .pcieMem)) then f
  else { f with va := f.va - f.va % 128, pa := f.pa.map (fun a => a - a % 128) }

/-- Read the source from `va` on: the next naturally aligned piece of a PCIe window, where `rest` bytes of the row are left; else the
lines of memory that hold `need` bytes, as far as the page goes (12 R293). -/
def State.funnelPiece (s : State) (m : MoverId) (verify : Bool) (va need rest : Nat) : Except MvStop (List Byte) × State :=
  let id := moverEtu m
  let via := s.moverVia m
  let off := va % 128
  match s.agentLocate id (s.moverCtx m) .read [(va, 1)] with
  | (.error f, s1) => (.error (mvFault .read (s1.lineFault f)), s1)
  | (.ok l, s1) =>
    let pa := (l.headD (0, 0)).1
    if s1.kindAt pa = .pcieMem then
      match s1.pcieRead pa (if off = 0 ∧ 128 ≤ rest then 128 else pieceSize va rest) with
      | (some b, s2) => (.ok b, s2)
      | (none, s2) => (.error (.halt 4 false va (some pa)), s2)
    else
      let n := min need (4096 - va % 4096)
      let lines := [(pa - off, (off + n + 127) / 128 * 128)]
      if s1.readHeld id via lines then (.error (.park false .read { stop := .held, va := va - off, pa := none }), s1)
      else match s1.agentGather via verify (va - off) lines with
      | (.error f, s2) => (.error (mvFault .read (s2.lineFault f)), s2)
      | (.ok b, s2) => (.ok ((b.drop off).take n), s2)

/-- Read `need` source bytes from `va` on, of the `rest` bytes that the row has left. `ahead` are those that have been read already;
the answer is the bytes and those read beyond them. -/
def State.funnelRead (m : MoverId) (verify : Bool) (va need rest : Nat) :
    Nat → List Byte → State → Except MvStop (List Byte × List Byte) × State
  | 0, ahead, s => (.ok (ahead.take need, ahead.drop need), s)
  | fuel + 1, ahead, s =>
    let n := ahead.length
    if need ≤ n then (.ok (ahead.take need, ahead.drop need), s)
    else match s.funnelPiece m verify ((va + n) % 2 ^ 64) (need - n) (rest - n) with
    | (.error w, s1) => (.error w, s1)
    | (.ok b, s1) => State.funnelRead m verify va need rest fuel (ahead ++ b) s1

/-! ## The transforms (12 R292) -/

/-- A unit of work: source bytes consumed and destination bytes produced, or the cause of a halt. -/
structure MvUnit where
  srcLen : Nat
  data : List Byte
  nv : Bool
  of : Bool
deriving DecidableEq, Repr

/-- Free bytes in place of undefined destination values. -/
def freeOut (s : State) (free : Bool) (b : List Byte) : List Byte :=
  if free then (countFrom 0 b.length).map (Config.freeByte s.fresh) else b

/-- Bits of the last byte beyond the converted elements: a byte is written whole, and the spec does not say what they are
(log entry 41). -/
def convertTail (pad : Byte) (w n x : Nat) : Nat :=
  let t := n * w % 8
  if t = 0 then x else x + pad.toNat / 2 ^ t * 2 ^ (t + 8 * (n * w / 8))

/-- Convert a run of elements. -/
def convertRun (sfmt dfmt n : Nat) (src : List Byte) : MvUnit :=
  let x := leNat src
  let res := (elems (fmtWidth sfmt) x n).map (fun r => convertAny sfmt dfmt .rne r)
  let w := fmtWidth dfmt
  { srcLen := src.length, data := leBytes ((n * w + 7) / 8) (convertTail (Config.convertTail sfmt dfmt x) w n (packElems w (res.map (·.1)))),
    nv := res.any (·.2.nv), of := res.any (·.2.of) }

/-- Form the unit of the row in execution that begins at source byte `at'`, with the place it is written to: the bytes up to the
next destination line of a copy, 128 elements of a conversion, a chunk of a compression or decompression; `out` is where the output
of the chunk begins, and `ahead` the source bytes read beyond `at'`, as the answer has those beyond the unit. -/
def State.mvForm (s : State) (m : MoverId) (at' out : Nat) (ahead : List Byte) : Except MvStop (Nat × MvUnit × List Byte) × State :=
  let x := s.mover m
  let d := x.desc
  let verify := bit (dW d 0) 4
  let src := (dSrc d x.row + at') % 2 ^ 64
  let left := dLen d - at'
  let read (n : Nat) (k : List Byte → List Byte → State → Except MvStop (Nat × MvUnit × List Byte) × State) :
      Except MvStop (Nat × MvUnit × List Byte) × State :=
    match State.funnelRead m verify src n left (n + 1) ahead s with
    | (.error w, s1) => (.error w, s1)
    | (.ok (b, more), s1) => k b more s1
  match dXform d with
  | 0 =>
    let dst := dDst d x.row + at'
    read (min left (128 - dst % 128)) (fun b more s1 => (.ok (dst, { srcLen := b.length, data := b, nv := false, of := false }, more), s1))
  | 1 =>
    let w := fmtWidth (dSfmt d)
    let i := at' * 8 / w
    let n := min 128 (dElems d - i)
    read (n * w / 8) (fun b more s1 =>
      (.ok (dDst d x.row + i * fmtWidth (dDfmt d) / 8, convertRun (dSfmt d) (dDfmt d) n b, more), s1))
  | 2 =>
    read (min chunkSize left) (fun raw more s1 =>
      let res := compressChunk raw
      let dst := dDst d 0 + out
      if dCap d < out + res.length then (.error (.halt 8 true (dst % 2 ^ 64) none), s1)
      else (.ok (dst, { srcLen := raw.length, data := res, nv := false, of := false }, more), s1))
  | _ =>
    if left < 16 then (.error (.halt 9 false src none), s)
    else read 16 (fun hb more s1 =>
      let h := parseChunk hb
      if !h.legal ∨ left < 16 + h.padded then (.error (.halt 9 false src none), s1)
      else match State.funnelRead m verify ((src + 16) % 2 ^ 64) h.padded (left - 16) (h.padded + 1) more s1 with
      | (.error w, s2) => (.error w, s2)
      | (.ok (pb, more1), s2) =>
        match h.expand (pb.take h.payLen) with
        | none => (.error (.halt 9 false src none), s2)
        | some raw =>
          let dst := dDst d 0 + out
          if dCap d < out + raw.length then (.error (.halt 8 true (dst % 2 ^ 64) none), s2)
          else (.ok (dst, { srcLen := 16 + h.padded, data := raw, nv := false, of := false }, more1), s2))

/-! ## Halting (12 R295) -/

/-- Source bytes of the unit at `DONE` of a copy or a conversion; 0 where they are not known without reading it. -/
def Mover.unitSpan (x : Mover) : Nat :=
  let d := x.desc
  let done := x.done.toNat
  match dXform d with
  | 0 => min (dLen d - done) (128 - (dDst d x.row + done) % 2 ^ 64 % 128)
  | 1 => min 128 (dElems d - done * 8 / fmtWidth (dSfmt d)) * fmtWidth (dSfmt d) / 8
  | _ => 0

/-- Bytes that may have been written when their channel halts: a free bit says of each whether it holds its new value. -/
def State.mvTouch (s : State) (m : MoverId) (va : Nat) (data : List Byte) : State :=
  ((countFrom 0 data.length).zip data).foldl (fun (t : State) p =>
    if (Config.freeByte s.fresh p.1).toNat % 2 = 1 then
      match t.agentWrite (moverEtu m) (s.moverVia m) (t.moverCtx m) ((va + p.1) % 2 ^ 64) [p.2] with
      | (.ok t1, _) => t1
      | (.error _, _) => t
    else t) s.bump

/-- The units of the current row from `DONE` on, as a halt leaves them. -/
def State.mvLate (m : MoverId) : Nat → State → State
  | 0, s => s
  | fuel + 1, s =>
    let x := s.mover m
    if dLen x.desc ≤ x.done.toNat then s
    else match s.mvForm m x.done.toNat x.out [] with
    | (.ok (dst, u, _), _) =>
      let s1 := s.mvTouch m (dst % 2 ^ 64) (freeOut s.bump x.undefinedOut u.data)
      State.mvLate m fuel (s1.bump.setMover m { x with done := BitVec.ofNat 32 (x.done.toNat + u.srcLen), out := x.out + u.data.length })
    | (.error _, _) =>
      if x.unitSpan = 0 then s
      else State.mvLate m fuel (s.setMover m { x with done := BitVec.ofNat 32 (x.done.toNat + x.unitSpan) })

/-- Destination bytes of the current row produced from source bytes at or above `DONE` each hold the old or the new value
after a halt of a transform (12 R295). -/
def State.mvRest (s : State) (m : MoverId) (cause : Nat) : State :=
  let x := s.mover m
  if x.desc = [] ∨ x.handing.isSome ∨ cause = 1 ∨ cause = 7 then s
  else (State.mvLate m (dLen x.desc) s).setMover m x

/-! ## Containment (18 R435) -/

/-- The channels of a compute die. -/
def cdMovers (d : Fin 4) : List MoverId :=
  (countFrom 0 24).flatMap (fun c => [.cluster d (Fin.ofNat 24 c) 0, .cluster d (Fin.ofNat 24 c) 1])
  ++ (countFrom 0 16).map (fun m => .bulk d (Fin.ofNat 16 m))

/-- Report a CONTAINED record. Each channel that its containment halts raises its interrupt, and its current row is left as a halt
leaves it (12 R295). A channel and an engine that it stops wait no longer for an access that is parked (12 R304). -/
def State.reportStop (s : State) (r : McRec) : State :=
  let s1 := s.report r
  if r.die = 0 ∨ 4 < r.die then s1
  else
    let d : Fin 4 := Fin.ofNat 4 (r.die - 1)
    let s2 := (cdMovers d).foldl (fun (t : State) m =>
      if (s.mover m).st ≠ .halted ∧ (s1.mover m).st = .halted then
        (((t.mvRest m 0).moverIrq m).dropRequester (.cd d) (.mover m false)).dropRequester (.cd d) (.mover m true)
      else t) s1
    allEngines.foldl (fun (t : State) k =>
      let e : EngineId := ⟨d, k⟩
      if (s.engine e).st ≠ .fault ∧ (s1.engine e).st = .fault ∧ (s.engine e).parked then
        (t.dropRequester (.cd d) (.engine e .data)).dropRequester (.cd d) (.engine e .desc)
      else t) s2

end Sys2Proof.Machine
end

