-- ==== Sys2Proof/Machine/Operands.lean ====
section
/-! DEFINITION. What an instruction reads and writes in its core: registers by bank, prefixes and lengths, immediates,
effective addresses, and the classification of its memory accesses. -/

namespace Sys2Proof

/-! ## The encoded operands -/

open Machine

/-- The D registers that a list of operands names. -/
def XReg.dregs : XReg → List (Fin 32)
  | .a _ => []
  | .d n => [n]

/-- The number of prefixes (07 R181). -/
def Pfx.count (p : Pfx) : Nat :=
  b2n (p.ext ≠ .none) + b2n p.pred.isSome + b2n p.nt + b2n p.ar + b2n p.upper + b2n p.type.isSome

/-- The bytes of the prefixes: EFh has one more (07 R180). -/
def Pfx.bytes (p : Pfx) : Nat := p.count + b2n p.type.isSome

/-- The size of an extendable immediate (07 R183). -/
def Pfx.immSize (p : Pfx) (base : Nat) : Nat :=
  match p.ext with
  | .none => base
  | .bytes4 => 4
  | .bytes8 => 8

/-- The bytes of a memory operand (07 R187). -/
def MemOp.bytes (m : MemOp) : Nat :=
  match m.mode with
  | .base => 1
  | .disp16 _ => 3
  | .disp32 _ => 5
  | .index _ _ => 2

/-- The D registers of a memory operand. -/
def MemOp.dregs (m : MemOp) : List (Fin 32) :=
  match m.mode with
  | .index k _ => [k]
  | _ => []

/-- The bytes of a scalar access. -/
def MemWidth.size : MemWidth → Nat
  | .b => 1
  | .h => 2
  | .w => 4
  | .d => 8

end Sys2Proof

namespace Sys2Proof.Machine

/-! ## Registers (06 R152, R159) -/

/-- The number of a privilege level (06 R159). -/
def Level.num : Level → Nat
  | .machine => 0
  | .supervisor => 1
  | .user => 2

/-- The level of a number; 3 is never used. -/
def levelOf (n : Nat) : Level := if n = 0 then .machine else if n = 1 then .supervisor else .user

/-- The bank of a level. -/
def Core.bank (k : Core) : Level → Bank
  | .machine => k.bm
  | .supervisor => k.bs
  | .user => k.bu

/-- Replace the bank of a level. -/
def Core.setBank (k : Core) (l : Level) (b : Bank) : Core :=
  match l with
  | .machine => { k with bm := b }
  | .supervisor => { k with bs := b }
  | .user => { k with bu := b }

/-- The trap registers of a level; the user level has none, and reads those of the supervisor (never reached). -/
def Core.trapRegs (k : Core) : Level → TrapRegs
  | .machine => k.tm
  | _ => k.ts

/-- Replace the trap registers of a level. -/
def Core.setTrapRegs (k : Core) (l : Level) (t : TrapRegs) : Core :=
  match l with
  | .machine => { k with tm := t }
  | _ => { k with ts := t }

/-- An A register of a level's bank. -/
def Core.getAL (k : Core) (l : Level) (n : Nat) : Word := mget 0 (k.bank l).a n
/-- Write an A register of a level's bank. -/
def Core.setAL (k : Core) (l : Level) (n : Nat) (w : Word) : Core := k.setBank l { k.bank l with a := mset 0 (k.bank l).a n w }
/-- A D register of a level's bank. -/
def Core.getDL (k : Core) (l : Level) (n : Nat) : Word := mget 0 (k.bank l).d n
/-- Write a D register of a level's bank. -/
def Core.setDL (k : Core) (l : Level) (n : Nat) (w : Word) : Core := k.setBank l { k.bank l with d := mset 0 (k.bank l).d n w }

/-- Every instruction uses the bank of the current level (06 R159). -/
def Core.getA (k : Core) (n : Fin 16) : Word := k.getAL k.status.pl n.val
def Core.setA (k : Core) (n : Fin 16) (w : Word) : Core := k.setAL k.status.pl n.val w
def Core.getD (k : Core) (n : Fin 32) : Word := k.getDL k.status.pl n.val
def Core.setD (k : Core) (n : Fin 32) (w : Word) : Core := k.setDL k.status.pl n.val w

def Core.getX (k : Core) : XReg → Word
  | .a n => k.getA n
  | .d n => k.getD n

def Core.setX (k : Core) (x : XReg) (w : Word) : Core :=
  match x with
  | .a n => k.setA n w
  | .d n => k.setD n w

/-- V and P registers are not banked (06 R159). -/
def Core.getV (k : Core) (n : Fin 32) : BitVec 16384 := mget 0 k.v n.val
def Core.setV (k : Core) (n : Fin 32) (w : BitVec 16384) : Core := { k with v := mset 0 k.v n.val w }
def Core.getP (k : Core) (n : Fin 8) : BitVec 2048 := mget 0 k.p n.val
def Core.setP (k : Core) (n : Fin 8) (w : BitVec 2048) : Core := { k with p := mset 0 k.p n.val w }

/-- VLEN in bits (06 R154, R179). -/
def vlen : CoreId → Nat
  | .sycen _ _ => 16384
  | .hazia _ => 512

/-- Perform a waiting load write (06 R162). -/
def PendWrite.apply (k : Core) : PendWrite → Core
  | .a l n w => k.setAL l n w
  | .d l n w => k.setDL l n w
  | .v n w => { k with v := mset 0 k.v n w }

/-- Perform the waiting load write, if any. -/
def Core.settle (k : Core) : Core :=
  match k.pend with
  | some w => { w.apply k with pend := none }
  | none => k

/-- The mode in which the instruction at the program counter executes: its tag (08 R214, 09 R236); a Hazia core is
always interlocked (06 R179). -/
def tagMode (c : CoreId) (k : Core) : Bool :=
  match c with
  | .hazia _ => true
  | .sycen _ _ => if k.shCnt = 0 then k.status.mode else k.shMode

/-! ## Prefixes, lengths and immediates (07 R180 to R184) -/

/-- What the encoding of an instruction fixes: its bytes without prefixes (07 R192), the base size of an extendable
immediate (0: none) and whether E1h is accepted, its D operands, the prefixes it accepts, the TYPE codes it accepts, and
whether it may stand in a delay slot (06 R166) or on a Hazia core (06 R179); `unpaired`: a long operation or an access to memory, which
ends a constrained pair as an `nt` form does (06 R164, R177); `exclusive`: `LR` or `SC`, the ends of such a pair. -/
structure Shape where
  bytes : Nat
  imm : Nat := 0
  e8 : Bool := true
  d : List (Fin 32) := []
  pred : Bool := false
  nt : Bool := false
  ar : Bool := false
  types : List Nat := []
  noSlot : Bool := false
  sycenOnly : Bool := false
  unpaired : Bool := false
  exclusive : Bool := false
deriving DecidableEq, Repr

/-- The length of an instruction in bytes (07 R180). -/
def Shape.len (sh : Shape) (p : Pfx) : Nat :=
  sh.bytes + p.bytes + (if sh.imm = 0 then 0 else p.immSize sh.imm - sh.imm)

/-- Whether the prefixes are legal on the instruction (07 R181 to R185). -/
def Shape.legal (sh : Shape) (p : Pfx) : Bool :=
  decide (p.count ≤ 4)
  && (match p.ext with
      | .none => true
      | .bytes4 => decide (sh.imm ≠ 0)
      | .bytes8 => decide (sh.imm ≠ 0) && sh.e8)
  && (p.pred.isNone || sh.pred) && (!p.nt || sh.nt) && (!p.ar || sh.ar)
  && (if p.upper then sh.d.any (fun n => decide (16 ≤ n.val)) else sh.d.all (fun n => decide (n.val < 16)))
  && (match p.type with
      | none => true
      | some t => sh.types.contains t.toNat)
  && decide (sh.len p ≤ 16)

/-- An immediate field sign-extended from its size (07 R183). -/
def immSigned (p : Pfx) (base : Nat) (i : Word) : Word :=
  BitVec.ofInt 64 (toSigned (8 * p.immSize base) (i.toNat % 2 ^ (8 * p.immSize base)))

/-- An immediate field zero-extended from its size (07 R183). -/
def immZero (p : Pfx) (base : Nat) (i : Word) : Word := BitVec.ofNat 64 (i.toNat % 2 ^ (8 * p.immSize base))

/-! ## Memory operands (07 R187) -/

/-- The effective address, modulo 2^64 (07 R187). -/
def eaOf (m : MemOp) (k : Core) : Word :=
  match m.mode with
  | .base => k.getA m.base
  | .disp16 d => k.getA m.base + d.signExtend 64
  | .disp32 d => k.getA m.base + d.signExtend 64
  | .index i sc => k.getA m.base + k.getD i * BitVec.ofNat 64 (2 ^ sc.val)

/-! ## Accesses of a core (09 R225 item 6) -/

/-- An access that cannot be made: a trap with its cause, detail and address, or a page fault with what the walk
reported, at an address. -/
inductive AccessFault where
  | trap (cause detail : Nat) (va : Word)
  | privilege
  | page (cause level : Nat) (va : Word)
deriving DecidableEq, Repr

/-- Cut a virtual range at 4 KiB boundaries: at most `fuel` pieces of address and size. -/
def pagePieces : Nat → Nat → Nat → List (Nat × Nat)
  | 0, _, _ => []
  | fuel + 1, va, n =>
    if n = 0 then []
    else
      let room := min n (4096 - va % 4096)
      (va, room) :: pagePieces fuel ((va + room) % 2 ^ 64) (n - room)

/-- The ETU of a sequencer's die (01 R30). -/
def seqEtu (d : Fin 4) : EtuId := .cd d

/-- The context of a cluster (02 R44). -/
def State.cctx (s : State) (cl : Nat) : BitVec 6 := BitVec.ofNat 6 (s.cctxByte cl)

/-- Translate one address for a core: the ETU of its die, or the MMU of a Hazia core, whose pages are of 1 GiB, 2 MiB and 4 KiB (01
R30, 06 R179, log entry 9). -/
def State.coreTranslate (s : State) (c : CoreId) (va : Nat) (acc : Access) : Trans × State :=
  match c with
  | .sycen d nn => s.translate (seqEtu d) (s.cctx (clusterKey d nn)) va acc true
  | .hazia k =>
    if !canonical va then (.address, s)
    else match Config.haziaTranslate k.val (va / 4096) (acc == .write) (acc == .fetch) s.fresh with
      | some (level, frame) =>
        let size := 2 ^ levelBits (level.val + 1)
        (.ok ((frame * size + va % size) % 2 ^ 52), s.bump)
      | none => (.page 1 1, s.bump)

/-- The place of a failed translation in the order of 09 R225 item 6. -/
def Trans.rank : Trans → Nat
  | .ok _ => 9
  | .address => 1
  | .segment _ => 3
  | .page _ _ => 5
  | .bus => 7

/-- The place of a failed access in the order of 09 R225 items 3 and 6. -/
def AccessFault.rank : AccessFault → Nat
  | .privilege => 0
  | .page _ _ _ => 5
  | .trap cause _ _ =>
    match cause with
    | 0x0A => 1
    | 0x08 => 2
    | 0x0B => 3
    | 0x06 => 4
    | 0x09 => 6
    | 0x0D => 7
    | _ => 8

/-- Translate the pieces of an access in order. Of several that fail, the first in the order of 09 R225 decides. -/
def State.translatePieces (s : State) (c : CoreId) (acc : Access) :
    List (Nat × Nat) → Except (Trans × Nat) (List (Nat × Nat)) × State
  | [] => (.ok [], s)
  | (va, n) :: rest =>
    match s.coreTranslate c va acc with
    | (.ok pa, s1) =>
      match s1.translatePieces c acc rest with
      | (.ok l, s2) => (.ok ((pa, n) :: l), s2)
      | (.error e, s2) => (.error e, s2)
    | (t, s1) =>
      match s1.translatePieces c acc rest with
      | (.error (u, b), s2) => if u.rank < t.rank then (.error (u, b), s2) else (.error (t, va), s1)
      | (.ok _, _) => (.error (t, va), s1)

/-- The first byte of a store that lies in a shadow stack of any bank, below machine level (09 R241). -/
def Core.shadowByte (k : Core) (va size : Nat) : Option Nat :=
  if k.status.pl = .machine then none
  else
    let hits := [k.bm, k.bs, k.bu].filterMap (fun b =>
      let a := max va b.ssBase.toNat
      if a < min (va + size) b.ssLimit.toNat then some a else none)
    match hits with
    | [] => none
    | a :: as => some (as.foldl min a)

/-- The address of the first located piece that a test refuses; `va` is that of the first piece. -/
def badPiece (ok : Nat → Nat → Bool) : Nat → List (Nat × Nat) → Option Nat
  | _, [] => none
  | va, (pa, n) :: l => if ok pa n then badPiece ok (va + n) l else some va

/-- What an access requires besides its translation; `reads`: a write that also needs the permission to read (06 R175, R176, R178). -/
structure AccessNeeds where
  acc : Access
  size : Nat
  align : Bool := false
  store : Bool := false
  atomic : Bool := false
  reads : Bool := false
deriving DecidableEq, Repr

/-- Whether a located access reaches its unit for a core: a Hazia core is bound by the bus rules alone, a sequencer also
by the forbidden parts of its pages (12 R300). -/
def State.coreBusOk (s : State) (c : CoreId) (pa size : Nat) : Bool :=
  match c with
  | .sycen _ _ => s.etuBusOk true pa size
  | .hazia _ => s.busOk pa size

/-- The permission to read that the segment of an access lacks, as its bit of `TRAPINFO.DETAIL`; 0: it has it, or none is asked (09
R223; 12 R298). -/
def State.readDenied (s : State) (c : CoreId) (va : Nat) (n : AccessNeeds) : Nat :=
  match c with
  | .sycen d nn =>
    if n.reads then
      match (s.etu (seqEtu d)).check (s.cctx (clusterKey d nn)).toNat va .read with
      | .error (.segment m) => m
      | _ => 0
    else 0
  | .hazia _ => 0

/-- Locate an access of a core: the physical pieces, or the first condition of 09 R225 item 6 that it meets. A register
window below supervisor level is a privilege fault (06 R161), which precedes them. -/
def State.locate (s : State) (c : CoreId) (k : Core) (va : Word) (n : AccessNeeds) :
    Except AccessFault (List (Nat × Nat)) × State :=
  let v := va.toNat
  let (r, s1) := s.translatePieces c n.acc (pagePieces (n.size / 4096 + 2) v n.size)
  let userWindow : Bool := match r with
    | .ok l => decide (k.status.pl = .user) && l.any (fun x => (s.kindAt x.1).registerWindow)
    | .error _ => false
  let last := (v + n.size - 1) % 2 ^ 64
  if userWindow then (.error .privilege, s1)
  else if !canonical v then (.error (.trap 0x0A 0 va), s1)
  else if !canonical last then (.error (.trap 0x0A 0 (BitVec.ofNat 64 last)), s1)
  else if n.align && !aligned v n.size then (.error (.trap 0x08 0 va), s1)
  else match r with
  | .error (.segment d, a) => (.error (.trap 0x0B (d + s.readDenied c v n) (BitVec.ofNat 64 a)), s1)
  | .error (.address, a) => (.error (.trap 0x0A 0 (BitVec.ofNat 64 a)), s1)
  | r => if s.readDenied c v n ≠ 0 then (.error (.trap 0x0B (s.readDenied c v n) va), s1) else
  match r with
  | .error (t, a) =>
    match (if n.store then k.shadowByte v n.size else none), t with
    | some b, _ => (.error (.trap 0x06 2 (BitVec.ofNat 64 b)), s1)
    | none, .page cause level => (.error (.page cause level (BitVec.ofNat 64 a)), s1)
    | none, _ => (.error (.trap 0x0D 0 (BitVec.ofNat 64 a)), s1)
  | .ok l =>
    match (if n.store then k.shadowByte v n.size else none) with
    | some b => (.error (.trap 0x06 2 (BitVec.ofNat 64 b)), s1)
    | none =>
      if n.atomic && !l.all (fun x => (s.kindAt x.1).normal) then (.error (.trap 0x09 0 va), s1)
      else match badPiece (fun a m => s.coreBusOk c a m && (decide (l.length ≤ 1) || (s.kindAt a).normal)) v l with
        | some b => (.error (.trap 0x0D 0 (BitVec.ofNat 64 b)), s1)
        | none => (.ok l, s1)

/-- Locate two accesses of one instruction. Of two faults the first in the order of 09 R225 decides. -/
def State.locateTwo (s : State) (c : CoreId) (k : Core) (va1 va2 : Word) (n : AccessNeeds) :
    Except AccessFault (List (Nat × Nat) × List (Nat × Nat)) × State :=
  match s.locate c k va1 n with
  | (.ok l1, s1) =>
    match s1.locate c k va2 n with
    | (.ok l2, s2) => (.ok (l1, l2), s2)
    | (.error f, s2) => (.error f, s2)
  | (.error f, s1) =>
    match s1.locate c k va2 n with
    | (.error g, s2) => if g.rank < f.rank then (.error g, s2) else (.error f, s1)
    | (.ok _, _) => (.error f, s1)

/-- The newest bytes of located pieces. -/
def State.readPieces (s : State) (l : List (Nat × Nat)) : List Byte := l.flatMap (fun x => s.readMem x.1 x.2)

/-- Whether located pieces hold poisoned or uncorrectable data. -/
def State.piecesPoison (s : State) (l : List (Nat × Nat)) : Bool := l.any (fun x => s.readPoison x.1 x.2)

/-- Split bytes over located pieces. -/
def splitPieces : List (Nat × Nat) → List Byte → List (Nat × List Byte)
  | [], _ => []
  | (pa, n) :: l, data => (pa, data.take n) :: splitPieces l (data.drop n)

/-- The die whose cache or port serves a core's uncached accesses. -/
def coreDie : CoreId → EtuId
  | .sycen d _ => .cd d
  | .hazia _ => .hd

end Sys2Proof.Machine
end

