-- ==== Sys2Proof/Machine/Trap.lean ====
section
/-! DEFINITION. How an instruction ends: completion with loop-back and delay slot, the one trap entry, the double fault,
and the frame around the meaning of every Zizil instruction. -/

namespace Sys2Proof.Machine

/-! ## Completion (06 R165 to R169) -/

/-- Where control goes when an instruction completes. -/
inductive Ctl where
  /-- to the next sequential address. -/
  | seq
  /-- `LOOP` with count 0: to the end of the body (06 R167). -/
  | skip (t : Word)
  /-- a taken branch: after its delay slot; `exits` for the branches and jumps of R169. -/
  | taken (t : Word) (exits : Bool)
  /-- a branch not taken: its delay slot follows. -/
  | untaken
  /-- the program counter has been set (`RTE`). -/
  | set
deriving DecidableEq, Repr

/-- Level `k` of the loops of the current bank is active (06 R168). -/
def Bank.active (b : Bank) (k : Nat) : Bool := b.act.getLsbD k

/-- The active level whose body ends at an address: at most one (06 R167). Where MTC has made two active levels share `LEND`, the lowest
(DESIGN CHOICE, log entry 65). -/
def Bank.endLevel (b : Bank) (next : Word) : Option Nat :=
  (countFrom 0 3).find? (fun k => b.active k && decide (mget 0 b.lend k = next))

/-- Apply the loop-back of a level: the bank after it and the next address (06 R167). -/
def Bank.loopBack (b : Bank) (k : Nat) (next : Word) : Bank × Word :=
  let n := mget 0 b.lcount k - 1
  let b1 := { b with lcount := mset 0 b.lcount k n }
  if n ≠ 0 then (b1, mget 0 b.lstart k)
  else ({ b1 with act := b1.act &&& ~~~(BitVec.ofNat 3 1 <<< k) }, next)

/-- Go to the next sequential address, with the loop-back of 06 R167. -/
def Core.advance (k : Core) (next : Word) : Core :=
  let b := k.bank k.status.pl
  match b.endLevel next with
  | some l => let (b1, n) := b.loopBack l next
              { k.setBank k.status.pl b1 with pc := n }
  | none => { k with pc := next }

/-- The levels that a taken branch from `pc` to `t` leaves become inactive (06 R169). -/
def Bank.leave (b : Bank) (pc t : Word) : Bank :=
  let inside (l : Nat) (a : Word) : Bool :=
    decide ((mget 0 b.lstart l).toNat ≤ a.toNat) && decide (a.toNat < (mget 0 b.lend l).toNat)
  (countFrom 0 3).foldl (fun b' l =>
    if b.active l && inside l pc && !inside l t then { b' with act := b'.act &&& ~~~(BitVec.ofNat 3 1 <<< l) } else b') b

/-- Complete an instruction of `len` bytes: the delay slot, the branch, the loop-back (06 R166, R167, R169). `slot` is
the slot that the instruction stood in. -/
def Core.complete (k : Core) (slot : Slot) (len : Nat) (ctl : Ctl) : Core :=
  let next := k.pc + BitVec.ofNat 64 len
  match slot with
  | .taken t => { k with pc := t, slot := .none }
  | _ =>
    match ctl with
    | .seq => { k with slot := .none }.advance next
    | .skip t => { k with pc := t, slot := .none }
    | .taken t exits =>
      let k1 := if exits then k.setBank k.status.pl ((k.bank k.status.pl).leave k.pc t) else k
      { k1 with pc := next, slot := .taken t, pair := none }
    | .untaken => { k with pc := next, slot := .untaken }
    | .set => k

/-! ## Trap entry (09 R224 to R227) -/

/-- The address fields of `TRAPINFO` (09 R230): the virtual address, whether a write, whether a fetch. -/
structure TrapAddr where
  va : Word
  write : Bool
  fetch : Bool
deriving DecidableEq, Repr

/-- The position a trap resumes at (09 R235 to R237): the address, the branch target of a delay slot, the shadow
instructions left with their mode, and the level of a pending loop-back. -/
structure Resume where
  pc : Word
  target : Option Word
  shCnt : BitVec 2
  shMode : Bool
  loop : Option Nat
deriving DecidableEq, Repr

/-- The resume position of a precise exception, or of an interrupt, at the instruction at the program counter. -/
def Core.resumeHere (k : Core) : Resume :=
  { pc := k.pc
    target := match k.slot with
      | .taken t => some t
      | _ => none
    shCnt := k.shCnt
    shMode := if k.shCnt = 0 then false else k.shMode
    loop := none }

/-- The resume position of a completing trap of an instruction of `len` bytes (09 R235 to R237). -/
def Core.resumeAfter (k : Core) (len : Nat) : Resume :=
  let next := k.pc + BitVec.ofNat 64 len
  let sh := if k.shCnt = 0 then 0 else k.shCnt - 1
  let shm := if sh = 0 then false else k.shMode
  match k.slot with
  | .taken t => { pc := t, target := none, shCnt := sh, shMode := shm, loop := none }
  | _ => { pc := next, target := none, shCnt := sh, shMode := shm, loop := (k.bank k.status.pl).endLevel next }

/-- The level an event is taken at (09 R224); none: a double fault. -/
def targetLevel (gm interrupt : Bool) : Level → Option Level
  | .machine => none
  | .supervisor => if gm && !interrupt then none else some .machine
  | .user => if gm && !interrupt then some .machine else some .supervisor

/-- Trap entry into the bank of level `n` (09 R226). -/
def Core.enterTrap (k0 : Core) (n : Level) (cause detail : Nat) (addr : Option TrapAddr) (r : Resume) (interrupt : Bool) : Core :=
  let k := k0.settle
  let l := k.status.pl
  let b := k.trapRegs n
  let t : TrapRegs :=
    { pc := r.pc, ppl := BitVec.ofNat 2 l.num, origin := BitVec.ofNat 2 l.num, pgm := k.status.gm, pmode := k.status.mode,
      pb := r.target.isSome, shcnt := r.shCnt, shmode := r.shMode, esc := decide (n.num + 2 = l.num), int := interrupt,
      target := r.target.getD 0, cause := BitVec.ofNat 8 cause, detail := BitVec.ofNat 8 detail, addrv := addr.isSome,
      write := (addr.map (·.write)).getD false, fetch := (addr.map (·.fetch)).getD false,
      vpage := match addr with
        | some a => BitVec.ofNat 45 (a.va.toNat / 4096)
        | none => 0,
      hmode := b.hmode, base := b.base }
  let k1 := match r.loop with
    | some lv => k.setBank l { k.bank l with plb := true, plvl := BitVec.ofNat 2 lv }
    | none => k
  let k2 := k1.setTrapRegs n t
  { k2 with
    status := { k2.status with gm := true, pl := n, mode := b.hmode }
    pc := (b.base.zeroExtend 64 <<< 12) + BitVec.ofNat 64 (cause * 64)
    slot := .none, closed := false, shCnt := 0, shMode := false, resv := none, pair := none, wait := none, tensor := none }

/-- The machine-check record of a double fault (09 R227, 18 R432). -/
def doubleFaultRec (c : CoreId) (k : Core) (cause : Nat) : McRec :=
  let (die, unit) := match c with
    | .sycen d nn => (d.val + 1, 0x1000 + nn.val)
    | .hazia n => (0, 0x1000 + n.val)
  let r := mkRec die unit 0x08 2 2 cause
  { r with vaddr := k.pc, pl := BitVec.ofNat 2 k.status.pl.num, gm := k.status.gm }

/-- A double fault halts the core and raises its record (09 R227). -/
def State.doubleFault (s : State) (c : CoreId) (k : Core) (cause : Nat) : State :=
  let k1 := k.settle
  (s.setCore c { k1 with st := .dfault, wait := none, pair := none, haltReq := false }).reportStop (doubleFaultRec c k cause)

/-- What a Hazia core never has: it is always interlocked, with `STATUS.MODE` 1, and it has no mode shadow (06 R179, 09 R243). -/
def Core.ofKind (k : Core) (c : CoreId) : Core :=
  match c with
  | .hazia _ => { k with status := { k.status with mode := true }, shCnt := 0, shMode := false }
  | .sycen _ _ => k

/-- Take an event: the one trap entry of every exception and interrupt (09 R224, R226, R227). `DETAIL`, address fields and
resume position are the event's. -/
def State.takeTrap (s : State) (c : CoreId) (k : Core) (cause detail : Nat) (addr : Option TrapAddr) (r : Resume)
    (interrupt : Bool) : State :=
  match targetLevel k.status.gm interrupt k.status.pl with
  | some n => s.setCore c (((k.ofKind c).enterTrap n cause detail addr r interrupt).ofKind c)
  | none => s.doubleFault c k cause

/-- A precise exception of the instruction at the program counter. -/
def State.trapHere (s : State) (c : CoreId) (k : Core) (cause detail : Nat) (addr : Option TrapAddr) : State :=
  s.takeTrap c k cause detail addr k.resumeHere false

/-! ## The frame around a meaning (09 R225) -/

/-- What the meaning of an instruction comes to, given the core as the instruction sees it. -/
inductive Res where
  /-- it completes: the state (but for this core), the core, where control goes. -/
  | done (s : State) (k : Core) (ctl : Ctl)
  /-- a precise exception (causes of 09 R223). -/
  | trap (s : State) (cause detail : Nat) (addr : Option TrapAddr)
  /-- it waits in E and has had no effect. -/
  | waits (s : State) (w : Wait)
  /-- a completing trap (`TRAP`). -/
  | completing (s : State) (k : Core) (cause detail : Nat)

/-- The result of an access that cannot be made (09 R225; 12 R302): a trap, or a park with the core waiting. -/
def accessRes (s : State) (c : CoreId) (acc : Access) : AccessFault → Res
  | .privilege => .trap s 0x02 4 none
  | .trap cause detail va => .trap s cause detail (some { va := va, write := acc == .write, fetch := acc == .fetch })
  | .page cause level va =>
    let addr : TrapAddr := { va := va, write := acc == .write, fetch := acc == .fetch }
    match c with
    | .hazia _ => .trap s 0x0C 0 (some addr)
    | .sycen d nn =>
      if (s.etu (.cd d)).fbEnable then
        .waits (s.park (.cd d) (s.cctx (clusterKey d nn)) va.toNat acc cause level (some (.sequencer d nn)))
          (.parked va (acc == .write) (acc == .fetch))
      else .trap s 0x0C 0 (some addr)

/-! ## Stopping a tensor form (10 R259) -/

/-- The virtual bit address of an element: byte address times 8 and bit (10 R254). -/
def TensorDesc.elemBit (d : TensorDesc) (i : Nat) : Nat :=
  let d0 := nth 1 d.dims 0
  let d1 := nth 1 d.dims 1
  let d2 := nth 1 d.dims 2
  let r := i / d0
  let row : Int := (d.base : Int) + (r % d1 : Nat) * nth 0 d.strides 0 + (r / d1 % d2 : Nat) * nth 0 d.strides 1
    + (r / d1 / d2 : Nat) * nth 0 d.strides 2
  (row % (2 ^ 64 : Nat)).toNat * 8 + i % d0 * memWidth d.fmt

/-- Write bytes as the core's own data accesses do, through its cache, or into an SRAM window (10 R258). -/
def State.coreWrite (s : State) (c : CoreId) (nt : Bool) (l : List (Nat × List Byte)) : State :=
  l.foldl (fun (s : State) x => s.writeVia (coreDie c) (.cached (coherentCache c) nt) x.1 x.2) s

/-- The element at an index has an undefined value: free bytes, where its address can be written (10 R259; log entry 5). -/
def State.loseElem (s : State) (c : CoreId) (k : Core) (d : TensorDesc) (i : Nat) : State :=
  let b := d.elemBit i
  let va := BitVec.ofNat 64 (b / 8)
  let n := (b % 8 + memWidth d.fmt + 7) / 8
  match s.locate c k va { acc := .write, size := n } with
  | (.ok l, s1) =>
    let old := leNat (s1.readPieces l)
    let free := leNat ((countFrom 0 n).map (Config.freeByte s1.fresh))
    let lo := 2 ^ (b % 8)
    let hi := 2 ^ (b % 8 + memWidth d.fmt)
    (s1.coreWrite c d.nt (splitPieces l (leBytes n (old % lo + free % hi / lo * lo + old / hi * hi)))).bump
  | (.error _, _) => s

/-- The destination elements from the old `PROGRESS` on are undefined (10 R259). -/
def State.loseRest (s : State) (c : CoreId) (k : Core) (run : TensorRun) : State :=
  match run.descs with
  | d :: _ => (countFrom run.start (d.dims.foldl (· * ·) 1 - run.start)).foldl (fun (s : State) i => s.loseElem c k d i) s
  | [] => s

/-- Store `PROGRESS` at the address that was checked at the start. A store that parks waits; where it faults, the fault is the
instruction's, and the destination elements from the old `PROGRESS` on are undefined (10 R259). -/
def State.storeProgress (s : State) (c : CoreId) (k : Core) (run : TensorRun) (index : Nat) : Except Res State :=
  match s.locate c k run.progress { acc := .write, size := 4 } with
  | (.ok l, s1) => .ok (s1.coreWrite c false (splitPieces l (leBytes 4 index)))
  | (.error f, s1) =>
    match accessRes s1 c .write f with
    | .trap s2 cause detail addr => .error (.trap (s2.loseRest c k run) cause detail addr)
    | r => .error r

/-- A tensor form that is abandoned stores the first element not processed in `PROGRESS` (10 R259): the state after it, or the
fault of that store. -/
def State.stopTensor (s : State) (c : CoreId) : Except Res State :=
  match (s.core c).tensor with
  | some t =>
    match s.storeProgress c (s.core c) t t.index with
    | .ok s1 => .ok (s1.modCore c (fun k => { k with tensor := none }))
    | .error r => .error r
  | none => .ok s

/-- Abandon the instruction at the program counter and do something in its place: a tensor form stores its `PROGRESS` first; a fault
of that store is taken instead, and one that parks is waited for (10 R259). -/
def State.insteadOf (s : State) (c : CoreId) (act : State → State) : State :=
  match s.stopTensor c with
  | .ok s1 => act (s1.modCore c (fun k => { k with wait := none, tensor := none }))
  | .error (.trap s1 cause detail addr) => s1.trapHere c (s1.core c) cause detail addr
  | .error (.waits s1 w) => s1.modCore c (fun k => { k with wait := some w })
  | .error _ => s

/-- Whether a stop freezes a core: every sequencer, and no Hazia core (15 R381). -/
def State.coreFrozen (s : State) : CoreId → Bool
  | .sycen _ _ => s.frozen
  | .hazia _ => false

/-- A halt could take effect at this boundary (17 R411). -/
def Core.haltable (k : Core) : Bool :=
  !k.closed && decide (k.shCnt = 0) && (match k.slot with
    | .taken _ => false
    | _ => true)

/-- Whether a wait in E can be abandoned (08 R220, R221; 09 R239): not an access to device memory or PCIe, a load
behind stores to its SRAM windows, `TAS` or `SC`, nor a store or call on a full store buffer, nor an MFENCE behind earlier maintenance. -/
def Wait.abandonable : Wait → Bool
  | .held _ | .full | .device | .fence | .pcie _ _ | .pcieDone _ _ => false
  | _ => true

/-- Whether a wait in E is abandoned for a halt: the waits of R239 and R221, and `WAIT` itself, but not in a delay slot; an ordered
maintenance operation completes first (09 R221, R239; 13 R326; 17 R411). -/
def Core.haltsHere (k : Core) : Bool :=
  k.haltable && (match k.wait with
    | none => true
    | some (.maint _) => false
    | some w => w.abandonable && decide (k.slot = .none))

/-- The line whose miss the L1 D of a sequencer is serving: it accepts no other access meanwhile (08 R206). A Hazia core's L1
D does not block (13 R308). -/
def State.servedLine (s : State) (c : CoreId) : Option Nat :=
  match c with
  | .sycen _ _ => (s.lines.find? (fun x => decide (x.1 / 2 ^ 48 = 160 + coreKey c) &&
      (decide (x.2.tr = .is) || decide (x.2.tr = .im) || decide (x.2.tr = .sm)))).map (fun x => x.1 % 2 ^ 48)
  | .hazia _ => none

/-- Whether a miss of the core's L1 D is being served (08 R206). -/
def State.missServed (s : State) (c : CoreId) : Bool := (s.servedLine c).isSome

/-- Whether the core executes instructions now: running, not frozen by a stop, not at a boundary where a requested halt takes effect
(17 R411), and not held by an access that the memory system still owes it. -/
def State.executes (s : State) (c : CoreId) : Bool :=
  let k := s.core c
  decide (k.st = .run) && !s.coreFrozen c && !(k.haltReq && k.haltsHere) && (match k.wait with
    | some (.parked _ _ _) => false
    | some .interrupt => false
    | some (.pcie _ _) => false
    | _ => true)

/-- The instruction stands in a delay slot (06 R166). -/
def Core.inSlot (k : Core) : Bool := k.slot ≠ .none

/-- Whether the encoding is illegal here (09 R225 item 2). -/
def Shape.illegal (sh : Shape) (c : CoreId) (p : Pfx) (k : Core) : Bool :=
  !sh.legal p || (sh.noSlot && k.inSlot) || (sh.sycenOnly && (match c with
    | .hazia _ => true
    | .sycen _ _ => false))

/-- The core as the instruction sees it: an interlocked instruction reads the result of a load one ahead, a native one
does not (06 R162, R163); one shadow instruction is used up (06 R165). -/
def Core.view (k : Core) (interlocked : Bool) : Core :=
  let k1 := if interlocked then k.settle else { k with pend := none }
  { k1 with
    wait := none
    tensor := none
    closed := false
    shCnt := if k.shCnt = 0 then 0 else k.shCnt - 1
    shMode := if k.shCnt ≤ 1 then false else k.shMode }

/-- Whether an instruction ends a constrained pair: an access to memory or a long operation between its `LR` and its `SC` (06 R177). -/
def Shape.breaksPair (sh : Shape) : Bool := (sh.nt || sh.unpaired) && !sh.exclusive

/-- A core that completed an instruction counts it in a constrained pair: one that may not stand there and the seventeenth after the
`LR` end the pair; `LR` and `SC` have set what they leave (06 R177). -/
def Core.counted (k : Core) (sh : Shape) : Core :=
  { k with pair := if sh.exclusive then k.pair else if sh.breaksPair then none
                   else k.pair.bind (fun n => if n < 16 then some (n + 1) else none) }

/-- A core whose instruction waits; one that may not stand in a constrained pair has ended it. -/
def Core.waiting (k : Core) (sh : Shape) (w : Wait) : Core :=
  { k with wait := some w, pair := if sh.breaksPair then none else k.pair }

/-- The load write that falls together with the results of this instruction, and prevails (06 R162). -/
def Core.withLoad (k : Core) (old : Option PendWrite) : Core :=
  match old with
  | some w => w.apply k
  | none => k

/-- The write that a native instruction leaves waiting from the instruction before it. -/
def Core.oldLoad (k : Core) (interlocked : Bool) : Option PendWrite := if interlocked then none else k.pend

/-- Execute one instruction: the checks common to all, its meaning, its end. An instruction of a core that does not
execute now has no effect (log entry 2). -/
def State.runInstr (s : State) (c : CoreId) (p : Pfx) (sh : Shape) (body : State → Core → Res) : State :=
  if s.executes c then
    let k := s.core c
    if sh.illegal c p k then s.trapHere c k 0x01 0 none
    else
      let m := tagMode c k
      match body s (k.view m) with
      | .done s1 k1 ctl => s1.setCore c (((k1.counted sh).withLoad (k.oldLoad m)).complete k.slot (sh.len p) ctl)
      | .trap s1 cause detail addr => s1.trapHere c (s1.core c) cause detail addr
      | .waits s1 w => s1.modCore c (fun k' => k'.waiting sh w)
      | .completing s1 k1 cause detail =>
        s1.takeTrap c { k1.withLoad (k.oldLoad m) with slot := .none } cause detail none (k.resumeAfter (sh.len p)) false
  else s

/-- An instruction that only changes its own core and completes. -/
def State.runLocal (s : State) (c : CoreId) (p : Pfx) (sh : Shape) (f : Core → Core) : State :=
  s.runInstr c p sh (fun s k => .done s (f k) .seq)

/-- The outcome of a command that always leads to a next state. -/
def next (s : State) : Host.Outcome State Fault Refusal := .next s

end Sys2Proof.Machine
end

