-- ==== Sys2Proof/Machine/ArrayQueue.lean ====
section
/-! DEFINITION. Array command words, the checks at acceptance, posting by reference, completion records and retirement
(05 R126 to R148). -/

namespace Sys2Proof.Machine

/-! ## The command word (05 R136 to R140) -/

def cFmt (ws : List Nat) : Nat := fld ws 0 8 8
def cAux (ws : List Nat) : Nat := fld ws 0 16 8
def cSplit (ws : List Nat) : Nat := fld ws 0 40 2
def cChain (ws : List Nat) : Bool := fld ws 0 42 1 = 1
def cNewb (ws : List Nat) : Bool := fld ws 0 43 1 = 1
def cNotify (ws : List Nat) : Nat := fld ws 0 44 2
def cGlobal (ws : List Nat) : Bool := fld ws 0 46 1 = 1
def cTag (ws : List Nat) : Nat := fld ws 0 48 16

/-- `TILE`, `TILE1`, `TILE2`, `TILE3`. -/
def cTile (ws : List Nat) (i : Nat) : Nat := fld ws 0 (24 + 4 * i) 4

/-- The tiles that a command names (05 R136). -/
def cTiles (ws : List Nat) : List Nat :=
  match cOp ws with
  | 2 => [cTile ws 0]
  | 3 => [cTile ws 0]
  | 4 => (countFrom 0 (if cSplit ws = 1 then 2 else if cSplit ws = 2 then 4 else 1)).map (cTile ws)
  | 5 => [cTile ws 0]
  | _ => []

/-- `MCNT`, `VOFF`, `NCOLS`, `EOP`, `SCMODE` and `RMODE` of a `DRAIN` (05 R139). -/
def dMcnt (ws : List Nat) : Nat := fld ws 7 32 7
def dVoff (ws : List Nat) : Nat := fld ws 7 39 7
def dNcols (ws : List Nat) : Nat := fld ws 7 46 9
def dRmode (ws : List Nat) : Nat := fld ws 7 55 2
def dEop (ws : List Nat) : Nat := fld ws 7 59 2
def dScmode (ws : List Nat) : Nat := fld ws 7 61 2

/-! ## Partitions (03 R93) -/

/-- The quadrants of the partition that holds a quadrant. -/
def State.quadsOf (s : State) (p : PartId) : List Nat :=
  let l := (s.array p.cd p.cl p.arr).layout.toNat
  partQuads l (leadQuad l p.q.val)

/-- The logical rows h of a partition: both halves or one. -/
def partRows (qs : List Nat) : Nat := if qs.any (fun q => decide (q < 2)) && qs.any (fun q => decide (2 ≤ q)) then 64 else 32

/-- The cell columns w of a partition: both sides or one. -/
def partCols (qs : List Nat) : Nat := if qs.any (fun q => decide (q % 2 = 0)) && qs.any (fun q => decide (q % 2 = 1)) then 64 else 32

/-- The feeders of a partition, that of the upper rows first: the side of its lead quadrant (03 R93). -/
def partFeeders (qs : List Nat) : List Nat := qs.filter (fun q => decide (q % 2 = (qs.headD 0) % 2))

/-- The drains at a partition's drain point (03 R93). -/
def partDrains (qs : List Nat) : List Nat := qs.filter (fun q => decide (partRows qs = 32) || decide (2 ≤ q))

/-- The drain that carries a partition's output requests: the first at its drain point (03 R93, log entry 39). -/
def partDrain (qs : List Nat) : Nat := (partDrains qs).headD 0

/-- A partition runs: bound, not in FAULT, the module not stopped, its clock not changing (03 R87). -/
def State.partRuns (s : State) (p : PartId) : Bool :=
  (s.quad p).bound && !(s.quad p).fault && !s.frozen && (s.cdPwr p.cd).target.isNone

/-- A tile of the cluster of a partition. -/
def clusterTile (p : PartId) (t : Nat) : TileId := { cd := p.cd, cl := p.cl, t := Fin.ofNat 16 t }

/-- The partition that owns a tile of the cluster (05 R141). -/
def State.tileOwner (s : State) (p : PartId) (t : Nat) : PartId :=
  s.lead { p with arr := Fin.ofNat 4 (t / 4), q := Fin.ofNat 4 (t % 4) }

/-- The ports of the quadrants of a cluster. -/
def clusterQuads (d : Fin 4) (cl : Fin 24) : List PartId :=
  (countFrom 0 16).map (fun i => { cd := d, cl := cl, arr := Fin.ofNat 4 (i / 4), q := Fin.ofNat 4 (i % 4) })

/-- The accepted commands of a cluster that have not retired (05 R142, R149). -/
def State.inFlight (s : State) (d : Fin 4) (cl : Fin 24) : List Cmd :=
  ((clusterQuads d cl).flatMap (fun p => (s.quad p).queue)).filter (fun c => decide (c.phase ≠ .ended))

/-- Whether the sequencer of a cluster waits with a TILE instruction on a tile, and its place in the order (05 R144). -/
def State.tileInstr (s : State) (d : Fin 4) (cl : Fin 24) (t : Nat) : Option Nat :=
  match (s.core (.sycen d cl)).wait with
  | some (.tile o u) => if u = t then some o else none
  | _ => none

/-- `TSTAT.PEND` (05 R149). -/
def State.tilePend (s : State) (d : Fin 4) (cl : Fin 24) (t : Nat) : Nat :=
  ((s.inFlight d cl).filter (fun c => decide (t ∈ cTiles c.words))).length + b2n (s.tileInstr d cl t).isSome

/-- Change the command of a queue that has a place in the acceptance order. -/
def Quad.modCmd (q : Quad) (order : Nat) (f : Cmd → Cmd) : Quad :=
  { q with queue := q.queue.map (fun c => if c.order = order then f c else c) }

/-! ## The state as it will stand after the accepted commands (05 R134) -/

/-- Commands whose effects on tiles are still to come. -/
def Quad.toCome (q : Quad) : List Cmd := q.queue.filter (fun c => decide (c.phase = .waiting ∨ c.phase = .started))

/-- The format and the poison of a tile as they will stand. An `MXZ` whose first vector is done has set both already. -/
def State.tileAhead (s : State) (p : PartId) (t : Nat) : Nat × Bool :=
  let x := s.tile (clusterTile p t)
  (s.quad (s.tileOwner p t)).toCome.foldl (fun r c =>
    if cTile c.words 0 ≠ t then r
    else if cOp c.words = 3 then (if c.count = 0 then (cAux c.words, false) else r)
    else if cOp c.words = 5 then (cFmt c.words, false)
    else r) (x.fmt.toNat, x.poison)

/-- The formats of the active B and of a load not yet consumed, as they will stand (05 R137). -/
def Quad.bAhead (q : Quad) : Option Nat × Option Nat :=
  let fmtOf (b : BBuf) : Option Nat := if b.full then some b.fmt else none
  q.toCome.foldl (fun r c =>
    if cOp c.words = 1 then (r.1, some (cFmt c.words))
    else if isVec c.words ∧ cNewb c.words ∧ c.phase = .waiting then (r.2, none)
    else r) (fmtOf q.bact, fmtOf q.bshd)

/-! ## Acceptance (05 R134) -/

/-- Check 1 at a port; `ctx` is the context of an `ACMD`. -/
def State.check1 (s : State) (p : PartId) (ctx : Option (BitVec 6)) : Option Byte :=
  let q := s.quad p
  if s.held || !q.bound || decide (s.lead p ≠ p) || (match ctx with
    | some c => decide (c ≠ q.ctx)
    | none => false) then some 0x02
  else if q.fault || s.frozen then some 0x08
  else none

/-- The fields that must be 0 in a command (05 R136 to R140). -/
def zeroFields (op : Nat) : List (Nat × Nat × Nat) :=
  match op with
  | 1 => [(0, 16, 28), (0, 46, 2), (2, 39, 1), (2, 49, 15), (4, 32, 32), (5, 0, 64), (6, 0, 64), (7, 0, 64)]
  | 4 => [(0, 42, 2), (0, 46, 2)]
  | 5 => [(0, 16, 8), (0, 28, 16), (0, 46, 2)] ++ (countFrom 1 7).map (fun i => (i, 0, 64))
  | 6 => [(0, 8, 36), (0, 47, 1)] ++ (countFrom 1 7).map (fun i => (i, 0, 64))
  | _ => [(0, 28, 14), (0, 46, 2), (2, 39, 1), (2, 47, 1), (2, 50, 14), (6, 32, 32), (7, 0, 64)]

/-- A canonical address with 16-byte alignment. -/
def addr16 (a : Nat) : Bool := canonical a && decide (a % 16 = 0)

/-- Check 2: operation, reserved bits, ranges and alignments without a format; `h` is the partition's. -/
def fieldsOk (ws : List Nat) (h : Nat) : Bool :=
  let op := cOp ws
  decide (1 ≤ op ∧ op ≤ 6) && decide (cNotify ws ≠ 3) && (zeroFields op).all (fun f => decide (fld ws f.1 f.2.1 f.2.2 = 0))
  && (match op with
    | 1 => addr16 (fld ws 1 0 64) && decide (fld ws 2 0 32 % 16 = 0) && decide (1 ≤ fld ws 2 32 7 ∧ fld ws 2 32 7 ≤ h)
    | 2 => addr16 (fld ws 1 0 64) && decide (fld ws 2 0 32 % 16 = 0)
    | 3 => addr16 (fld ws 1 0 64) && decide (fld ws 2 0 32 % 16 = 0)
    | 4 =>
      decide (cSplit ws ≠ 3) && (decide (1 ≤ cSplit ws) || decide (cTile ws 1 = 0))
      && (decide (cSplit ws = 2) || (decide (cTile ws 2 = 0) && decide (cTile ws 3 = 0)))
      && decide (dRmode ws ≠ 3) && decide (dEop ws ≠ 3) && decide (dScmode ws ≠ 3)
      && addr16 (fld ws 1 0 64) && decide (fld ws 2 0 32 % 16 = 0) && decide (fld ws 2 32 32 % 16 = 0)
      && (decide (dEop ws ≠ 0) || (decide (cAux ws = 0) && decide (fld ws 2 32 32 = 0) && decide (fld ws 4 0 64 = 0)))
      && (decide (dScmode ws ≠ 0) || decide (fld ws 3 0 64 = 0)) && (decide (dScmode ws ≠ 2) || decide (fld ws 3 0 64 % 16 = 0))
    | _ => true)

/-- The formats of a second tensor that stage 4 accepts for a tile format (04 R122). -/
def eFormats (tfmt : Nat) : List Nat :=
  let w40 := [0x08, 0x09, 0x0A, 0x0B, 0x0C, 0x0D, 0x0E, 0x0F, 0x18]
  if tfmt = 0x19 then w40 ++ [0x10, 0x19]
  else if tfmt = 0x1A then w40 ++ [0x10, 0x19, 0x1A]
  else if tfmt = 0x03 then w40 ++ [0x00, 0x01, 0x02, 0x03, 0x05, 0x06]
  else w40

/-- A format code of R12. -/
def isFormat (code : Nat) : Bool := (floatFmt code).isSome || (intFmt code).isSome

/-- Check 3: formats. -/
def State.formatsOk (s : State) (p : PartId) (ws : List Nat) : Bool :=
  match cOp ws with
  | 1 => arrayInputs.contains (cFmt ws)
  | 4 =>
    let t0 := (s.tileAhead p (cTile ws 0)).1
    decide (t0 ≠ 0xFF) && (cTiles ws).all (fun t => decide ((s.tileAhead p t).1 = t0))
    && isFormat (cFmt ws) && decide (cFmt ws ≠ 0x1B) && (decide (dEop ws = 0) || (eFormats t0).contains (cAux ws))
  | 5 => accFormats.contains (cFmt ws)
  | 6 => true
  | op =>
    let b := (s.quad p).bAhead
    arrayInputs.contains (cFmt ws) && (accFor (cFmt ws)).contains (cAux ws)
    && (match if cNewb ws then b.2 else b.1 with
      | some f => decide (f = cFmt ws)
      | none => true)
    && (decide (op = 3) || decide ((s.tileAhead p (cTile ws 0)).1 = cAux ws))

/-- Check 4: ranges that depend on a format. -/
def State.rangesOk (s : State) (p : PartId) (ws : List Nat) : Bool :=
  match cOp ws with
  | 1 =>
    let n := fld ws 2 40 9
    decide (1 ≤ n ∧ n ≤ partCols (s.quadsOf p) * sliceCols (cFmt ws)) && decide (rowBytes (cFmt ws) n ≤ fld ws 2 0 32)
    && (if isMx (cFmt ws) then decide (n ≤ fld ws 4 0 32) else decide (fld ws 3 0 64 = 0) && decide (fld ws 4 0 32 = 0))
  | 4 =>
    let t0 := (s.tileAhead p (cTile ws 0)).1
    let n := dNcols ws
    decide (1 ≤ dMcnt ws) && decide (dVoff ws + dMcnt ws ≤ tileRows t0) && decide (1 ≤ n ∧ n ≤ tileCols t0)
    && (if isMx (cFmt ws) then decide (n % 32 = 0) else decide (fld ws 5 0 64 = 0))
    && (decide (dScmode ws ≠ 1) || decide (t0 = 0x19 ∨ t0 = 0x1A) || decide (fld ws 3 32 32 = 0))
  | 5 => true
  | 6 => true
  | _ =>
    let m := fld ws 2 32 7
    decide (1 ≤ m) && decide (fld ws 2 40 7 + m ≤ tileRows (cAux ws)) && (decide (cAux ws = 0x03) || decide (fld ws 2 48 1 = 0))
    && (isMx (cFmt ws) || (decide (fld ws 3 0 64 = 0) && decide (fld ws 4 0 32 = 0)))

/-- Whether no element of a list occurs twice. -/
def distinct : List Nat → Bool
  | [] => true
  | x :: xs => !xs.contains x && distinct xs

/-- Check 5: tile ownership and split tiles (05 R141, R143). -/
def State.ownersOk (s : State) (p : PartId) (ws : List Nat) : Bool :=
  match cTiles ws with
  | [] => true
  | t0 :: rest =>
    decide (s.tileOwner p t0 = p) && distinct ((t0 :: rest).map (· / 4))
    && rest.all (fun t =>
      let o := s.tileOwner p t
      (s.quad o).bound && decide ((s.quad o).ctx = (s.quad p).ctx)
      && decide (partRows (s.quadsOf o) = partRows (s.quadsOf p)))

/-- Check 6: B sequencing (05 R137). -/
def Quad.bSequenceOk (q : Quad) (ws : List Nat) : Bool :=
  let b := q.bAhead
  if cOp ws = 1 then b.2.isNone
  else if isVec ws then (if cNewb ws then b.2.isSome else b.1.isSome)
  else true

/-- The checks at acceptance, in order; none: accepted. `badEntry` is a nonzero entry bit of `ACMD`. -/
def State.acceptCheck (s : State) (p : PartId) (ctx : Option (BitVec 6)) (badEntry : Bool) (ws : List Nat) : Option Byte :=
  match s.check1 p ctx with
  | some code => some code
  | none =>
    if badEntry || !fieldsOk ws (partRows (s.quadsOf p)) then some 0x04
    else if !s.formatsOk p ws then some 0x03
    else if !s.rangesOk p ws then some 0x04
    else if !s.ownersOk p ws then some 0x02
    else if !(s.quad p).bSequenceOk ws then some 0x05
    else if (cOp ws = 2 ∨ cOp ws = 4) ∧ (cTiles ws).any (fun t => (s.tileAhead p t).2) then some 0x06
    else if 16 ≤ ((s.quad p).queue.filter (fun c => decide (c.phase = .waiting))).length then some 0x01
    else none

/-- Enter an accepted command into the queue of its partition (05 R126, R134). -/
def State.enqueue (s : State) (p : PartId) (ws : List Nat) : State :=
  let q := s.quad p
  let c : Cmd := { words := ws, seq := q.nextSeq, order := s.fresh, phase := .waiting, status := 0, count := 0 }
  (s.setQuad p { q with
    queue := q.queue ++ [c], nextSeq := q.nextSeq + 1, accSeq := q.nextSeq,
    retSeq := if q.restarted then 0 else q.retSeq, restarted := false }).bump

/-- Record a rejection at a port (05 R132). -/
def State.rejectAt (s : State) (p : PartId) (code op : Byte) (tag : BitVec 16) : State :=
  let q := s.quad p
  s.setQuad p { q with rejCode := code, rejOp := op, rejTag := tag, rejCount := satAdd q.rejCount 1 }

/-! ## Failures of a partition (03 R86, R95) -/

/-- The fault cause of a failed access of a feeder or drain (03 R95, R100). -/
def AgentStop.partCause : AgentStop → Nat
  | .segment => 6
  | .page _ _ => 7
  | .bus => 5
  | .held => 0
  | .data => 8

/-- The machine-check record of a partition (03 R95, 18 R432). -/
def partRec (p : PartId) (cause : Nat) : McRec :=
  mkRec (p.cd.val + 1) (p.cl.val * 16 + p.arr.val * 4 + p.q.val) 0x07 2 1 cause

/-- A partition raises its record, whose containment puts it into FAULT (03 R95; 18 R434, R435). -/
def State.partFails (s : State) (p : PartId) (cause : Nat) (va : Option Nat) : State :=
  let r := partRec p cause
  s.reportStop { r with
    vaddr := BitVec.ofNat 64 (va.getD 0), ctx := va.map (fun _ => (s.quad p).ctx) }

/-- Mark what of a partition is parked, or no longer: the A stream or the LOADB of its feeders, its DRAIN, or its completion
records. Another requester marks nothing. -/
def Quad.mark (q : Quad) (req : Requester) (b : Bool) : Quad :=
  match req with
  | .feeder _ false => { q with aParked := b }
  | .feeder _ true => { q with bParked := b }
  | .drain _ false => { q with drainParked := b }
  | .drain _ true => { q with recParked := b }
  | _ => q

/-- Whether a requester of a partition is parked. -/
def Quad.parked (q : Quad) : Requester → Bool
  | .feeder _ false => q.aParked
  | .feeder _ true => q.bParked
  | .drain _ false => q.drainParked
  | .drain _ true => q.recParked
  | _ => false

/-- A failed access of a partition: parked, or its FAULT (03 R86, R95; 12 R302, R304). -/
def State.stopPart (s : State) (p : PartId) (acc : Access) (req : Requester) (f : AgentFault) : State :=
  match s.parkAgent (.cd p.cd) (s.quad p).ctx f acc req with
  | some s1 => s1.setQuad p ((s1.quad p).mark req true)
  | none => s.partFails p f.stop.partCause (some f.va)

/-- The requester of a partition's drain: for a `DRAIN`, or for its completion records. -/
def State.drainReq (s : State) (p : PartId) (rec' : Bool) : Requester := .drain { p with q := Fin.ofNat 4 (partDrain (s.quadsOf p)) } rec'

/-! ## Completion records (05 R146, R147) -/

/-- The interrupts of `NOTIFY` = 2 (05 R133, 17 R408). -/
def State.notifyQuad (s : State) (p : PartId) (notify : Nat) : State :=
  if notify ≠ 2 then s
  else
    let r := (s.quad p).ring
    let s1 := if r.seqIrq then s.setIpend p.cd p.cl 0 else s
    if r.hostIrq then s1.hicSource (24 * p.cd.val + p.cl.val) else s1

/-- Write one record to the ring of a partition, or keep it while the drain's writes are parked or the partition is in FAULT (05
R147). A record whose own write fails is lost, as the output of a `DRAIN` is (log entry 56). -/
def State.writeRecord (s : State) (p : PartId) (r : CplRec) : State :=
  let q := s.quad p
  if q.drainParked || q.recParked || q.fault then s.setQuad p { q with recs := q.recs ++ [r] }
  else
    let va := q.ring.base.toNat * 4096 + 16 * q.ring.next.toNat
    let data := leBytes 8 (r.lo + 2 ^ 63 * b2n q.ring.phase) ++ leBytes 8 r.hi
    match s.agentWrite (.cd p.cd) (.uncached 1) q.ctx va data with
    | (.ok s1, _) =>
      let q1 := s1.quad p
      let ring := { q1.ring with next := q1.ring.next + 1, phase := if q1.ring.next = 255 then !q1.ring.phase else q1.ring.phase }
      (s1.setQuad p { q1 with ring := ring }).notifyQuad p r.notify
    | (.error f, s1) =>
      match s1.parkAgent (.cd p.cd) q.ctx f .write (s1.drainReq p true) with
      | some s2 => let q2 := s2.quad p
                   s2.setQuad p { q2 with recParked := true, recs := q2.recs ++ [r] }
      | none => s1.partFails p f.stop.partCause (some f.va)

/-- Write the records that waited for a parked ring write. -/
def State.flushRecords (s : State) (p : PartId) : State :=
  let q := s.quad p
  q.recs.foldl (fun (s : State) r => s.writeRecord p r) (s.setQuad p { q with recs := [] })

/-- The record of a command, with the tile flags after it (05 R147). -/
def State.cmdRecord (s : State) (p : PartId) (c : Cmd) : CplRec :=
  let ts := (cTiles c.words).map (fun t => s.tile (clusterTile p t))
  { lo := cTag c.words + 2 ^ 16 * c.seq.toNat + 2 ^ 32 * cOp c.words + 2 ^ 40 * c.status.toNat
      + 2 ^ 48 * b2n (ts.any (·.sat)) + 2 ^ 49 * b2n (ts.any (·.nv)) + 2 ^ 50 * b2n (ts.any (·.of))
    hi := min (Config.elapsed s.fresh) (2 ^ 32 - 1)
    notify := cNotify c.words }

/-- Report the end of a command: its record, or its interrupt alone (05 R146). -/
def State.reportCmd (s : State) (p : PartId) (c : Cmd) : State :=
  if cNotify c.words = 0 then s
  else if (s.quad p).ring.enable then (s.writeRecord p (s.cmdRecord p c)).bump
  else s.notifyQuad p (cNotify c.words)

/-- The record of a rejected word that was fetched (05 R147). -/
def State.rejectRecord (s : State) (p : PartId) (ws : List Nat) (code : Byte) : State :=
  if (s.quad p).ring.enable ∧ !s.frozen then
    s.writeRecord p { lo := cTag ws + 2 ^ 32 * cOp ws + 2 ^ 40 * code.toNat + 2 ^ 51, hi := 0, notify := 0 }
  else s

/-- Drop the retired commands at the head of a queue: `RETSEQ` advances in sequence order (05 R131, R146). -/
def Quad.settleRetired (q : Quad) : Quad := go q.queue q
where
  go : List Cmd → Quad → Quad
    | [], q => { q with queue := [] }
    | c :: cs, q => if c.phase = .ended then go cs { q with retSeq := c.seq } else { q with queue := c :: cs }

/-- A command retires (05 R146). -/
def State.retire (s : State) (p : PartId) (c : Cmd) : State :=
  (s.setQuad p (((s.quad p).modCmd c.order (fun x => { x with phase := .ended })).settleRetired)).reportCmd p c

/-! ## Posting (05 R127, R128) -/

/-- Offer a word to acceptance at a port: status, sequence number, state (05 R134). -/
def State.offer (s : State) (p : PartId) (ctx : Option (BitVec 6)) (badEntry : Bool) (ws : List Nat) : Byte × BitVec 16 × State :=
  match s.acceptCheck p ctx badEntry ws with
  | some code => (code, 0, s.rejectAt p code (BitVec.ofNat 8 (cOp ws)) (BitVec.ofNat 16 (cTag ws)))
  | none => (0, (s.quad p).nextSeq, s.enqueue p ws)

/-- The eight words of 64 bytes. -/
def wordsOf (n : Nat) : List Nat := (countFrom 0 8).map (fun i => bits n (64 * i) 64)

/-- Fetch a command word of 64 bytes for a port: never parked, no seal check (05 R128, 11 R273). Every failure is one, also data that
arrive poisoned or uncorrectable, of which R128 does not speak (DESIGN CHOICE, log entry 65). -/
def State.fetchCommand (s : State) (d : Fin 4) (ctx : BitVec 6) (va : Nat) : Option (List Nat) × State :=
  if va % 64 ≠ 0 then (none, s)
  else match s.agentRead (.cd d) (.uncached 1) ctx va 64 false with
  | (.ok b, s1) => (some (wordsOf (leNat b)), s1)
  | (.error _, s1) => (none, s1)

/-- A post by reference (05 R128): one that finds four words being fetched waits on the register path behind them. -/
def State.qpost (s0 : State) (p : PartId) (value : Word) : State :=
  let s := s0.wakeCd p.cd
  let q := s.quad p
  let take (s : State) : State := s.setQuad p { q with fetching := q.fetching ++ [value] }
  if 4 ≤ q.fetching.length then take s
  else match s.check1 p none with
  | some code => s.rejectAt p code 0 0
  | none => take s

/-- A write that waited on the register path reaches the port. -/
def State.promotePost (s : State) (p : PartId) : Nat → State
  | 0 => s
  | fuel + 1 =>
    let q := s.quad p
    if q.fetching.length < 4 then s
    else match s.check1 p none with
    | some code => ((s.setQuad p { q with fetching := q.fetching.eraseIdx 3 }).rejectAt p code 0 0).promotePost p fuel
    | none => s

/-- `QPOST_WRITE` (R128). -/
def execQpostWrite (part : PartId) (value : Word) (s : State) : Host.Outcome State Fault Refusal := next (s.qpost part value)

/-- The fetch of the oldest posted word ends (05 R128). -/
def State.qpostFetched (s : State) (p : PartId) : State :=
  let q := s.quad p
  match q.fetching with
  | [] => s
  | va :: rest =>
    let s1 := s.setQuad p { q with fetching := rest }
    (match s1.fetchCommand p.cd q.ctx va.toNat with
    | (none, s2) => s2.rejectAt p 0x07 0 0
    | (some ws, s2) =>
      match s2.offer p none false ws with
      | (code, _, s3) => if code = 0 then s3 else s3.rejectRecord p ws code).promotePost p rest.length

/-- `QPOST_FETCH_COMPLETE` (R128). -/
def execQpostFetchComplete (part : PartId) (s : State) : Host.Outcome State Fault Refusal := next (s.qpostFetched part)

/-- `ACMD`: the store buffer empties first (06 R174); the data register selects the port and takes the result (R127). -/
def acmdBody (d : Fin 4) (cl : Fin 24) (vs dq : Fin 32) (s : State) (k : Core) : Res :=
  if k.sbuf ≠ [] then .waits s .storeBuffer
  else
    let x := (k.getD dq).toNat
    let p : PartId := { cd := d, cl := cl, arr := Fin.ofNat 4 (bits x 2 2), q := Fin.ofNat 4 (bits x 0 2) }
    let (code, n, s1) := (s.wakeCd d).offer p (some (s.cctx (clusterKey d cl))) (decide (x / 16 ≠ 0)) (wordsOf (k.getV vs).toNat)
    .done s1 (k.setD dq (BitVec.ofNat 64 (code.toNat + 256 * n.toNat))) .seq

/-- `ACMD` (R127). -/
def execAcmd (c : CoreId) (p : Pfx) (vs dq : Fin 32) (s : State) : Host.Outcome State Fault Refusal :=
  next (s.runInstr c p { bytes := 3, d := [dq], sycenOnly := true } (fun s k =>
    match c with
    | .sycen d cl => acmdBody d cl vs dq s k
    | .hazia _ => .done s k .seq))

/-- A ring after a write of its base register: setting `ENABLE` restarts it at slot 0 (05 R133, 11 R279). -/
def RingState.written (r : RingState) (w : Word) : RingState :=
  let restart := w.getLsbD 0 && !r.enable
  { enable := w.getLsbD 0, seqIrq := w.getLsbD 1, hostIrq := w.getLsbD 2, base := w.extractLsb' 12 52,
    next := if restart then 0 else r.next, phase := if restart then true else r.phase }

/-- A write of `QCPLBASE` (05 R133). -/
def State.setRing (s : State) (p : PartId) (w : Word) : State :=
  let q := s.quad p
  let top := bits w.toNat 56 8
  if s.lead p ≠ p ∨ q.queue ≠ [] ∨ (top ≠ 0 ∧ top ≠ 255) then s
  else s.setQuad p { q with ring := q.ring.written w }

end Sys2Proof.Machine
end

