-- ==== Sys2Proof/Machine/Float.lean ====
section
/-! DEFINITION. Scalar floating point (06 R452, 07 R185, R192). -/

namespace Sys2Proof.Machine

/-- The format of an instruction: its TYPE, FP64 without one (07 R185). -/
def typeCode (p : Pfx) : Nat :=
  match p.type with
  | some t => t.toNat
  | none => 0x10

/-- The rounding mode of a core. -/
def Core.rnd (k : Core) : Rnd := rndOf k.status.rm

/-- Collect flags in `STATUS` (06 R157). -/
def Core.flag (k : Core) (g : Flg) : Core :=
  { k with
    status := { k.status with
      nx := k.status.nx || g.nx, uf := k.status.uf || g.uf, of := k.status.of || g.of, dz := k.status.dz || g.dz,
      nv := k.status.nv || g.nv } }

/-- The codes that a scalar floating-point instruction accepts as TYPE (07 R185). -/
def scalarTypes : List Nat := [0x0D, 0x0E, 0x0F, 0x10]

/-- The format of a scalar floating-point instruction; FP64 for a code that the shape refuses. -/
def scalarFmt (p : Pfx) : FFmt := (floatFmt (typeCode p)).getD { width := 64, eb := 11, fb := 52, bias := 1023 }

/-- The value of a scalar in a D register: its low bits (07 R185). -/
def FFmt.ofD (f : FFmt) (w : Word) : FVal := f.decode (w.toNat % 2 ^ f.width)

/-- The D register that holds an encoding: zeros above it (07 R185). -/
def FFmt.toD (f : FFmt) (v : FVal) : Word := BitVec.ofNat 64 (f.encode v)

/-- A scalar floating-point instruction with a floating-point result (06 R452); `long`: a long operation (06 R164). -/
def floatOp (c : CoreId) (p : Pfx) (bytes : Nat) (dd : Fin 32) (srcs : List (Fin 32))
    (op : FFmt → Rnd → List FVal → FVal × Flg) (s : State) (long : Bool := true) : State :=
  s.runLocal c p { bytes := bytes, d := dd :: srcs, types := scalarTypes, unpaired := long } (fun k =>
    let f := scalarFmt p
    let (v, g) := op f k.rnd (srcs.map (fun r => f.ofD (k.getD r)))
    (k.flag g).setD dd (f.toD v))

/-- The first, second and third value of a list. -/
def fst3 (xs : List FVal) : FVal := nth .nan xs 0
def snd3 (xs : List FVal) : FVal := nth .nan xs 1
def trd3 (xs : List FVal) : FVal := nth .nan xs 2

/-- A scalar compare: quiet, 1 or 0 (06 R452). -/
def floatCmp (c : CoreId) (p : Pfx) (dd da db : Fin 32) (op : FVal → FVal → Bool) (s : State) : State :=
  s.runLocal c p { bytes := 4, d := [dd, da, db], types := scalarTypes } (fun k =>
    let f := scalarFmt p
    k.setD dd (if op (f.ofD (k.getD da)) (f.ofD (k.getD db)) then 1 else 0))

/-- The comparison operations (06 R452): false for a NaN. -/
def FVal.ltB (a b : FVal) : Bool := (a.lt b).getD false
def FVal.eqB (a b : FVal) : Bool := (a.eq b).getD false
def FVal.leB (a b : FVal) : Bool := a.ltB b || a.eqB b

/-- `FADD` (R452). -/
def execFadd (c : CoreId) (p : Pfx) (dd da db : Fin 32) (s : State) : Host.Outcome State Fault Refusal :=
  next (floatOp c p 4 dd [da, db] (fun f r xs => f.add r (fst3 xs) (snd3 xs)) s)

/-- `FSUB` (R452). -/
def execFsub (c : CoreId) (p : Pfx) (dd da db : Fin 32) (s : State) : Host.Outcome State Fault Refusal :=
  next (floatOp c p 4 dd [da, db] (fun f r xs => f.add r (fst3 xs) (snd3 xs).neg) s)

/-- `FMUL` (R452). -/
def execFmul (c : CoreId) (p : Pfx) (dd da db : Fin 32) (s : State) : Host.Outcome State Fault Refusal :=
  next (floatOp c p 4 dd [da, db] (fun f r xs => f.mul r (fst3 xs) (snd3 xs)) s)

/-- `FMA` (R452): `a * b + c` with one rounding. -/
def execFma (c : CoreId) (p : Pfx) (dd da db dc : Fin 32) (s : State) : Host.Outcome State Fault Refusal :=
  next (floatOp c p 5 dd [da, db, dc] (fun f r xs => f.fma r (fst3 xs) (snd3 xs) (trd3 xs)) s)

/-- `FDIV` (R452). -/
def execFdiv (c : CoreId) (p : Pfx) (dd da db : Fin 32) (s : State) : Host.Outcome State Fault Refusal :=
  next (floatOp c p 4 dd [da, db] (fun f r xs => f.div r (fst3 xs) (snd3 xs)) s)

/-- `FSQRT` (R452). -/
def execFsqrt (c : CoreId) (p : Pfx) (dd da : Fin 32) (s : State) : Host.Outcome State Fault Refusal :=
  next (floatOp c p 3 dd [da] (fun f r xs => f.sqrt r (fst3 xs)) s)

/-- `FMIN` (R452): minimumNumber. -/
def execFmin (c : CoreId) (p : Pfx) (dd da db : Fin 32) (s : State) : Host.Outcome State Fault Refusal :=
  next (floatOp c p 4 dd [da, db] (fun _ _ xs => ((fst3 xs).pick false (snd3 xs), .none)) s false)

/-- `FMAX` (R452): maximumNumber. -/
def execFmax (c : CoreId) (p : Pfx) (dd da db : Fin 32) (s : State) : Host.Outcome State Fault Refusal :=
  next (floatOp c p 4 dd [da, db] (fun _ _ xs => ((fst3 xs).pick true (snd3 xs), .none)) s false)

/-- `FCMPEQ` (R452). -/
def execFcmpeq (c : CoreId) (p : Pfx) (dd da db : Fin 32) (s : State) : Host.Outcome State Fault Refusal :=
  next (floatCmp c p dd da db FVal.eqB s)

/-- `FCMPLT` (R452). -/
def execFcmplt (c : CoreId) (p : Pfx) (dd da db : Fin 32) (s : State) : Host.Outcome State Fault Refusal :=
  next (floatCmp c p dd da db FVal.ltB s)

/-- `FCMPLE` (R452). -/
def execFcmple (c : CoreId) (p : Pfx) (dd da db : Fin 32) (s : State) : Host.Outcome State Fault Refusal :=
  next (floatCmp c p dd da db FVal.leB s)

/-- `FABS` (R452); a NaN result is canonical (log entry 30). -/
def execFabs (c : CoreId) (p : Pfx) (dd da : Fin 32) (s : State) : Host.Outcome State Fault Refusal :=
  next (floatOp c p 3 dd [da] (fun _ _ xs => ((fst3 xs).abs, .none)) s false)

/-- `FNEG` (R452); a NaN result is canonical (log entry 30). -/
def execFneg (c : CoreId) (p : Pfx) (dd da : Fin 32) (s : State) : Host.Outcome State Fault Refusal :=
  next (floatOp c p 3 dd [da] (fun _ _ xs => ((fst3 xs).neg, .none)) s false)

/-- The formats of `FCVT` (07 R185). -/
def fcvtCodes : List Nat := [0x01, 0x02, 0x03, 0x04, 0x05, 0x0B, 0x0C, 0x0D, 0x0E, 0x0F, 0x10]

/-- A scalar of any format of `FCVT` in a D register: integers extend to 64 bits (07 R185). -/
def scalarToD (code raw : Nat) : Word :=
  match intFmt code with
  | some (w, true) => BitVec.ofInt 64 (toSigned w (raw % 2 ^ w))
  | _ => BitVec.ofNat 64 raw

/-- `FCVT` (R452): TYPE names the destination, the immediate the source (07 R185). -/
def execFcvt (c : CoreId) (p : Pfx) (dd da : Fin 32) (i : Byte) (s : State) : Host.Outcome State Fault Refusal :=
  next (s.runInstr c p { bytes := 4, d := [dd, da], types := fcvtCodes } (fun s k =>
    if !fcvtCodes.contains i.toNat then .trap s 0x01 0 none
    else
      let raw := (k.getD da).toNat % 2 ^ fmtWidth i.toNat
      let (x, g) := fcvtAny i.toNat (typeCode p) k.rnd raw
      .done s ((k.flag g).setD dd (scalarToD (typeCode p) x)) .seq))

end Sys2Proof.Machine
end

