-- ==== Sys2Proof/Machine/Arrays.lean ====
section
/-! DEFINITION. The execution of the array commands, their retirement and recovery, and the instructions that move tile
rows (03 R77 to R86, R96; 05 R137 to R150; 10 R261 to R263). -/

namespace Sys2Proof.Machine

/-! ## Issue (05 R142 to R145) -/

/-- The entry of a queue that an issue or continuation of an operation means: the first with that operation that has not
come to its end, where every entry ahead of it has issued. -/
def headOf (ops : List Nat) : List Cmd → Option Cmd
  | [] => none
  | c :: cs =>
    if (c.phase = .waiting ∨ c.phase = .started) ∧ ops.contains (cOp c.words) then some c
    else if c.phase = .waiting then none
    else headOf ops cs

/-- `Y` need not wait for `X` on their tile (05 R142). -/
def chained (x y : List Nat) : Bool := isVec x && isVec y && decide (cAux x = cAux y) && cChain y

/-- No earlier accepted command or TILE instruction on a tile of a command holds it back (05 R142 to R144). -/
def State.tilesFree (s : State) (p : PartId) (c : Cmd) : Bool :=
  (s.inFlight p.cd p.cl).all (fun x =>
    decide (c.order ≤ x.order) || !(cTiles x.words).any (fun t => (cTiles c.words).contains t)
      || (chained x.words c.words && decide (x.phase ≠ .waiting)))
  && (cTiles c.words).all (fun t => match s.tileInstr p.cd p.cl t with
    | some o => decide (c.order ≤ o)
    | none => true)

/-- The condition of a command's own kind (05 R145). `ahead` are the entries ahead of it. -/
def State.kindReady (s : State) (p : PartId) (c : Cmd) (ahead : List Cmd) : Bool :=
  let q := s.quad p
  let busy (f : Nat → Bool) : Bool := ahead.any (fun x => decide (x.phase = .started) && f (cOp x.words))
  match cOp c.words with
  | 1 => !q.bshd.full && !busy (· = 1) && !q.bParked
  | 4 => !busy (· = 4) && !q.drainParked && !q.recParked
  | 5 => true
  | 6 => ahead.all (fun x => decide (x.phase = .ended))
      && (!cGlobal c.words || (clusterQuads p.cd p.cl).all (fun o =>
        decide ((s.quad o).ctx ≠ q.ctx) || (s.quad o).queue.all (fun x => decide (c.order ≤ x.order) || decide (x.phase = .ended))))
  | _ => !busy (fun o => decide (o = 2 ∨ o = 3)) && !q.aParked
      && (!(cNewb c.words && decide (c.phase = .waiting)) || q.bshd.full)

/-- The command that may issue, or go on, for an operation at a partition. -/
def State.ready (s : State) (p : PartId) (op : Nat) : Option Cmd :=
  if !s.partRuns p then none
  else match headOf [op] (s.quad p).queue with
  | some c =>
    let ahead := (s.quad p).queue.takeWhile (fun x => decide (x.order ≠ c.order))
    if s.kindReady p c ahead && (decide (c.phase = .started) || s.tilesFree p c) then some c else none
  | none => none

/-! ## Carrying a command on -/

/-- What stops a command at a vector or row: a failed access with its kind and its requester, or an error of the partition's own
hardware. -/
inductive CmdStop where
  | access (fault : AgentFault) (acc : Access) (req : Requester)
  | error (cause : Nat)
deriving DecidableEq, Repr

/-- The fault cause of an error of the hardware (03 R100). -/
def arrayCause : ArrayError → Nat
  | .residue => 2
  | .bParity => 3
  | .drainParity => 4

/-- Process vectors or rows in order until one stops. -/
def carry (f : State → Nat → Except (CmdStop × State) State) : List Nat → State → State × Option (Nat × CmdStop)
  | [], s => (s, none)
  | i :: is, s =>
    match f s i with
    | .ok s1 => carry f is s1
    | .error (x, s1) => (s1, some (i, x))

/-- Run a command from its first vector or row not yet processed: to its end, to an access that parks or fails, or to the vector
or row that an error of the hardware hits, whose sums or outputs are not written. A vector command whose first vector is not
there has not issued: it is not ready to start (03 R82, R86; log entry 39). -/
def State.runCmd (s : State) (p : PartId) (c : Cmd) (total : Nat) (bad : Option (Nat × ArrayError))
    (f : State → Nat → Except (CmdStop × State) State) : State :=
  let g (s : State) (i : Nat) : Except (CmdStop × State) State :=
    match bad with
    | some (n, e) => if n = i then .error (.error (arrayCause e), s) else f s i
    | none => f s i
  match carry g (countFrom c.count (total - c.count)) s with
  | (s1, none) => s1.setQuad p ((s1.quad p).modCmd c.order (fun x => { x with phase := .issued, count := total }))
  | (s1, some (i, x)) =>
    let at' (ph : CmdPhase) : State := s1.setQuad p ((s1.quad p).modCmd c.order (fun y => { y with phase := ph, count := i }))
    match x with
    | .access fault acc req => (at' (if i = 0 ∧ isVec c.words then .waiting else .started)).stopPart p acc req fault
    | .error cause => (at' .started).partFails p cause none

/-- A read of a feeder or drain. -/
def State.partRead (s : State) (p : PartId) (req : Requester) (va n : Nat) (verify : Bool) :
    Except (CmdStop × State) (List Byte × State) :=
  match s.agentRead (.cd p.cd) (.uncached 1) (s.quad p).ctx (va % 2 ^ 64) n verify with
  | (.ok b, s1) => .ok (b, s1)
  | (.error f, s1) => .error (.access f .read req, s1)

/-- A write of a drain. -/
def State.partWrite (s : State) (p : PartId) (va : Nat) (data : List Byte) : Except (CmdStop × State) State :=
  match s.agentWrite (.cd p.cd) (.uncached 1) (s.quad p).ctx (va % 2 ^ 64) data with
  | (.ok s1, _) => .ok s1
  | (.error f, s1) => .error (.access f .write (s.drainReq p false), s1)

/-- The bytes of a row of elements in memory; the bits of the last byte beyond the row keep their value (log entry 38). -/
def rowData (code : Nat) (xs : List Nat) (last : Byte) : List Byte :=
  let w := memWidth code
  let n := w * xs.length
  let keep := if n % 8 = 0 then 0 else last.toNat / 2 ^ (n % 8) * 2 ^ n
  leBytes ((n + 7) / 8) (packElems w xs + keep)

/-- Write a row of elements: the bits of its last byte beyond the row keep their values, without a read of the destination (05
R139; log entry 38). -/
def State.partWriteRow (s : State) (p : PartId) (va code : Nat) (xs : List Nat) : Except (CmdStop × State) State :=
  let n := rowBytes code xs.length
  match s.agentLocate (.cd p.cd) (s.quad p).ctx .write (rangePieces (va % 2 ^ 64) n) with
  | (.error f, s1) => .error (.access f .write (s.drainReq p false), s1)
  | (.ok l, s1) =>
    if s1.pieceHeld l then .error (.access { stop := .held, va := va % 2 ^ 64, pa := none } .write (s.drainReq p false), s1)
    else
      let last := match l.getLast? with
        | some (pa, m) => s1.byteAt (pa + m - 1)
        | none => 0
      .ok (s1.agentScatter (.cd p.cd) (.uncached 1) l (rowData code xs last))

/-- The feeder of a logical row (03 R93), for a LOADB or for the A stream. -/
def State.feederReq (s : State) (p : PartId) (loadb : Bool) (row : Nat) : Requester :=
  .feeder { p with q := Fin.ofNat 4 (nth 0 (partFeeders (s.quadsOf p)) (row / 32)) } loadb

/-! ## LOADB (05 R137) -/

/-- One row of B, with the scales that begin at it (03 R79, R80). -/
def State.loadRow (p : PartId) (ws : List Nat) (s : State) (k : Nat) : Except (CmdStop × State) State := do
  let fmt := cFmt ws
  let n := fld ws 2 40 9
  let req := s.feederReq p true k
  let (b, s1) ← s.partRead p req (fld ws 1 0 64 + k * fld ws 2 0 32) (rowBytes fmt n) true
  let (sc, s2) ← if isMx fmt ∧ k % 32 = 0 then s1.partRead p req (fld ws 3 0 64 + k / 32 * fld ws 4 0 32) n true
    else .ok ([], s1)
  let q := s2.quad p
  let old := if k = 0 then BBuf.empty else q.bshd
  let klen := fld ws 2 32 7
  .ok (s2.setQuad p { q with bshd :=
    { full := decide (k + 1 = klen), fmt := fmt, k := klen, n := n, elems := old.elems ++ elems (fmtWidth fmt) (leNat b) n,
      scales := old.scales ++ sc.map (·.toNat) } })

/-- `LOADB` (R137). -/
def execLoadb (part : PartId) (bad : Option (Nat × ArrayError)) (s : State) : Host.Outcome State Fault Refusal :=
  next (match s.ready part 1 with
    | some c => s.runCmd part c (fld c.words 2 32 7) bad (State.loadRow part c.words)
    | none => s)

/-! ## MXA and MXZ (05 R138) -/

/-- The settings of a vector command that its sums use. -/
structure VecCfg where
  fmt : Nat
  acc : Nat
  clamp : Bool
  daz : Bool
  add : Bool
deriving DecidableEq, Repr

/-- The column sum of one output column (04 R111, R114): the vector's elements and scales against column `n` of B. -/
def vecColumn (v : VecCfg) (b : BBuf) (c : SrCtx) (as sa : List Nat) (n : Nat) : Nat × TFlags :=
  let bRow (k : Nat) : Nat := nth 0 b.elems (k * b.n + n)
  match intFmt v.fmt with
  | some (w, sg) =>
    let val (x : Nat) : Int := if sg then toSigned w x else (x : Int)
    let (x, g) := columnSumInt v.clamp ((countFrom 0 b.k).map (fun k => val (nth 0 as k) * val (bRow k)))
    (ofSigned 32 x, g)
  | none =>
    let mx := isMx v.fmt
    let ps := (countFrom 0 b.k).map (fun k =>
      scaledProduct mx (nth 0 sa (k / 32)) (nth 0 b.scales (k / 32 * b.n + n))
        (flushIn v.daz v.fmt (nth 0 as k)) (flushIn v.daz v.fmt (bRow k)))
    let (x, g) := columnSum v.acc c 0 .zero .none ps
    ((accFloat v.acc).encode x, g)

/-- Write one entry of a tile and collect flags. -/
def Tile.put (x : Tile) (row col : Nat) (e : Nat) (g : TFlags) : Tile :=
  { x with
    entries := mset 0 x.entries (row * 1024 + col) (BitVec.ofNat 80 e), sat := x.sat || g.sat, nv := x.nv || g.nv, of := x.of || g.of }

/-- The entry of a tile. -/
def Tile.at (x : Tile) (row col : Nat) : Nat := (mget 0 x.entries (row * 1024 + col)).toNat

/-- The sums of one vector enter the tile (04 R111, R112). -/
def Tile.vector (x : Tile) (v : VecCfg) (b : BBuf) (c : SrCtx) (row : Nat) (as sa : List Nat) : Tile :=
  (countFrom 0 b.n).foldl (fun (x : Tile) n =>
    let cn := { c with n := (c.n + n) % 2 ^ 32 }
    let (sum, g) := vecColumn v b cn as sa n
    let (e, h) := if v.add then tileAdd v.acc v.clamp cn (x.at row n) sum else (sum, .none)
    x.put row n e (g.or h)) x

/-- A tile as an `MXZ` finds it: flags and poison cleared, the format set, other entries kept only in the same format
(05 R138). -/
def Tile.forMxz (x : Tile) (acc : Nat) : Tile :=
  { entries := if x.fmt.toNat = acc then x.entries else [], fmt := BitVec.ofNat 8 acc, sat := false, nv := false,
    of := false, poison := false }

/-- `SRSEED` of a context on a die (04 R121). -/
def State.seed (s : State) (d : Fin 4) (ctx : BitVec 6) : Word := mget 0 s.srseed (d.val * 64 + ctx.toNat)

/-- One vector of a command: each feeder reads its share, then the sums are written (03 R77, R93). -/
def State.vecStep (p : PartId) (ws : List Nat) (s : State) (i : Nat) : Except (CmdStop × State) State := do
  let fmt := cFmt ws
  let w := fmtWidth fmt
  let q0 := s.quad p
  let b := if cNewb ws ∧ i = 0 then q0.bshd else q0.bact
  let va := fld ws 1 0 64 + i * fld ws 2 0 32
  let lowN := min b.k 32
  let (lo, s1) ← s.partRead p (s.feederReq p false 0) va (rowBytes fmt lowN) true
  let (hi, s2) ← if 32 < b.k then s1.partRead p (s.feederReq p false 32) (va + 32 * w / 8) (rowBytes fmt (b.k - 32)) true else .ok ([], s1)
  let sva := fld ws 3 0 64 + i * fld ws 4 0 32
  let (sa0, s2a) ← if isMx fmt then s2.partRead p (s.feederReq p false 0) sva 1 true else .ok ([], s2)
  let (sa1, s3) ← if isMx fmt ∧ 32 < b.k then s2a.partRead p (s.feederReq p false 32) (sva + 1) 1 true else .ok ([], s2a)
  let sa := sa0 ++ sa1
  let q := s3.quad p
  let s4 := if cNewb ws ∧ i = 0 then s3.setQuad p { q with bact := b, bshd := BBuf.empty } else s3
  let tid := clusterTile p (cTile ws 0)
  let t0 := s4.tile tid
  let t := if cOp ws = 3 ∧ i = 0 then t0.forMxz (cAux ws) else t0
  let cfg : VecCfg := { fmt := fmt, acc := cAux ws, clamp := fld ws 2 48 1 = 1, daz := fld ws 2 49 1 = 1, add := decide (cOp ws = 2) }
  let c : SrCtx :=
    { seed := s4.seed p.cd q.ctx, step := fld ws 4 32 32, m := (fld ws 5 0 32 + i) % 2 ^ 32, n := fld ws 5 32 32
      korg := fld ws 6 0 32 }
  let as := elems w (leNat lo) lowN ++ elems w (leNat hi) (b.k - 32)
  .ok (s4.setTile tid (t.vector cfg b c (fld ws 2 40 7 + i) as (sa.map (·.toNat))))

/-- Cycles frozen dry and frozen drain-full while vectors run: how many is a matter of timing (03 R83, R85, R102; log entry 4). A dry
freeze takes a vector after the first, so that one vector, or a first vector that is not there, counts none; and with no vector issued
no result is on its way to a drain. -/
def State.countFreezes (s : State) (p : PartId) (total : Nat) (order : Nat) : State :=
  let q := s.quad p
  let begun := q.queue.any (fun c => decide (c.order = order) && decide (c.phase ≠ .waiting))
  let flows := q.queue.any (fun c => isVec c.words && (decide (c.phase = .started) || decide (c.phase = .issued)))
  (s.setQuad p { q with
    dryCnt := if begun ∧ 1 < total then satAdd q.dryCnt (Config.elapsed s.fresh) else q.dryCnt
    drnCnt := if flows then satAdd q.drnCnt (Config.elapsed (s.fresh + 1)) else q.drnCnt }).bump.bump

/-- Issue or go on with a vector command. -/
def State.runVectors (s : State) (p : PartId) (op : Nat) (bad : Option (Nat × ArrayError)) : State :=
  match s.ready p op with
  | some c =>
    let total := fld c.words 2 32 7
    (s.runCmd p c total bad (State.vecStep p c.words)).countFreezes p total c.order
  | none => s

/-- `MXA` (R138). -/
def execMxa (part : PartId) (bad : Option (Nat × ArrayError)) (s : State) : Host.Outcome State Fault Refusal :=
  next (s.runVectors part 2 bad)

/-- `MXZ` (R138). -/
def execMxz (part : PartId) (bad : Option (Nat × ArrayError)) (s : State) : Host.Outcome State Fault Refusal :=
  next (s.runVectors part 3 bad)

/-! ## DRAIN (05 R139) -/

/-- The settings of a `DRAIN` word, for the format of its tiles. -/
def drainCfg (ws : List Nat) (tfmt : Nat) : DrainCfg :=
  { out := cFmt ws, aux := cAux ws, tfmt := tfmt, eop := dEop ws, scmode := dScmode ws, rmode := dRmode ws,
    ovf := fld ws 7 57 1 = 1, ftz := fld ws 7 58 1 = 1, clamp := fld ws 7 63 1 = 1 }

/-- Collect flags on every tile that a command names (04 R125). -/
def State.flagTiles (s : State) (p : PartId) (ts : List Nat) (g : TFlags) : State :=
  ts.foldl (fun (s : State) t =>
    let id := clusterTile p t
    let x := s.tile id
    s.setTile id { x with sat := x.sat || g.sat, nv := x.nv || g.nv, of := x.of || g.of }) s

/-- Cut a list into pieces of 32. -/
def blocks32 {α : Type} : Nat → List α → List (List α)
  | 0, _ => []
  | fuel + 1, xs => match xs with
    | [] => []
    | _ => xs.take 32 :: blocks32 fuel (xs.drop 32)

/-- The results of one output vector: elements, scale bytes, flags (04 R122 to R124). -/
def drainRow (d : DrainCfg) (c : SrCtx) (raws : List (List Nat)) (scales es : List Nat) (n : Nat) : List Nat × List Nat × TFlags :=
  let wide := if d.work = 0x18 then 0x0F else 0x10
  let at' (j : Nat) : SrCtx := { c with n := (c.n + j) % 2 ^ 32 }
  let xs := (countFrom 0 n).map (fun j =>
    drainStages d (decodeAny wide (nth (nth 0 scales 0) scales j)) (nth 0 es j) (combine d (at' j) (raws.map (fun r => nth 0 r j))))
  let g := xs.foldl (fun g x => g.or x.2) TFlags.none
  if isMx d.out then
    let vals := (xs.map (fun x => match x.1 with
      | .flt v => v
      | .int i => FVal.ofInt i)).zip ((countFrom 0 n).map at')
    let bs := (blocks32 (n + 1) vals).map (mxBlock d)
    (bs.flatMap (fun b => b.2.1), bs.map (·.1), bs.foldl (fun g b => g.or b.2.2) g)
  else
    let ys := (xs.zip ((countFrom 0 n).map at')).map (fun x => drainOut d x.2 x.1.1)
    (ys.map (·.1), [], ys.foldl (fun g y => g.or y.2) g)

/-- One output vector: the drain's reads, the pipeline, its writes. -/
def State.drainStep (p : PartId) (ws : List Nat) (s : State) (i : Nat) : Except (CmdStop × State) State := do
  let ts := cTiles ws
  let tiles := ts.map (fun t => s.tile (clusterTile p t))
  let d := drainCfg ws ((tiles.map (fun t => t.fmt.toNat)).headD 0x18)
  let n := dNcols ws
  let req := s.drainReq p false
  let wide := if d.work = 0x18 then 0x0F else 0x10
  let (sc, s1) ← if d.scmode = 2 then s.partRead p req (fld ws 3 0 64) (rowBytes wide n) false else .ok ([], s)
  let (eb, s2) ← if d.eop ≠ 0 then s1.partRead p req (fld ws 4 0 64 + i * fld ws 2 32 32) (rowBytes d.aux n) false else .ok ([], s1)
  let scales := if d.scmode = 1 then [fld ws 3 0 64] else elems (fmtWidth wide) (leNat sc) (if d.scmode = 2 then n else 0)
  let es := elems (memWidth d.aux) (leNat eb) (if d.eop = 0 then 0 else n)
  let c : SrCtx :=
    { seed := s2.seed p.cd (s2.quad p).ctx, step := fld ws 6 0 32, m := (fld ws 6 32 32 + i) % 2 ^ 32, n := fld ws 7 0 32
      korg := 0 }
  let raws := tiles.map (fun t => (countFrom 0 n).map (t.at (dVoff ws + i)))
  let (ys, ss, g) := drainRow d c raws scales es n
  let va := fld ws 1 0 64 + i * fld ws 2 0 32
  let s4 ← s2.partWriteRow p va d.out ys
  let s5 ← if isMx d.out then s4.partWrite p (fld ws 5 0 64 + i * (n / 32)) (ss.map (BitVec.ofNat 8)) else .ok s4
  .ok (s5.flagTiles p ts g)

/-- `DRAIN` (R139); one whose tile was poisoned while it waited ends with status 12h (R143). -/
def execDrain (part : PartId) (bad : Option (Nat × ArrayError)) (s : State) : Host.Outcome State Fault Refusal :=
  next (match s.ready part 4 with
    | some c =>
      if c.status ≠ 0 then s.setQuad part ((s.quad part).modCmd c.order (fun x => { x with phase := .issued }))
      else s.runCmd part c (dMcnt c.words) bad (State.drainStep part c.words)
    | none => s)

/-! ## TILECLR and FENCE (05 R140, R145) -/

/-- `TILECLR` (R140). -/
def execTileclr (part : PartId) (s : State) : Host.Outcome State Fault Refusal :=
  next (match s.ready part 5 with
    | some c =>
      let id := clusterTile part (cTile c.words 0)
      let s1 := s.setTile id { Tile.reset with fmt := BitVec.ofNat 8 (cFmt c.words) }
      s1.setQuad part ((s1.quad part).modCmd c.order (fun x => { x with phase := .issued }))
    | none => s)

/-- `FENCE` issues and retires at once (R145). -/
def execFence (part : PartId) (s : State) : Host.Outcome State Fault Refusal :=
  next (match s.ready part 6 with
    | some c => s.retire part c
    | none => s)

/-! ## Retirement and recovery (05 R146, R148; 03 R96) -/

/-- The operations among which commands retire in order. -/
def retireClass (op : Nat) : List Nat := if op = 2 ∨ op = 3 then [2, 3] else [op]

/-- The command of a sequence number retires, once every earlier one of its kind has (05 R145, R146). -/
def State.retireSeq (s : State) (p : PartId) (n : BitVec 16) : State :=
  let q := s.quad p
  if !s.partRuns p then s
  else match q.queue.find? (fun c => decide (c.seq = n) && decide (c.phase = .issued)) with
  | none => s
  | some c =>
    let ahead := q.queue.takeWhile (fun x => decide (x.order ≠ c.order))
    if ahead.any (fun x => decide (x.phase ≠ .ended) && (retireClass (cOp c.words)).contains (cOp x.words)) then s
    else s.retire p c

/-- `COMMAND_RETIRE` (R146). -/
def execCommandRetire (part : PartId) (n : BitVec 16) (s : State) : Host.Outcome State Fault Refusal := next (s.retireSeq part n)

/-- A tile becomes poisoned: its status, and every waiting `DRAIN` of the cluster that names it (05 R143, R149). -/
def State.poisonTile (s : State) (p : PartId) (t : Nat) : State :=
  let id := clusterTile p t
  let s1 := s.setTile id { s.tile id with poison := true }
  (clusterQuads p.cd p.cl).foldl (fun (s : State) o =>
    let q := s.quad o
    s.setQuad o { q with queue := q.queue.map (fun c =>
      if c.phase = .waiting ∧ cOp c.words = 4 ∧ t ∈ cTiles c.words then { c with status := 0x12 } else c) }) s1

/-- The requesters of a partition's quadrants but the writer of its records. -/
def partRequesters (p : PartId) : List Requester :=
  (countFrom 0 4).flatMap (fun q =>
    let at' : PartId := { p with q := Fin.ofNat 4 q }
    [.feeder at' false, .feeder at' true, .drain at' false])

/-- Parked accesses of a partition are discarded: they leave the fault batches and the writes that wait for a cut (03 R96). -/
def State.unparkPart (s : State) (p : PartId) : State :=
  let mine (q : Nat) : Bool := (s.quadsOf p).contains q
  let gone := (partRequesters p).filter (fun r => match r with
    | .feeder at' _ => mine at'.q.val
    | .drain at' _ => mine at'.q.val
    | _ => false)
  let s1 := gone.foldl (fun (s : State) r => s.dropRequester (.cd p.cd) r) s
  { s1 with snap := { s1.snap with heldReq := s1.snap.heldReq.filter (fun r => !gone.contains r) } }

/-- `QCTL.RECOVER` (03 R96, 05 R148): the records of commands that retired before, and of words rejected, come first. -/
def State.recoverPart (s : State) (p0 : PartId) : State :=
  let p := s.lead p0
  let q := s.quad p
  if !q.bound || !q.fault || s.frozen || !s.partAcked p then s
  else
    let live := q.queue.filter (fun c => decide (c.phase ≠ .ended))
    let gone := (live.filter (fun c => decide (c.phase ≠ .waiting))).map (fun c => { c with status := 0x11 })
      ++ (live.filter (fun c => decide (c.phase = .waiting))).map (fun c => { c with status := 0x10 })
    let s1 := s.setQuad p { q with
      queue := [], bact := BBuf.empty, bshd := BBuf.empty, fault := false, cause := 0, nextSeq := 1, restarted := true,
      retSeq := q.accSeq, aParked := false, bParked := false, drainParked := false }
    let s2 := (live.flatMap (fun c => cTiles c.words)).foldl (fun (s : State) t => s.poisonTile p t) (s1.unparkPart p)
    gone.foldl (fun (s : State) c => s.reportCmd p c) (s2.flushRecords p)

/-- `QCTL_RECOVER` (R96). -/
def execQctlRecover (part : PartId) (s : State) : Host.Outcome State Fault Refusal := next (s.recoverPart part)

/-- `QCPLBASE_WRITE` (R133). -/
def execQcplbaseWrite (part : PartId) (value : Word) (s : State) : Host.Outcome State Fault Refusal := next (s.setRing part value)

/-- `TCTL.CLRFLAGS` (05 R150). -/
def State.clrTile (s : State) (t : TileId) : State :=
  if s.tilePend t.cd t.cl t.t.val = 0 then s.setTile t { s.tile t with sat := false, nv := false, of := false } else s

/-- `TCTL_CLRFLAGS` (R150). -/
def execTctlClrflags (tile : TileId) (s : State) : Host.Outcome State Fault Refusal := next (s.clrTile tile)

/-! ## DRAIN, TILE.RD and TILE.WR (05 R144, 10 R261 to R263) -/

/-- The slot of an entry in a V register, by tile format (10 R261). -/
def tileSlot (fmt : Nat) : Nat := if fmt = 0x18 ∨ fmt = 0x19 then 64 else if fmt = 0x1A then 128 else 32

/-- The frame of the three instructions: reserved bits, binding, the wait in the acceptance order, the row and the format
(05 R144, 10 R261). `setFlags` says that bits 10:8 of the data register have a meaning. -/
def State.tileInstrBody (s : State) (c : CoreId) (k : Core) (t : Byte) (dr : Fin 32) (setFlags : Bool)
    (body : TileId → Tile → Nat → Nat → Res) : Res :=
  match c with
  | .hazia _ => .trap s 0x01 0 none
  | .sycen d cl =>
    let x := (k.getD dr).toNat
    let n := t.toNat % 16
    let at' : PartId := { cd := d, cl := cl, arr := 0, q := 0 }
    let o := s.quad (s.tileOwner at' n)
    if 16 ≤ t.toNat ∨ bit x 7 = true ∨ x / 2048 ≠ 0 ∨ (!setFlags ∧ bits x 8 3 ≠ 0) then .trap s 0x01 0 none
    else if !o.bound ∨ o.ctx ≠ s.cctx (clusterKey d cl) then .trap s 0x0E n none
    else
      let order := (s.tileInstr d cl n).getD s.fresh
      if (s.inFlight d cl).any (fun y => decide (y.order < order) && decide (n ∈ cTiles y.words)) then
        .waits (if (s.tileInstr d cl n).isSome then s else s.bump) (.tile order n)
      else
        let id : TileId := { cd := d, cl := cl, t := Fin.ofNat 16 n }
        let tile := s.tile id
        let row := bits x 0 7
        if tile.fmt = 0xFF ∨ tileRows tile.fmt.toNat ≤ row then .trap s 0x01 0 none
        else body id tile row (bits x 8 3)

/-- The entries of a tile row. -/
def Tile.row (x : Tile) (row : Nat) : List Nat := (countFrom 0 (tileCols x.fmt.toNat)).map (x.at row)

/-- `DRAIN_INSTRUCTION` (R263). -/
def execDrainInstruction (c : CoreId) (p : Pfx) (vd : Fin 32) (t : Byte) (dr : Fin 32) (s : State) : Host.Outcome State Fault Refusal :=
  let types := [0x01, 0x02, 0x03, 0x04, 0x05, 0x0B, 0x0C, 0x0D, 0x0E, 0x0F, 0x10]
  next (s.runInstr c p { bytes := 4, d := [dr], types := types, sycenOnly := true } (fun s k =>
    s.tileInstrBody c k t dr false (fun _ tile row _ =>
      if tile.poison then .trap s 0x0F 0 none
      else
        let out := typeCode p
        let ys := (tile.row row).map (drainAny tile.fmt.toNat out k.rnd)
        .done s ((k.flag (ys.foldl (fun g y => g.or y.2) Flg.none)).setV vd
          (BitVec.ofNat 16384 (packElems (fmtWidth out) (ys.map (·.1))))) .seq)))

/-- `TILE_RD` (R262). -/
def execTileRd (c : CoreId) (p : Pfx) (vd : Fin 32) (t : Byte) (dr : Fin 32) (s : State) : Host.Outcome State Fault Refusal :=
  next (s.runInstr c p { bytes := 4, d := [dr], sycenOnly := true } (fun s k =>
    s.tileInstrBody c k t dr false (fun _ tile row _ =>
      if tile.poison then .trap s 0x0F 0 none
      else .done s (k.setV vd (BitVec.ofNat 16384 (packElems (tileSlot tile.fmt.toNat) (tile.row row)))) .seq)))

/-- An entry as `TILE.WR` stores it: bit for bit, but for a non-canonical W80 (10 R262). -/
def storedEntry (fmt raw : Nat) : Nat × Bool :=
  let x := raw % 2 ^ (fmtWidth fmt)
  if fmt = 0x1A ∧ !w80Canonical x then ((accFloat fmt).nanBits, true) else (x, false)

/-- `TILE_WR` (R262). -/
def execTileWr (c : CoreId) (p : Pfx) (t : Byte) (dr vs : Fin 32) (s : State) : Host.Outcome State Fault Refusal :=
  next (s.runInstr c p { bytes := 4, d := [dr], types := accFormats, sycenOnly := true } (fun s k =>
    s.tileInstrBody c k t dr true (fun id tile row flags =>
      let fmt := tile.fmt.toNat
      if p.type ≠ some tile.fmt then .trap s 0x01 0 none
      else
        let es := (elems (tileSlot fmt) (k.getV vs).toNat (tileCols fmt)).map (storedEntry fmt)
        let g : TFlags := { sat := bit flags 0, nv := bit flags 1 || es.any (·.2), of := bit flags 2 }
        let tile1 := (es.zip (countFrom 0 es.length)).foldl (fun (x : Tile) e => x.put row e.2 e.1.1 .none) tile
        .done (s.setTile id { tile1 with sat := tile1.sat || g.sat, nv := tile1.nv || g.nv, of := tile1.of || g.of }) k .seq)))

end Sys2Proof.Machine
end

