-- ==== Sys2Proof/Machine/System.lean ====
section
/-! DEFINITION. Control registers, mode, traps, waiting and the interrupts of the cores (06 R155 to R165, 09). -/

namespace Sys2Proof.Machine

/-! ## Control registers (06 R155 to R158) -/

/-- `STATUS` as a word (06 R157). A Hazia core reads `MODE` as 1 (06 R179). -/
def statusWord (c : CoreId) (t : Status) : Word :=
  let mode := match c with
    | .hazia _ => true
    | .sycen _ _ => t.mode
  BitVec.ofNat 64 (b2n t.gm + 2 * t.pl.num + 8 * b2n mode + 16 * b2n t.elevate + 32 * t.rm.toNat + 256 * b2n t.nx
    + 512 * b2n t.uf + 1024 * b2n t.of + 2048 * b2n t.dz + 4096 * b2n t.nv)

/-- `STATUS` after a write of its RW fields (06 R157). -/
def Status.written (t : Status) (w : Word) : Status :=
  { t with
    gm := w.getLsbD 0, elevate := w.getLsbD 4, rm := w.extractLsb' 5 2, nx := w.getLsbD 8, uf := w.getLsbD 9,
    of := w.getLsbD 10, dz := w.getLsbD 11, nv := w.getLsbD 12 }

/-- `TRAPSTATUS` as a word (09 R229). -/
def trapStatusWord (t : TrapRegs) : Word :=
  BitVec.ofNat 64 (t.ppl.toNat + 4 * t.origin.toNat + 16 * b2n t.pgm + 32 * b2n t.pmode + 64 * b2n t.pb
    + 128 * t.shcnt.toNat + 512 * b2n t.shmode + 1024 * b2n t.esc + 2048 * b2n t.int)

/-- `TRAPSTATUS` after a write of its RW fields (09 R229). -/
def TrapRegs.statusWritten (t : TrapRegs) (w : Word) : TrapRegs :=
  { t with
    ppl := w.extractLsb' 0 2, pgm := w.getLsbD 4, pmode := w.getLsbD 5, pb := w.getLsbD 6, shcnt := w.extractLsb' 7 2,
    shmode := w.getLsbD 9 }

/-- `TRAPINFO` as a word (09 R230). -/
def trapInfoWord (t : TrapRegs) : Word :=
  BitVec.ofNat 64 (t.cause.toNat + 256 * t.detail.toNat + 65536 * b2n t.addrv + 131072 * b2n t.write
    + 262144 * b2n t.fetch + 524288 * t.vpage.toNat)

/-- `TRAPINFO` after a write (09 R230). -/
def TrapRegs.infoWritten (t : TrapRegs) (w : Word) : TrapRegs :=
  { t with
    cause := w.extractLsb' 0 8, detail := w.extractLsb' 8 8, addrv := w.getLsbD 16, write := w.getLsbD 17,
    fetch := w.getLsbD 18, vpage := w.extractLsb' 19 45 }

/-- `LSTATE` as a word (06 R168). -/
def lstateWord (b : Bank) : Word := BitVec.ofNat 64 (b.act.toNat + 8 * b2n b.plb + 16 * b.plvl.toNat)

/-- `CLUSTERID` of a sequencer, `HCOREID` of a Hazia core (06 R158, R179). -/
def State.clusterId (s : State) : CoreId → Word
  | .sycen d nn => BitVec.ofNat 64 (d.val + 4 * nn.val + 256 * (s.cctxByte (clusterKey d nn) % 64) + 65536 * s.moduleId)
  | .hazia k => BitVec.ofNat 64 k.val

/-- A loop or shadow-stack register of a bank, by control register number (06 R155). -/
def Bank.ctl (b : Bank) (n : Nat) : Option Word :=
  match n with
  | 0x020 => some b.ssBase
  | 0x021 => some b.ssLimit
  | 0x022 => some b.ssPtr
  | 0x030 => some (mget 0 b.lstart 0)
  | 0x031 => some (mget 0 b.lstart 1)
  | 0x032 => some (mget 0 b.lstart 2)
  | 0x034 => some (mget 0 b.lend 0)
  | 0x035 => some (mget 0 b.lend 1)
  | 0x036 => some (mget 0 b.lend 2)
  | 0x038 => some ((mget 0 b.lcount 0).zeroExtend 64)
  | 0x039 => some ((mget 0 b.lcount 1).zeroExtend 64)
  | 0x03A => some ((mget 0 b.lcount 2).zeroExtend 64)
  | 0x03C => some (lstateWord b)
  | _ => none

/-- Write a loop or shadow-stack register of a bank (06 R155, R168). -/
def Bank.setCtl (b : Bank) (n : Nat) (w : Word) : Bank :=
  match n with
  | 0x020 => { b with ssBase := w }
  | 0x021 => { b with ssLimit := w }
  | 0x022 => { b with ssPtr := w }
  | 0x03C => { b with act := w.extractLsb' 0 3, plb := w.getLsbD 3, plvl := w.extractLsb' 4 2 }
  | _ =>
    if 0x030 ≤ n ∧ n ≤ 0x032 then { b with lstart := mset 0 b.lstart (n - 0x030) w }
    else if 0x034 ≤ n ∧ n ≤ 0x036 then { b with lend := mset 0 b.lend (n - 0x034) w }
    else if 0x038 ≤ n ∧ n ≤ 0x03A then { b with lcount := mset 0 b.lcount (n - 0x038) (w.extractLsb' 0 32) }
    else b

/-- The least privileged level that may read a control register; none: no such number (06 R155). -/
def ctlReadLevel (n : Nat) : Option Level :=
  if [0x000, 0x001, 0x002, 0x003, 0x030, 0x031, 0x032, 0x034, 0x035, 0x036, 0x038, 0x039, 0x03A, 0x03C].contains n then some .user
  else if [0x010, 0x011, 0x012, 0x013, 0x014, 0x018, 0x019, 0x020, 0x021, 0x022].contains n then some .supervisor
  else none

/-- The least privileged level that may write a control register; none: no level may (06 R155). -/
def ctlWriteLevel (n : Nat) : Option Level :=
  if [0x000, 0x030, 0x031, 0x032, 0x034, 0x035, 0x036, 0x038, 0x039, 0x03A, 0x03C].contains n then some .user
  else if [0x010, 0x011, 0x012, 0x013, 0x014, 0x018, 0x019].contains n then some .supervisor
  else if [0x020, 0x021, 0x022].contains n then some .machine
  else none

/-- Whether a level is at least as privileged as another. -/
def Level.may (l least : Level) : Bool := decide (l.num ≤ least.num)

/-- The value of a control register of the current level (06 R155). `CYCLES` is what the core holds. -/
def State.readCtl (s : State) (c : CoreId) (k : Core) (n : Nat) : Word :=
  let t := k.trapRegs k.status.pl
  match n with
  | 0x000 => statusWord c k.status
  | 0x001 => BitVec.ofNat 64 (vlen c)
  | 0x002 => k.cycles
  | 0x003 => s.clusterId c
  | 0x010 => t.pc
  | 0x011 => trapStatusWord t
  | 0x012 => t.target
  | 0x013 => trapInfoWord t
  | 0x014 => BitVec.ofNat 64 (b2n t.hmode + 4096 * t.base.toNat)
  | 0x018 => k.ien.zeroExtend 64
  | 0x019 => k.ipend.zeroExtend 64
  | _ => ((k.bank k.status.pl).ctl n).getD 0

/-- Whether a write of `STATUS` is refused: a user changes `RM` and the flags alone, and only machine level changes
`ELEVATE` (06 R157). -/
def statusRefused (t : Status) (w : Word) : Bool :=
  (decide (t.pl = .user) && (w.getLsbD 0 != t.gm)) || (decide (t.pl ≠ .machine) && (w.getLsbD 4 != t.elevate))

/-- Write a control register of the current level (06 R155, R157; 09 R228 to R231). -/
def Core.writeCtl (k : Core) (n : Nat) (w : Word) : Core :=
  let l := k.status.pl
  let t := k.trapRegs l
  match n with
  | 0x000 => { k with status := k.status.written w }
  | 0x010 => k.setTrapRegs l { t with pc := w }
  | 0x011 => k.setTrapRegs l (t.statusWritten w)
  | 0x012 => k.setTrapRegs l { t with target := w }
  | 0x013 => k.setTrapRegs l (t.infoWritten w)
  | 0x014 => k.setTrapRegs l { t with hmode := w.getLsbD 0, base := w.extractLsb' 12 52 }
  | 0x018 => { k with ien := w.extractLsb' 0 6 }
  | 0x019 => { k with ipend := k.ipend &&& ~~~(w.extractLsb' 0 6) }
  | _ => k.setBank l ((k.bank l).setCtl n w)

/-- Why an access to a control register is refused: cause and detail (06 R155, R157, 09 R223). -/
def ctlRefusal (k : Core) (n : Nat) (write : Option Word) : Option (Nat × Nat) :=
  match ctlReadLevel n with
  | none => some (0x01, 0)
  | some rl =>
    match write with
    | none => if k.status.pl.may rl then none else some (0x02, 1)
    | some w =>
      match ctlWriteLevel n with
      | none => some (0x02, 1)
      | some wl =>
        if !k.status.pl.may wl then some (0x02, 1)
        else if n = 0 ∧ statusRefused k.status w then some (0x02, 1)
        else none

/-- Sample `CYCLES`: it has advanced by an amount the model leaves free (01 R36, log entry 4). -/
def State.sampleCycles (s : State) (k : Core) : State × Core :=
  (s.bump, { k with cycles := k.cycles + BitVec.ofNat 64 (Config.elapsed s.fresh) })

/-- `MFC` (R156). -/
def execMfc (c : CoreId) (p : Pfx) (x : XReg) (num : BitVec 16) (s : State) : Host.Outcome State Fault Refusal :=
  next (s.runInstr c p { bytes := 4, d := x.dregs } (fun s k =>
    match ctlRefusal k num.toNat none with
    | some (cause, detail) => .trap s cause detail none
    | none =>
      if num = 2 then
        let (s1, k1) := s.sampleCycles k
        .done s1 (k1.setX x k1.cycles) .seq
      else .done s (k.setX x (s.readCtl c k num.toNat)) .seq))

/-- `MTC` (R213, R155, R157). -/
def execMtc (c : CoreId) (p : Pfx) (num : BitVec 16) (x : XReg) (s : State) : Host.Outcome State Fault Refusal :=
  next (s.runInstr c p { bytes := 4, d := x.dregs } (fun s k =>
    match ctlRefusal k num.toNat (some (k.getX x)) with
    | some (cause, detail) => .trap s cause detail none
    | none => .done s (k.writeCtl num.toNat (k.getX x)) .seq))

/-! ## Bank access (06 R160, 07 R189) -/

/-- A bank operand (07 R189): level, and an A register, a D register or a control register of R160's set. -/
inductive BankReg where
  | a (n : Fin 16)
  | d (n : Fin 32)
  | ctl (n : Nat)
deriving DecidableEq, Repr

/-- Decode a bank operand; none: reserved values (07 R189). -/
def bankOperand (w : BitVec 16) : Option (Level × BankReg) :=
  let n := w.toNat
  let reg := n % 4096
  let lvl := levelOf (n / 16384)
  if n / 16384 = 3 then none
  else match n / 4096 % 4 with
  | 0 => if reg < 16 then some (lvl, .a (Fin.ofNat 16 reg)) else none
  | 1 => if reg < 32 then some (lvl, .d (Fin.ofNat 32 reg)) else none
  | 2 => if ((Bank.reset).ctl reg).isSome then some (lvl, .ctl reg) else none
  | _ => none

/-- The D operands of a bank operand (07 R184). -/
def bankDregs (w : BitVec 16) : List (Fin 32) :=
  match bankOperand w with
  | some (_, .d n) => [n]
  | _ => []

/-- A shadow-stack register by number. -/
def BankReg.isShadowStack : BankReg → Bool
  | .ctl n => decide (0x020 ≤ n ∧ n ≤ 0x022)
  | _ => false

/-- Why a bank access is refused (06 R160, R161). -/
def bankRefusal (k : Core) (lvl : Level) (r : BankReg) (write : Bool) : Option (Nat × Nat) :=
  match k.status.pl with
  | .user => some (0x02, 0)
  | .supervisor => if lvl = .user ∧ !(write && r.isShadowStack) then none else some (0x02, 2)
  | .machine => if lvl = .machine then some (0x02, 2) else none

/-- `MFB` (R160). -/
def execMfb (c : CoreId) (p : Pfx) (x : XReg) (b16 : BitVec 16) (s : State) : Host.Outcome State Fault Refusal :=
  next (s.runInstr c p { bytes := 4, d := x.dregs ++ bankDregs b16 } (fun s k =>
    match bankOperand b16 with
    | none => .trap s 0x01 0 none
    | some (lvl, r) =>
      match bankRefusal k lvl r false with
      | some (cause, detail) => .trap s cause detail none
      | none =>
        let w := match r with
          | .a n => k.getAL lvl n.val
          | .d n => k.getDL lvl n.val
          | .ctl n => ((k.bank lvl).ctl n).getD 0
        .done s (k.setX x w) .seq))

/-- `MTB` (R160). -/
def execMtb (c : CoreId) (p : Pfx) (b16 : BitVec 16) (x : XReg) (s : State) : Host.Outcome State Fault Refusal :=
  next (s.runInstr c p { bytes := 4, d := x.dregs ++ bankDregs b16 } (fun s k =>
    match bankOperand b16 with
    | none => .trap s 0x01 0 none
    | some (lvl, r) =>
      match bankRefusal k lvl r true with
      | some (cause, detail) => .trap s cause detail none
      | none =>
        let w := k.getX x
        let k1 := match r with
          | .a n => k.setAL lvl n.val w
          | .d n => k.setDL lvl n.val w
          | .ctl n => k.setBank lvl ((k.bank lvl).setCtl n w)
        .done s k1 .seq))

/-! ## Plain system instructions -/

/-- `NOP` (R192). -/
def execNop (c : CoreId) (p : Pfx) (s : State) : Host.Outcome State Fault Refusal :=
  next (s.runLocal c p { bytes := 1 } (fun k => k))

/-- `HALT`: refused at user level; the core then stops until run control releases it (R161). -/
def execHalt (c : CoreId) (p : Pfx) (s : State) : Host.Outcome State Fault Refusal :=
  next (s.runInstr c p { bytes := 1 } (fun s k =>
    if k.status.pl = .user then .trap s 0x02 0 none
    else .done s { k with st := .halted, pair := none, haltReq := false } .seq))

/-- `MODE`: illegal in a delay slot, in the shadow of an earlier `MODE`, and with another operand than 0 or 1; a NOP
without shadow on a Hazia core (R165, 06 R179). -/
def execMode (c : CoreId) (p : Pfx) (m : Byte) (s : State) : Host.Outcome State Fault Refusal :=
  next (s.runInstr c p { bytes := 2, noSlot := true } (fun s k =>
    if 2 ≤ m.toNat then .trap s 0x01 0 none
    else match c with
    | .hazia _ => .done s k .seq
    | .sycen _ _ =>
      if (s.core c).shCnt ≠ 0 then .trap s 0x01 0 none
      else .done s { k with status := { k.status with mode := m.getLsbD 0 }, shCnt := 2, shMode := k.status.mode } .seq))

/-- `TRAP` (R223): a completing system call. -/
def execTrap (c : CoreId) (p : Pfx) (i : Byte) (s : State) : Host.Outcome State Fault Refusal :=
  next (s.runInstr c p { bytes := 2 } (fun s k => .completing s k 0x04 i.toNat))

/-- `BREAK` (R223): a breakpoint; a prefix before it is illegal (07 R181). -/
def execBreakI (c : CoreId) (p : Pfx) (s : State) : Host.Outcome State Fault Refusal :=
  next (s.runInstr c p { bytes := 1 } (fun s _ => .trap s 0x03 0 none))

/-- `RESERVED_OPCODE` (R190): an instruction that the decoder refuses. -/
def execReservedOpcode (c : CoreId) (_form : IllegalForm) (s : State) : Host.Outcome State Fault Refusal :=
  next (if s.executes c then s.trapHere c (s.core c) 0x01 0 none else s)

/-- The cause and detail of a fetch condition (09 R223). -/
def fetchTrap : FetchCondition → Nat × Nat
  | .address => (0x0A, 0)
  | .segment outside => (0x0B, if outside then 0 else 4)
  | .page => (0x0C, 0)
  | .bus => (0x0D, 0)

/-- `INSTRUCTION_FETCH_FAULT` (R188): a condition on a byte that decoding reaches, or on a byte of the delay slot of the
branch at the program counter (09 R235). -/
def execInstructionFetchFault (c : CoreId) (cond : FetchCondition) (va : Word) (s : State) : Host.Outcome State Fault Refusal :=
  next (if s.executes c then
      s.trapHere c (s.core c) (fetchTrap cond).1 (fetchTrap cond).2 (some { va := va, write := false, fetch := true })
    else s)

/-! ## Return (09 R234, R237) -/

/-- Apply, or drop, the pending loop-back of the level that `RTE` returns to (09 R234, R237). -/
def Core.rtePending (k : Core) (pb : Bool) (pc : Word) : Core :=
  let b := k.bank k.status.pl
  if !b.plb then k
  else if pb then k.setBank k.status.pl { b with plb := false }
  else
    let lv := b.plvl.toNat
    if b.active lv ∧ pc = mget 0 b.lend lv then
      let (b1, n) := b.loopBack lv pc
      { k.setBank k.status.pl { b1 with plb := false } with pc := n }
    else k.setBank k.status.pl { b with plb := false }

/-- `RTE` (R234). -/
def execRte (c : CoreId) (p : Pfx) (s : State) : Host.Outcome State Fault Refusal :=
  next (s.runInstr c p { bytes := 1, noSlot := true } (fun s k =>
    let t := k.trapRegs k.status.pl
    if k.status.pl = .user then .trap s 0x02 0 none
    else if t.ppl = 3 ∨ t.shcnt = 3 then .trap s 0x01 0 none
    else if t.ppl.toNat < t.origin.toNat ∧ ¬(k.status.pl = .machine ∧ k.status.elevate) then .trap s 0x02 3 none
    else
      let k1 := { k with
        resv := none, pair := none
        status := { k.status with elevate := false, pl := levelOf t.ppl.toNat, gm := t.pgm, mode := t.pmode }
        shCnt := t.shcnt
        shMode := if t.shcnt = 0 then false else t.shmode
        slot := if t.pb then .taken t.target else .none
        pc := t.pc }
      .done s ((k1.ofKind c).rtePending t.pb t.pc) .set))

/-! ## Waiting and interrupts (09 R220, R231, R233; 17 R409) -/

/-- Whether an interrupt is pending for a core (09 R231, 17 R409). -/
def State.interruptPending (s : State) (c : CoreId) (k : Core) : Bool :=
  match c with
  | .sycen _ _ => decide (k.ipend &&& k.ien ≠ 0)
  | .hazia n => decide (mget 0 s.host.vectors n.val ≠ 0)

/-- Whether the level and mask of a core let an interrupt be taken (09 R224). -/
def Core.unmasked (k : Core) : Bool := !k.status.gm && decide (k.status.pl ≠ .machine)

/-- The lowest-numbered pending enabled source of a sequencer (09 R223). -/
def lowestSource (k : Core) : Nat := ((countFrom 0 6).find? (fun i => (k.ipend &&& k.ien).getLsbD i)).getD 0

/-- The highest pending vector of a Hazia core (17 R409). -/
def highestVector (v : BitVec 256) : Nat := if v = 0 then 0 else Nat.log2 v.toNat

/-- Take the interrupt that is pending at a resume position; a Hazia core clears the vector it accepts (17 R409). -/
def State.takeInterrupt (s : State) (c : CoreId) (k : Core) (r : Resume) : State :=
  match c with
  | .sycen _ _ => s.takeTrap c k 0 (lowestSource k) none r true
  | .hazia n =>
    let v := mget 0 s.host.vectors n.val
    let top := highestVector v
    let s1 := { s with host := { s.host with vectors := mset 0 s.host.vectors n.val (v &&& ~~~(BitVec.ofNat 256 1 <<< top)) } }
    s1.takeTrap c k 0 top none r true

/-- Take an interrupt as a completing trap of the instruction of `len` bytes at the program counter (09 R233, 13 R326). -/
def State.interruptAfter (s : State) (c : CoreId) (k : Core) (len : Nat) : State :=
  let m := tagMode c k
  s.takeInterrupt c { (k.view m).withLoad (k.oldLoad m) with slot := .none } (k.resumeAfter len)

/-- End a `WAIT` at the program counter: take the interrupt as a completing trap, or go on (09 R233). -/
def State.endWait (s : State) (c : CoreId) (k : Core) : State :=
  let m := tagMode c k
  if k.unmasked then s.interruptAfter c k 1
  else s.setCore c ((((k.view m).counted { bytes := 1 }).withLoad (k.oldLoad m)).complete k.slot 1 .seq)

/-- `WAIT` (R233): holds E until an interrupt is pending, whatever `GM`. -/
def execWait (c : CoreId) (p : Pfx) (s : State) : Host.Outcome State Fault Refusal :=
  let k := s.core c
  if s.executes c && !({ bytes := 1 } : Shape).illegal c p k && s.interruptPending c k then next (s.endWait c k)
  else next (s.runInstr c p { bytes := 1 } (fun s _ => .waits s .interrupt))

/-- `WAIT_WAKE` (R233): an interrupt has become pending during `WAIT`; a requested halt wins (17 R411). -/
def execWaitWake (c : CoreId) (s : State) : Host.Outcome State Fault Refusal :=
  let k := s.core c
  if k.st = .run ∧ k.wait = some .interrupt ∧ s.interruptPending c k ∧ !s.coreFrozen c ∧ !(k.haltReq && k.haltsHere) then next (s.endWait c k)
  else next s

/-- Whether an interrupt can be accepted at the boundary before the instruction at the program counter (09 R220, R221,
R239): not behind a closed boundary, not over an access that is never abandoned, and not where a requested halt wins. -/
def State.acceptable (s : State) (c : CoreId) (k : Core) : Bool :=
  decide (k.st = .run) && !s.coreFrozen c && k.unmasked && !k.closed && s.interruptPending c k && !(k.haltReq && k.haltable)
  && (match k.wait with
    | some w => w.abandonable && decide (w ≠ .interrupt)
    | none => true)

/-- Abandon the instruction at the program counter for an interrupt. -/
def State.abandonFor (s : State) (c : CoreId) : State :=
  s.insteadOf c (fun s1 => s1.takeInterrupt c (s1.core c) (s1.core c).resumeHere)

/-- Accept an interrupt at the program counter: a waiting instruction is abandoned with no effect, a tensor form after its
`PROGRESS` is stored; an ordered maintenance operation counts as complete (09 R239, 10 R259, 13 R326). -/
def State.acceptInterrupt (s : State) (c : CoreId) : State :=
  let k := s.core c
  if s.acceptable c k then
    match k.wait with
    | some (.maint len) => s.interruptAfter c k len
    | _ => s.abandonFor c
  else s

/-- `INTERRUPT_ACCEPT` (R220): at an open boundary, abandoning a permitted wait. -/
def execInterruptAccept (c : CoreId) (s : State) : Host.Outcome State Fault Refusal := next (s.acceptInterrupt c)

/-- `HAZIA_INTERRUPT_ACCEPT` (R409). -/
def execHaziaInterruptAccept (n : Fin 64) (s : State) : Host.Outcome State Fault Refusal := next (s.acceptInterrupt (.hazia n))

/-- `IFENCE` (R219): waits for the store buffer, then later instructions are fetched anew. -/
def execIfence (c : CoreId) (p : Pfx) (s : State) : Host.Outcome State Fault Refusal :=
  next (s.runInstr c p { bytes := 1 } (fun s k => if k.sbuf = [] then .done s k .seq else .waits s .storeBuffer))

/-- `MFENCE` (R172, R217): waits for the store buffer, for a miss, and for an ordered maintenance operation (13 R326). -/
def execMfence (c : CoreId) (p : Pfx) (s : State) : Host.Outcome State Fault Refusal :=
  next (s.runInstr c p { bytes := 1 } (fun s k =>
    if k.sbuf ≠ [] then .waits s .storeBuffer
    else if s.missServed c || k.maint then .waits s .fence
    else .done s k .seq))

end Sys2Proof.Machine
end

