-- ==== Sys2Proof/Machine/CoreLine.lean ====
section
/-! DEFINITION. The line states of a core's caches, the store-buffer check of a load and the destination of a load, shared
by the scalar and the vector accesses (06 R162, 08 R203, R216, 13 R316, R317, R320). -/

namespace Sys2Proof.Machine

/-! ## Accesses of the pipeline -/

/-- Whether the core's cache holds a line (13 R316). -/
def State.holdsLine (s : State) (c : CoreId) (line : Nat) : Bool := (s.line (.l1d c) line).st ≠ .i

/-- Whether the core's cache may write a line without a request (13 R316). -/
def State.ownsLine (s : State) (c : CoreId) (line : Nat) : Bool :=
  (s.line (.l1d c) line).st = .m || (s.line (.l1d c) line).st = .e

/-- Start a miss of a core's L1 D on a line: the transient state of the request, with the non-temporal hint of the access.
While another miss takes the L1 D, nothing starts (08 R206, 13 R308, R317). -/
def State.startMiss (s : State) (c : CoreId) (line : Nat) (own nt : Bool) : State :=
  let start (s : State) (cache : CacheId) : State :=
    if (s.line cache line).allows own then s else s.asks cache line own nt
  match c with
  | .sycen _ _ => start s (.l1d c)
  | .hazia k => start (start s (.haziaL2 k)) (.l1d c)

/-- The miss that stands in the way of an access to lines of normal memory: one that the L1 D is serving, else the first line
that it lacks (08 R206). -/
def State.missFor (s : State) (c : CoreId) (lines : List Nat) (own : Bool) : Option Nat :=
  if lines.isEmpty then none
  else match s.servedLine c with
    | some ln => some ln
    | none => lines.find? (fun ln => !(s.line (.l1d c) ln).allows own)

/-- The lines of normal memory that located pieces touch. -/
def State.normalLines (s : State) (l : List (Nat × Nat)) : List Nat :=
  (l.filter (fun x => (s.kindAt x.1).normal)).flatMap (fun x => linesOf x.1 x.2)

/-- The outcome of a load: its bytes and the state, or how the instruction ends instead. -/
inductive Loaded where
  | ok (s : State) (data : List Byte)
  | stop (r : Res)

/-- Whether two byte ranges overlap. -/
def overlaps (a n b m : Nat) : Bool := decide (a < b + m) && decide (b < a + n)

/-- Whether a store-buffer entry holds every byte of a range (08 R216). -/
def StoreEntry.covers (e : StoreEntry) (a n : Nat) : Bool :=
  e.pieces.any (fun x => decide (x.1 ≤ a) && decide (a + n ≤ x.1 + x.2.length))

/-- Whether a store-buffer entry holds some byte of a range. -/
def StoreEntry.touches (e : StoreEntry) (a n : Nat) : Bool := e.pieces.any (fun x => overlaps x.1 x.2.length a n)

/-- The bytes of a range that an entry covers. -/
def StoreEntry.slice (e : StoreEntry) (a n : Nat) : List Byte :=
  match e.pieces.find? (fun x => decide (x.1 ≤ a) && decide (a + n ≤ x.1 + x.2.length)) with
  | some x => (x.2.drop (a - x.1)).take n
  | none => []

/-- What the store buffer says to a load of located pieces (08 R216). -/
inductive Forward where
  | none
  | data (bytes : List Byte)
  | wait
deriving DecidableEq, Repr

/-- The store-buffer check of a load: where every entry that overlaps it contains all of its bytes, on both pages of a load
that crosses one, the youngest supplies them; any partial overlap waits (08 R216). -/
def forwardFrom (sbuf : List StoreEntry) (l : List (Nat × Nat)) : Forward :=
  let hit := sbuf.filter (fun e => l.any (fun x => e.touches x.1 x.2))
  match hit.getLast? with
  | none => .none
  | some e =>
    if hit.all (fun e => l.all (fun x => e.covers x.1 x.2)) then .data (l.flatMap (fun x => e.slice x.1 x.2)) else .wait

/-- Whether a store to an SRAM window waits in the buffer while a load reads one: the SRAM-window accesses of one agent take effect in
program order (01 R29, 06 R173). DEDUCED (log entry 64): R173 sets no limit per window, so all commons and tile-store windows
count as one. -/
def State.windowBusy (s : State) (sbuf : List StoreEntry) (l : List (Nat × Nat)) : Bool :=
  l.any (fun x => (s.kindAt x.1).sram) && sbuf.any (fun e => e.pieces.any (fun y => (s.kindAt y.1).sram))

/-- Whether located pieces lie in device memory. -/
def State.isDevice (s : State) (l : List (Nat × Nat)) : Bool := l.any (fun x => (s.kindAt x.1).device)

/-- Whether located pieces lie in normal memory. -/
def State.isNormal (s : State) (l : List (Nat × Nat)) : Bool := l.all (fun x => (s.kindAt x.1).normal)

/-- Record the destination write of a load, which a native successor does not see yet (06 R162, 08 R203). -/
def Core.loaded (k : Core) (c : CoreId) (orig : Core) (w : PendWrite) : Core :=
  { k with pend := some w, closed := !tagMode c orig }

/-- The write of an X destination of a load. -/
def pendX (k : Core) (x : XReg) (w : Word) : PendWrite :=
  match x with
  | .a n => .a k.status.pl n.val w
  | .d n => .d k.status.pl n.val w

/-- Whether an X operand is allowed at a width: A registers move 8 bytes only (07 R192). -/
def widthOk (mw : MemWidth) : XReg → Bool
  | .a _ => mw = .d
  | .d _ => true

/-- Write a line that the core owns: its copy becomes M, and its L1 I copy goes (08 R218, 13 R316). -/
def State.ownedWrite (s : State) (c : CoreId) (a : Nat) (data : List Byte) : State :=
  (linePieces (data.length + 1) a data).foldl (fun s x =>
    let s1 := s.mergeDirty x.1 x.2.1 x.2.2
    let p := (s1.dirtyLine x.1).poison
    let s2 := (s1.modLine (.l1d c) x.1 (fun y => { y with st := .m, poison := p })).touch (.l1d c) x.1
    let s3 := match c with
      | .hazia h => s2.modLine (.haziaL2 h) x.1 (fun y => { y with st := .m, poison := p })
      | .sycen _ _ => s2
    s3.modLine (.l1i c) x.1 CacheLine.lost) s

/-- Start the hold window of a line again (13 R320). -/
def State.rehold (s : State) (c : CoreId) (line : Nat) : State :=
  s.setLine (coherentCache c) line { s.line (coherentCache c) line with hold := true }

end Sys2Proof.Machine
end

