-- ==== Sys2Proof/Machine/EngineQueue.lean ====
section
/-! DEFINITION. The interface that all engines share: posting, acceptance, completion records, retirement and recovery
(11 R272 to R280). -/

namespace Sys2Proof.Machine

/-! ## The command word (11 R274, R276, R281 to R287; 15 R366) -/

def eFmt (ws : List Nat) : Nat := fld ws 0 8 8
def eAux (ws : List Nat) : Nat := fld ws 0 16 8
def eNotify (ws : List Nat) : Nat := fld ws 0 24 2

/-- Fields that must be 0 besides those of W0: word, lowest bit, length. -/
def engineZeros (k : EngineKind) (op : Nat) : List (Nat × Nat × Nat) :=
  let from' (n : Nat) : List (Nat × Nat × Nat) := (countFrom n (8 - n)).map (fun i => (i, 0, 64))
  match k, op with
  | .txe, _ => (3, 8, 56) :: from' 4
  | .sel, 1 => (4, 0, 17) :: (4, 18, 46) :: from' 5
  | .sel, _ => (4, 18, 46) :: from' 5
  | .gse, _ => from' 4
  | .rand, 1 => (1, 12, 52) :: from' 6
  | .rand, 2 => (1, 12, 52) :: from' 3
  | .rand, 3 => (1, 12, 52) :: from' 2
  | .rand, _ => (1, 12, 52) :: (3, 2, 14) :: (3, 32, 32) :: from' 4
  | .cre, 1 => (3, 7, 1) :: (3, 10, 54) :: from' 4
  | .cre, 2 => (2, 22, 10) :: from' 3
  | .cre, _ => (3, 7, 1) :: (3, 10, 6) :: (3, 48, 16) :: from' 6
  | .tre, _ => from' 3
  | .lze, _ => from' 5

/-- The highest operation code of an engine. -/
def engineOps : EngineKind → Nat
  | .txe => 1 | .sel => 2 | .gse => 3 | .rand => 4 | .cre => 3 | .tre => 1 | .lze => 2

/-- Whether an operation names `FMT`, and `AUXFMT` (11 R276). -/
def namesFmt (k : EngineKind) (op : Nat) : Bool × Bool :=
  match k, op with
  | .txe, _ => (true, true)
  | .sel, _ => (true, false)
  | .gse, 3 => (true, false)
  | .rand, 4 => (true, false)
  | .cre, _ => (true, false)
  | _, _ => (false, false)

/-- A multiple of a power of two. -/
def multiple (a n : Nat) : Bool := decide (a % n = 0)

/-- Field ranges and alignments of an operation (11 R281 to R287, 15 R366). Descriptors lie on 64 bytes (10 R255). -/
def engineRanges (k : EngineKind) (op : Nat) (ws : List Nat) : Bool :=
  let w (i : Nat) : Nat := nth 0 ws i
  match k, op with
  | .txe, _ => multiple (w 1) 64 && multiple (w 2) 64 && decide (1 ≤ fld ws 3 0 8 ∧ fld ws 3 0 8 ≤ 12)
  | .sel, _ => multiple (w 1) 64 && multiple (w 2) 64 && multiple (w 3) 64 && (decide (w 2 ≠ 0) || decide (w 3 ≠ 0))
      && (decide (op = 1) || decide (1 ≤ fld ws 4 0 17 ∧ fld ws 4 0 17 ≤ 1024))
  | .gse, _ => multiple (w 1) 64 && multiple (w 2) 64 && multiple (w 3) 64
  | .rand, 2 => multiple (w 2) 16
  | .rand, 4 => multiple (w 2) 64 && decide (fld ws 3 0 2 ≠ 3) && (decide (fld ws 3 0 2 = 2) || decide (fld ws 3 16 16 = 0))
  | .rand, _ => true
  | .cre, 1 => multiple (w 1) 64 && multiple (w 2) 8 && decide (2 ≤ fld ws 3 0 7 ∧ fld ws 3 0 7 ≤ 64) && decide (fld ws 3 8 2 ≠ 3)
  | .cre, 2 => multiple (w 1) 64
  | .cre, _ => multiple (w 1) 64 && multiple (w 2) 64 && decide (1 ≤ fld ws 3 0 7 ∧ fld ws 3 0 7 ≤ 64) && decide (fld ws 3 8 2 ≠ 3)
      && (decide (w 2 ≠ 0) || decide (fld ws 3 16 16 = 0)) && multiple (w 4) 8 && multiple (w 5) 16
  | .tre, _ => multiple (w 1) 64 && multiple (w 2) 64
  | .lze, _ => multiple (w 1) 16 && multiple (w 3) 16

/-- Check 2 of a command word. -/
def engineFields (k : EngineKind) (ws : List Nat) : Bool :=
  let op := cOp ws
  decide (1 ≤ op ∧ op ≤ engineOps k) && decide (eNotify ws ≠ 3) && decide (fld ws 0 27 21 = 0)
  && ((namesFmt k op).1 || decide (eFmt ws = 0)) && ((namesFmt k op).2 || decide (eAux ws = 0))
  && (engineZeros k op).all (fun f => decide (fld ws f.1 f.2.1 f.2.2 = 0)) && engineRanges k op ws

/-- Check 3: the format codes in the word. -/
def engineFormats (k : EngineKind) (ws : List Nat) : Bool :=
  let floats := [0x0D, 0x0E, 0x0F, 0x10]
  let ints := [0x01, 0x02, 0x03, 0x04, 0x05]
  match k, cOp ws with
  | .txe, _ => floats.contains (eFmt ws) && floats.contains (eAux ws)
  | .sel, _ => (ints ++ floats).contains (eFmt ws)
  | .gse, 3 => floats.contains (eFmt ws)
  | .rand, 4 =>
    if fld ws 3 0 2 = 0 then (ints ++ [0x00, 0x06]).contains (eFmt ws)
    else if fld ws 3 0 2 = 1 then [0x0D, 0x0F, 0x10].contains (eFmt ws)
    else decide (eFmt ws = 0x05)
  | .cre, _ => ([0x03, 0x04, 0x18, 0x19] ++ floats).contains (eFmt ws)
  | _, _ => true

/-! ## Posting (11 R273, R274) -/

/-- A post at an engine; a fifth waits on the register path behind the four that are being fetched. -/
def State.epost (s0 : State) (e : EngineId) (p : EngPost) : State :=
  let s := s0.wakeCd e.cd
  let x := s.engine e
  s.setEngine e { x with fetching := x.fetching ++ [p] }

/-- Count a write to a posting register that is ignored (11 R273). -/
def State.epostIgnored (s : State) (e : EngineId) : State :=
  let x := s.engine e
  s.setEngine e { x with rejCount := satAdd x.rejCount 1 }

/-- A sequencer writes `EPOST`: the context is its cluster's (11 R273). -/
def State.epostFrom (s : State) (e : EngineId) (d : Fin 4) (cl : Fin 24) (value : Word) : State :=
  s.epost e { va := value, ctx := s.cctx (clusterKey d cl), cl := some (d, cl) }

/-- `EPOST_WRITE` (R273). -/
def execEpostWrite (e : EngineId) (cd : Fin 4) (cl : Fin 24) (value : Word) (s : State) : Host.Outcome State Fault Refusal :=
  next (s.epostFrom e cd cl value)

/-- An agent on HD writes `EPOSTX` (11 R273). -/
def State.epostx (s : State) (e : EngineId) (ctx : BitVec 6) (value : Word) : State :=
  s.epost e { va := value, ctx := ctx, cl := none }

/-- `EPOSTX_WRITE` (R273). -/
def execEpostxWrite (e : EngineId) (ctx : BitVec 6) (value : Word) (s : State) : Host.Outcome State Fault Refusal :=
  next (s.epostx e ctx value)

/-! ## Completion records (11 R279) -/

/-- The ring of a context at an engine. -/
def State.engRing (s : State) (e : EngineId) (ctx : BitVec 6) : RingState :=
  mget RingState.reset s.engRings (engineKey e * 64 + ctx.toNat)

/-- Replace the ring of a context. -/
def State.setEngRing (s : State) (e : EngineId) (ctx : BitVec 6) (r : RingState) : State :=
  { s with engRings := mset RingState.reset s.engRings (engineKey e * 64 + ctx.toNat) r }

/-- The interrupts of `NOTIFY` = 2 (11 R279, 17 R408). -/
def State.notifyEngine (s : State) (e : EngineId) (r : EngRec) : State :=
  if r.cpl.notify ≠ 2 then s
  else
    let ring := s.engRing e r.ctx
    let s1 := match r.cl with
      | some (d, cl) => if ring.seqIrq then s.setIpend d cl 2 else s
      | none => s
    if ring.hostIrq then s1.hicSource (0x60 + engineKey e) else s1

/-- Word `i` of a command. -/
def EngCmd.w (c : EngCmd) (i : Nat) : Nat := nth 0 c.words i

/-- An engine reaches normal memory through its line cache (13 R308), with the hint of the command (11 R275). -/
def engineVia (e : EngineId) (nt : Bool) : Via := .cached (.engineLines e.cd (Fin.ofNat 8 (engineIndex e.kind))) nt

/-- Write one record, or keep it while a ring write of the engine is parked. -/
def State.writeEngRec (s : State) (e : EngineId) (r : EngRec) : State :=
  let x := s.engine e
  let ring := s.engRing e r.ctx
  if x.ringParked then s.setEngine e { x with recs := x.recs ++ [r] }
  else
    let va := ring.base.toNat * 4096 + 16 * ring.next.toNat
    let data := leBytes 8 (r.cpl.lo + 2 ^ 63 * b2n ring.phase) ++ leBytes 8 r.cpl.hi
    match s.agentWrite (.cd e.cd) (engineVia e false) r.ctx va data with
    | (.ok s1, _) =>
      (s1.setEngRing e r.ctx { ring with next := ring.next + 1, phase := if ring.next = 255 then !ring.phase else ring.phase }).notifyEngine e r
    | (.error f, s1) =>
      match s1.parkAgent (.cd e.cd) r.ctx f .write (.engine e .ring) with
      | some s2 => let y := s2.engine e
                   s2.setEngine e { y with ringParked := true, recs := y.recs ++ [r], st := .wait }
      | none => s1

/-- Write the records that waited for a parked ring write. -/
def State.flushEngRecs (s : State) (e : EngineId) : State :=
  let x := s.engine e
  x.recs.foldl (fun (s : State) r => s.writeEngRec e r) (s.setEngine e { x with recs := [], ringParked := false })

/-- The record of a command that ends, or the interrupt alone where its ring is off (11 R279). -/
def State.reportEng (s : State) (e : EngineId) (c : EngCmd) : State :=
  let r : EngRec :=
    { ctx := c.ctx, cl := c.cl
      cpl :=
        { lo := cTag c.words + 2 ^ 16 * c.seq.toNat + 2 ^ 32 * cOp c.words + 2 ^ 40 * c.status.toNat + 2 ^ 48 * engineIndex e.kind
            + 2 ^ 52 * b2n c.nv + 2 ^ 53 * b2n c.of + 2 ^ 54 * b2n c.dz
          hi := (if e.kind = .lze ∧ cOp c.words = 2 then 0 else c.result % 2 ^ 32) + 2 ^ 32 * min (Config.elapsed s.fresh) (2 ^ 32 - 1)
          notify := eNotify c.words } }
  if eNotify c.words = 0 then s
  else if (s.engRing e c.ctx).enable then (s.writeEngRec e r).bump
  else s.notifyEngine e r

/-! ## Acceptance (11 R274) -/

/-- The checks of a fetched word; none: accepted. -/
def State.engineCheck (s : State) (e : EngineId) (ctx : BitVec 6) (ws : List Nat) : Option Byte :=
  let waiting := (s.engine e).queue.filter (fun c => decide (c.phase = .waiting))
  if s.held then some 0x09
  else if !bit (s.engMask e) ctx.toNat then some 0x02
  else if !engineFields e.kind ws then some 0x04
  else if !engineFormats e.kind ws then some 0x03
  else if 32 ≤ waiting.length ∨ 16 ≤ (waiting.filter (fun c => decide (c.ctx = ctx))).length then some 0x01
  else none

/-- Record a rejection (11 R274). -/
def State.engineReject (s : State) (e : EngineId) (code op : Byte) (tag : BitVec 16) : State :=
  let x := s.engine e
  s.setEngine e { x with rejCode := code, rejOp := op, rejTag := tag, rejCount := satAdd x.rejCount 1 }

/-- The fetch of the oldest posted word ends. -/
def State.engineFetched (s : State) (e : EngineId) : State :=
  let x := s.engine e
  match x.fetching with
  | [] => s
  | p :: rest =>
    let s1 := s.setEngine e { x with fetching := rest }
    match s1.fetchCommand e.cd p.ctx p.va.toNat with
    | (none, s2) => s2.engineReject e 0x07 0 0
    | (some ws, s2) =>
      match s2.engineCheck e p.ctx ws with
      | some code =>
        let s3 := s2.engineReject e code (BitVec.ofNat 8 (cOp ws)) (BitVec.ofNat 16 (cTag ws))
        if (s3.engRing e p.ctx).enable then
          s3.writeEngRec e
            { ctx := p.ctx, cl := p.cl
              cpl := { lo := cTag ws + 2 ^ 32 * cOp ws + 2 ^ 40 * code.toNat + 2 ^ 48 * engineIndex e.kind + 2 ^ 51, hi := 0, notify := 0 } }
        else s3
      | none =>
        let y := s2.engine e
        let c : EngCmd :=
          { words := ws, ctx := p.ctx, cl := p.cl, seq := y.nextSeq, phase := .waiting, status := 0, count := 0, result := 0
            nv := false, of := false, dz := false, descs := [], ops := [] }
        s2.setEngine e { y with queue := y.queue ++ [c], nextSeq := y.nextSeq + 1 }

/-- `ENGINE_WORD_FETCH_COMPLETE` (R274). -/
def execEngineWordFetchComplete (e : EngineId) (s : State) : Host.Outcome State Fault Refusal := next (s.engineFetched e)

/-! ## Retirement and recovery (11 R279, R280) -/

/-- Replace the command in execution: the head of the queue. -/
def State.modHead (s : State) (e : EngineId) (f : EngCmd → EngCmd) : State :=
  let x := s.engine e
  match x.queue with
  | [] => s
  | c :: cs => s.setEngine e { x with queue := f c :: cs }

/-- The command in execution comes to its end with a status (11 R277). -/
def State.endHead (s : State) (e : EngineId) (status : Nat) : State :=
  let s1 := s.modHead e (fun c => { c with phase := .issued, status := BitVec.ofNat 8 status })
  let x := s1.engine e
  s1.setEngine e { x with parked := false, st := if x.ringParked then .wait else .run }

/-- Whether the flits of a COLLSEND have all been covered or delivered (15 R366). -/
def State.sendDone (s : State) (e : EngineId) (c : EngCmd) : Bool :=
  if e.kind = .cre ∧ cOp c.words = 2 then
    let mine (f : Flit) : Bool := decide (f.ftype = 1) && decide (f.src = s.moduleId) && decide (f.ctx = c.ctx.toNat)
      && decide (f.collId = fld c.words 2 32 16) && decide (f.rank = fld c.words 2 48 16) && decide (f.dst = fld c.words 2 0 20)
    (countFrom 0 12).all (fun p => let x := s.port (Fin.ofNat 12 p)
                                   !x.replay.any mine && !x.waitq.any mine)
    && (countFrom 0 4).all (fun d => !(mget CreState.reset s.cre d).localq.any mine)
  else true

/-- An engine works: powered, not in FAULT, not frozen by a stop. -/
def State.engineWorks (s : State) (e : EngineId) : Bool :=
  s.cdUp e.cd && decide ((s.engine e).st ≠ .fault) && !s.frozen

/-- The command that has come to its end retires (11 R279). -/
def State.engineRetire (s : State) (e : EngineId) : State :=
  let x := s.engine e
  match x.queue with
  | [] => s
  | c :: cs =>
    if c.phase ≠ .issued ∨ !s.engineWorks e ∨ !s.sendDone e c then s
    else (s.setEngine e { x with queue := cs, seq := c.seq, st := if x.ringParked then .wait else .idle }).reportEng e c

/-- `ENGINE_COMMAND_RETIRE` (R279). -/
def execEngineCommandRetire (e : EngineId) (s : State) : Host.Outcome State Fault Refusal := next (s.engineRetire e)

/-- `ECTL.RECOVER` (11 R280). Records of commands that had retired keep waiting for a parked ring write, ahead of the new ones. -/
def State.recoverEngine (s : State) (e : EngineId) : State :=
  let x := s.engine e
  if x.st ≠ .fault ∨ !s.engineAcked e.cd then s
  else
    let ended (c : EngCmd) : EngCmd := { c with status := if c.phase = .waiting then 0x10 else 0x11 }
    let s1 := (s.dropRequester (.cd e.cd) (.engine e .data)).dropRequester (.cd e.cd) (.engine e .desc)
    let s2 := s1.setEngine e { x with
      queue := [], st := .idle, cause := 0, parked := false,
      seq := match x.queue.getLast? with
        | some c => c.seq
        | none => x.seq }
    (x.queue.map ended).foldl (fun (s : State) c => s.reportEng e c) s2

/-- `ECTL_RECOVER` (R280). -/
def execEctlRecover (e : EngineId) (s : State) : Host.Outcome State Fault Refusal := next (s.recoverEngine e)

/-- A write of `ECPLBASE` of a context: ignored while a command of the context is queued or in execution (11 R279). -/
def State.setEngBase (s : State) (e : EngineId) (ctx : BitVec 6) (w : Word) : State :=
  let x := s.engine e
  let top := bits w.toNat 56 8
  if x.queue.any (fun c => decide (c.ctx = ctx)) ∨ (top ≠ 0 ∧ top ≠ 255) then s
  else s.setEngRing e ctx ((s.engRing e ctx).written w)

/-- `ECPLBASE_WRITE` (R279). -/
def execEcplbaseWrite (e : EngineId) (ctx : BitVec 6) (value : Word) (s : State) : Host.Outcome State Fault Refusal :=
  next (s.setEngBase e ctx value)

end Sys2Proof.Machine
end

