-- ==== Sys2Proof/Machine/Vector.lean ====
section
/-! DEFINITION. The register forms of the vector unit (10 R244 to R253). -/

namespace Sys2Proof.Machine

/-! ## Elements (10 R244 to R248) -/

/-- The integer element formats (10 R245). -/
def vecInts : List Nat := [0x01, 0x02, 0x03, 0x04, 0x05]
/-- The floating-point element formats (10 R245). -/
def vecFloats : List Nat := [0x0B, 0x0C, 0x0D, 0x0E, 0x0F, 0x10]
/-- Integer and floating-point element formats. -/
def vecAll : List Nat := vecInts ++ vecFloats
/-- The formats of conversions and copies alone (10 R245). -/
def vecNarrow : List Nat := [0x00, 0x06, 0x08, 0x09, 0x0A]
/-- The formats of `VDIV` and `VSQRT` (10 R249). -/
def vecDivs : List Nat := [0x0D, 0x0E, 0x0F, 0x10]

/-- The elements of a format in a register (10 R244): FP6 in whole groups of four. -/
def lanes (c : CoreId) (w : Nat) : Nat := if w = 6 then vlen c / 24 * 4 else vlen c / w

/-- Whether element `j` is active: the predicate bit of its lowest byte (10 R246). -/
def activeIn (k : Core) (pred : Option (Fin 8)) (w j : Nat) : Bool :=
  match pred with
  | none => true
  | some n => (k.getP n).getLsbD (w * j / 8)

/-- An element operation: encodings in, an encoding and flags out. -/
abbrev ElemOp := List Nat → Nat × Flg

/-- Whether an instruction finds its format in its list; without TYPE it is FP64 (10 R245). -/
def vecTyped (p : Pfx) (types : List Nat) : Bool := types.contains (typeCode p)

/-- Elements of a register under a predicate: active ones get the operation's result, others keep the old element; the
flags are those of the active ones (10 R246, R247). -/
def mapElems (n w old : Nat) (act : Nat → Bool) (f : Nat → Nat × Flg) : List Nat × Flg :=
  (countFrom 0 n).foldr (fun j r =>
    if act j then let (x, g) := f j
                  (x :: r.1, r.2.or g)
    else (elemAt w old j :: r.1, r.2)) ([], .none)

/-- A vector instruction on registers: the format check of R245, then the operation. -/
def State.runVector (s : State) (c : CoreId) (p : Pfx) (bytes imm : Nat) (types : List Nat) (pred : Bool)
    (body : State → Core → Res) (long : Bool := false) : State :=
  s.runInstr c p { bytes := bytes, imm := imm, pred := pred, types := types, unpaired := long } (fun s k =>
    if types ≠ [] ∧ !vecTyped p types then .trap s 0x01 0 none else body s k)

/-- An element-wise instruction with a V destination (10 R249). -/
def vecOp (c : CoreId) (p : Pfx) (bytes : Nat) (types : List Nat) (vd : Fin 32) (srcs : List (Fin 32))
    (op : Nat → Rnd → ElemOp) (s : State) (long : Bool := false) : State :=
  s.runVector c p bytes 0 types true (fun s k =>
    let code := typeCode p
    let w := fmtWidth code
    let xs := srcs.map (fun v => (k.getV v).toNat)
    let (es, g) := mapElems (lanes c w) w (k.getV vd).toNat (activeIn k p.pred w)
      (fun j => op code k.rnd (xs.map (fun x => elemAt w x j)))
    .done s ((k.flag g).setV vd (BitVec.ofNat 16384 (packElems w es))) .seq) long

/-- An element-wise instruction with an immediate (10 R248). -/
def vecImm (c : CoreId) (p : Pfx) (bytes : Nat) (vd : Fin 32) (srcs : List (Fin 32)) (i : Word)
    (op : Nat → Rnd → ElemOp) (s : State) : State :=
  s.runVector c p bytes 2 vecAll true (fun s k =>
    let code := typeCode p
    let w := fmtWidth code
    let imm := (immZero p 2 i).toNat
    if 2 ^ w ≤ imm then .trap s 0x01 0 none
    else
      let xs := srcs.map (fun v => (k.getV v).toNat)
      let (es, g) := mapElems (lanes c w) w (k.getV vd).toNat (activeIn k p.pred w)
        (fun j => op code k.rnd (xs.map (fun x => elemAt w x j) ++ [imm]))
      .done s ((k.flag g).setV vd (BitVec.ofNat 16384 (packElems w es))) .seq)

/-- An operation on two integers of a format that wraps (10 R247). -/
def intOp (w : Nat) (signed : Bool) (op : Int → Int → Int) (a b : Nat) : Nat :=
  let v (x : Nat) : Int := if signed then toSigned w x else (x : Int)
  ofSigned w (op (v a) (v b))

/-- An operation that the format decides: integer, or floating point of one rounding (10 R247). -/
def arith (iop : Int → Int → Int) (fop : FFmt → Rnd → FVal → FVal → FVal × Flg) (code : Nat) (r : Rnd) : ElemOp := fun xs =>
  let a := nth 0 xs 0
  let b := nth 0 xs 1
  match floatFmt code with
  | some f => let (v, g) := fop f r (f.decode a) (f.decode b)
              (f.encode v, g)
  | none => match intFmt code with
    | some (w, sg) => (intOp w sg iop a b, .none)
    | none => (0, .none)

def arithAdd : Nat → Rnd → ElemOp := arith (· + ·) FFmt.add
def arithSub : Nat → Rnd → ElemOp := arith (· - ·) (fun f r a b => f.add r a b.neg)
def arithMul : Nat → Rnd → ElemOp := arith (· * ·) FFmt.mul
def arithMin : Nat → Rnd → ElemOp := arith min (fun _ _ a b => (a.pick false b, .none))
def arithMax : Nat → Rnd → ElemOp := arith max (fun _ _ a b => (a.pick true b, .none))

/-- `a * b + c` of one rounding in a floating-point format; `neg` subtracts. -/
def arithFma (neg : Bool) (code : Nat) (r : Rnd) : ElemOp := fun xs =>
  match floatFmt code with
  | some f =>
    let c := f.decode (nth 0 xs 2)
    let (v, g) := f.fma r (f.decode (nth 0 xs 0)) (f.decode (nth 0 xs 1)) (if neg then c.neg else c)
    (f.encode v, g)
  | none => (0, .none)

/-- A quotient, and a square root, of a floating-point format. -/
def arithDiv (code : Nat) (r : Rnd) : ElemOp := fun xs =>
  match floatFmt code with
  | some f => let (v, g) := f.div r (f.decode (nth 0 xs 0)) (f.decode (nth 0 xs 1))
              (f.encode v, g)
  | none => (0, .none)

def arithSqrt (code : Nat) (r : Rnd) : ElemOp := fun xs =>
  match floatFmt code with
  | some f => let (v, g) := f.sqrt r (f.decode (nth 0 xs 0))
              (f.encode v, g)
  | none => (0, .none)

/-- A bitwise operation. -/
def bitwise (op : Nat → Nat → Nat) (_code : Nat) (_r : Rnd) : ElemOp := fun xs => (op (nth 0 xs 0) (nth 0 xs 1), .none)

/-- Shifts of one element of `w` bits, the count modulo the width (10 R247). -/
def shiftLeft (w a n : Nat) : Nat := a * 2 ^ (n % w) % 2 ^ w
def shiftRight (w a n : Nat) : Nat := a / 2 ^ (n % w)
def shiftArith (w a n : Nat) : Nat := ofSigned w (toSigned w a / (2 ^ (n % w) : Nat))

/-- `VADD` (R249). -/
def execVadd (c : CoreId) (p : Pfx) (vd va vb : Fin 32) (s : State) : Host.Outcome State Fault Refusal :=
  next (vecOp c p 4 vecAll vd [va, vb] arithAdd s)

/-- `VSUB` (R249). -/
def execVsub (c : CoreId) (p : Pfx) (vd va vb : Fin 32) (s : State) : Host.Outcome State Fault Refusal :=
  next (vecOp c p 4 vecAll vd [va, vb] arithSub s)

/-- `VMUL` (R249). -/
def execVmul (c : CoreId) (p : Pfx) (vd va vb : Fin 32) (s : State) : Host.Outcome State Fault Refusal :=
  next (vecOp c p 4 vecAll vd [va, vb] arithMul s)

/-- `VFMS` (R249): `a * b - c`. -/
def execVfms (c : CoreId) (p : Pfx) (vd va vb vc : Fin 32) (s : State) : Host.Outcome State Fault Refusal :=
  next (vecOp c p 5 vecFloats vd [va, vb, vc] (arithFma true) s)

/-- `VFMA` (R249): `a * b + c`. -/
def execVfma (c : CoreId) (p : Pfx) (vd va vb vc : Fin 32) (s : State) : Host.Outcome State Fault Refusal :=
  next (vecOp c p 5 vecFloats vd [va, vb, vc] (arithFma false) s)

/-- `VDIV` (R249). -/
def execVdiv (c : CoreId) (p : Pfx) (vd va vb : Fin 32) (s : State) : Host.Outcome State Fault Refusal :=
  next (vecOp c p 4 vecDivs vd [va, vb] arithDiv s true)

/-- `VSQRT` (R249). -/
def execVsqrt (c : CoreId) (p : Pfx) (vd va : Fin 32) (s : State) : Host.Outcome State Fault Refusal :=
  next (vecOp c p 3 vecDivs vd [va] arithSqrt s true)

/-- `VMIN` (R247). -/
def execVmin (c : CoreId) (p : Pfx) (vd va vb : Fin 32) (s : State) : Host.Outcome State Fault Refusal :=
  next (vecOp c p 4 vecAll vd [va, vb] arithMin s)

/-- `VMAX` (R247). -/
def execVmax (c : CoreId) (p : Pfx) (vd va vb : Fin 32) (s : State) : Host.Outcome State Fault Refusal :=
  next (vecOp c p 4 vecAll vd [va, vb] arithMax s)

/-- `VAND` (R249). -/
def execVand (c : CoreId) (p : Pfx) (vd va vb : Fin 32) (s : State) : Host.Outcome State Fault Refusal :=
  next (vecOp c p 4 vecInts vd [va, vb] (bitwise (· &&& ·)) s)

/-- `VOR` (R249). -/
def execVor (c : CoreId) (p : Pfx) (vd va vb : Fin 32) (s : State) : Host.Outcome State Fault Refusal :=
  next (vecOp c p 4 vecInts vd [va, vb] (bitwise (· ||| ·)) s)

/-- `VXOR` (R249). -/
def execVxor (c : CoreId) (p : Pfx) (vd va vb : Fin 32) (s : State) : Host.Outcome State Fault Refusal :=
  next (vecOp c p 4 vecInts vd [va, vb] (bitwise (· ^^^ ·)) s)

/-- `VSHL` (R249). -/
def execVshl (c : CoreId) (p : Pfx) (vd va : Fin 32) (i : Byte) (s : State) : Host.Outcome State Fault Refusal :=
  next (vecOp c p 4 vecInts vd [va] (fun code _ xs => (shiftLeft (fmtWidth code) (nth 0 xs 0) i.toNat, .none)) s)

/-- `VSHR` (R249). -/
def execVshr (c : CoreId) (p : Pfx) (vd va : Fin 32) (i : Byte) (s : State) : Host.Outcome State Fault Refusal :=
  next (vecOp c p 4 vecInts vd [va] (fun code _ xs => (shiftRight (fmtWidth code) (nth 0 xs 0) i.toNat, .none)) s)

/-- `VSAR` (R249). -/
def execVsar (c : CoreId) (p : Pfx) (vd va : Fin 32) (i : Byte) (s : State) : Host.Outcome State Fault Refusal :=
  next (vecOp c p 4 vecInts vd [va] (fun code _ xs => (shiftArith (fmtWidth code) (nth 0 xs 0) i.toNat, .none)) s)

/-- `VBCST` (R249): the immediate in every element. -/
def execVbcst (c : CoreId) (p : Pfx) (vd : Fin 32) (i : Word) (s : State) : Host.Outcome State Fault Refusal :=
  next (vecImm c p 4 vd [] i (fun _ _ xs => (nth 0 xs 0, .none)) s)

/-- `VADDI` (R249). -/
def execVaddi (c : CoreId) (p : Pfx) (vd va : Fin 32) (i : Word) (s : State) : Host.Outcome State Fault Refusal :=
  next (vecImm c p 5 vd [va] i arithAdd s)

/-- `VMULI` (R249). -/
def execVmuli (c : CoreId) (p : Pfx) (vd va : Fin 32) (i : Word) (s : State) : Host.Outcome State Fault Refusal :=
  next (vecImm c p 5 vd [va] i arithMul s)

/-- `VMAXI` (R249). -/
def execVmaxi (c : CoreId) (p : Pfx) (vd va : Fin 32) (i : Word) (s : State) : Host.Outcome State Fault Refusal :=
  next (vecImm c p 5 vd [va] i arithMax s)

/-- `VMINI` (R249). -/
def execVmini (c : CoreId) (p : Pfx) (vd va : Fin 32) (i : Word) (s : State) : Host.Outcome State Fault Refusal :=
  next (vecImm c p 5 vd [va] i arithMin s)

/-! ## Compares, selection and predicates (10 R249) -/

/-- A comparison of two encodings of a format: integers by their sign, floating point quiet (10 R247, 06 R452). -/
def elemCmp (code : Nat) (iop : Int → Int → Bool) (fop : FVal → FVal → Bool) (a b : Nat) : Bool :=
  match floatFmt code with
  | some f => fop (f.decode a) (f.decode b)
  | none => match intFmt code with
    | some (w, sg) => iop (if sg then toSigned w a else (a : Int)) (if sg then toSigned w b else (b : Int))
    | none => false

/-- A predicate register by its bits. -/
def predOf (n : Nat) (f : Nat → Bool) : BitVec 2048 := BitVec.ofNat 2048 (packElems 1 ((countFrom 0 n).map (fun b => b2n (f b))))

/-- A vector compare: every bit of the destination for the element's bytes (10 R249). -/
def vecCmp (c : CoreId) (p : Pfx) (pd : Fin 8) (va vb : Fin 32) (iop : Int → Int → Bool) (fop : FVal → FVal → Bool)
    (s : State) : State :=
  s.runVector c p 4 0 vecAll true (fun s k =>
    let code := typeCode p
    let w := fmtWidth code
    let a := (k.getV va).toNat
    let b := (k.getV vb).toNat
    let res := (countFrom 0 (lanes c w)).map (fun j => elemCmp code iop fop (elemAt w a j) (elemAt w b j))
    .done s (k.setP pd (predOf (vlen c / 8) (fun i =>
      let j := i / (w / 8)
      if activeIn k p.pred w j then nth false res j else (k.getP pd).getLsbD i))) .seq)

/-- `VCMPEQ` (R249). -/
def execVcmpeq (c : CoreId) (p : Pfx) (pd : Fin 8) (va vb : Fin 32) (s : State) : Host.Outcome State Fault Refusal :=
  next (vecCmp c p pd va vb (fun a b => decide (a = b)) FVal.eqB s)

/-- `VCMPLT` (R249). -/
def execVcmplt (c : CoreId) (p : Pfx) (pd : Fin 8) (va vb : Fin 32) (s : State) : Host.Outcome State Fault Refusal :=
  next (vecCmp c p pd va vb (fun a b => decide (a < b)) FVal.ltB s)

/-- `VCMPLE` (R249). -/
def execVcmple (c : CoreId) (p : Pfx) (pd : Fin 8) (va vb : Fin 32) (s : State) : Host.Outcome State Fault Refusal :=
  next (vecCmp c p pd va vb (fun a b => decide (a ≤ b)) FVal.leB s)

/-- `VSEL` (R249): a where the element is active in Pc, else b. -/
def execVsel (c : CoreId) (p : Pfx) (vd va vb : Fin 32) (pc : Fin 8) (s : State) : Host.Outcome State Fault Refusal :=
  next (s.runVector c p 5 0 vecAll false (fun s k =>
    let w := fmtWidth (typeCode p)
    let es := (countFrom 0 (lanes c w)).map (fun j =>
      elemAt w (if activeIn k (some pc) w j then k.getV va else k.getV vb).toNat j)
    .done s (k.setV vd (BitVec.ofNat 16384 (packElems w es))) .seq))

/-- `VMOV` (R249). -/
def execVmov (c : CoreId) (p : Pfx) (vd va : Fin 32) (s : State) : Host.Outcome State Fault Refusal :=
  next (vecOp c p 3 vecAll vd [va] (fun _ _ xs => (nth 0 xs 0, .none)) s)

/-- A predicate operation without a format (10 R249). -/
def predOp (c : CoreId) (p : Pfx) (bytes : Nat) (pd : Fin 8) (f : Core → BitVec 2048) (s : State) : State :=
  s.runLocal c p { bytes := bytes } (fun k => k.setP pd (f k))

/-- All bits of a P register of a core. -/
def predOnes (c : CoreId) : BitVec 2048 := predOf (vlen c / 8) (fun _ => true)

/-- `PAND` (R249). -/
def execPand (c : CoreId) (p : Pfx) (pd pa pb : Fin 8) (s : State) : Host.Outcome State Fault Refusal :=
  next (predOp c p 4 pd (fun k => k.getP pa &&& k.getP pb) s)

/-- `POR` (R249). -/
def execPor (c : CoreId) (p : Pfx) (pd pa pb : Fin 8) (s : State) : Host.Outcome State Fault Refusal :=
  next (predOp c p 4 pd (fun k => k.getP pa ||| k.getP pb) s)

/-- `PXOR` (R249). -/
def execPxor (c : CoreId) (p : Pfx) (pd pa pb : Fin 8) (s : State) : Host.Outcome State Fault Refusal :=
  next (predOp c p 4 pd (fun k => k.getP pa ^^^ k.getP pb) s)

/-- `PNOT` (R249). -/
def execPnot (c : CoreId) (p : Pfx) (pd pa : Fin 8) (s : State) : Host.Outcome State Fault Refusal :=
  next (predOp c p 3 pd (fun k => k.getP pa ^^^ predOnes c) s)

/-- `PSET` (R249). -/
def execPset (c : CoreId) (p : Pfx) (pd : Fin 8) (s : State) : Host.Outcome State Fault Refusal :=
  next (predOp c p 2 pd (fun _ => predOnes c) s)

/-- `PCLR` (R249). -/
def execPclr (c : CoreId) (p : Pfx) (pd : Fin 8) (s : State) : Host.Outcome State Fault Refusal :=
  next (predOp c p 2 pd (fun _ => 0) s)

/-- `PLEN` (R249): the bits of elements 0 to min(Dn, n) - 1. -/
def execPlen (c : CoreId) (p : Pfx) (pd : Fin 8) (dn : Fin 32) (s : State) : Host.Outcome State Fault Refusal :=
  next (s.runLocal c p { bytes := 3, d := [dn], types := vecAll ++ vecNarrow } (fun k =>
    let w := fmtWidth (typeCode p)
    let m := min (k.getD dn).toNat (lanes c w)
    k.setP pd (predOf (vlen c / 8) (fun b => decide (8 * b < w * m)))))

/-- `PCNT` (R249): the number of active elements. -/
def execPcnt (c : CoreId) (p : Pfx) (dd : Fin 32) (pa : Fin 8) (s : State) : Host.Outcome State Fault Refusal :=
  next (s.runLocal c p { bytes := 3, d := [dd], types := vecAll ++ vecNarrow } (fun k =>
    let w := fmtWidth (typeCode p)
    let n := ((countFrom 0 (lanes c w)).filter (fun j => activeIn k (some pa) w j)).length
    k.setD dd (BitVec.ofNat 64 n)))

/-! ## Reductions (10 R251) -/

/-- One level of the tree over element positions: neighbours meet, an absent one leaves the other (10 R251). -/
def pairUp (op : Nat → Nat → Nat × Flg) : List (Option Nat) → List (Option Nat) × Flg
  | a :: b :: rest =>
    let (r, g) := pairUp op rest
    match a, b with
    | none, y => (y :: r, g)
    | some x, none => (some x :: r, g)
    | some x, some y => let (z, h) := op x y
                        (some z :: r, g.or h)
  | xs => (xs, .none)

/-- The tree of reductions: at most `fuel` levels. -/
def reduceTree (op : Nat → Nat → Nat × Flg) : Nat → List (Option Nat) → Option Nat × Flg
  | 0, xs => ((xs.headD none), .none)
  | fuel + 1, xs =>
    if xs.length ≤ 1 then (xs.headD none, .none)
    else let (ys, g) := pairUp op xs
         let (r, h) := reduceTree op fuel ys
         (r, g.or h)

/-- The active elements of a register under a predicate. -/
def activeElems (c : CoreId) (p : Pfx) (k : Core) (w : Nat) (va : Fin 32) (f : Nat → Nat) : List (Option Nat) :=
  let x := (k.getV va).toNat
  (countFrom 0 (lanes c w)).map (fun j => if activeIn k p.pred w j then some (f (elemAt w x j)) else none)

/-- The format in which elements of a format are summed: FP32 for FP8, BF16 and FP16, INT64 for integers (10 R251). -/
def sumCode (code : Nat) : Nat :=
  if (intFmt code).isSome then 0x04 else if code = 0x10 then 0x10 else 0x0F

/-- An element of a format in the format of its sum: exact, so without flags. -/
def widenElem (code raw : Nat) : Nat := (encodeAny (sumCode code) .rne (decodeAny code raw)).1

/-- `VREDSUM` (R251). -/
def execVredsum (c : CoreId) (p : Pfx) (dd va : Fin 32) (s : State) : Host.Outcome State Fault Refusal :=
  next (s.runInstr c p { bytes := 4, d := [dd], pred := true, types := vecAll, unpaired := true } (fun s k =>
    let code := typeCode p
    let w := fmtWidth code
    let op (a b : Nat) : Nat × Flg := arithAdd (sumCode code) k.rnd [a, b]
    let (r, g) := reduceTree op 12 (activeElems c p k w va (widenElem code))
    .done s ((k.flag g).setD dd (BitVec.ofNat 64 (r.getD 0))) .seq))

/-- A maximum or minimum over the elements; with no active element the canonical NaN, which an integer format does not
have: a free value there (10 R251, log entry 33). One active element is the result as it stands, also where it is a NaN that is not
canonical: no operation is made (DESIGN CHOICE, log entry 65; R452). -/
def vecReduce (c : CoreId) (p : Pfx) (dd va : Fin 32) (which : Nat) (op : Nat → Rnd → ElemOp) (s : State) : State :=
  s.runInstr c p { bytes := 4, d := [dd], pred := true, types := vecAll, unpaired := true } (fun s k =>
    let code := typeCode p
    let w := fmtWidth code
    let (r, g) := reduceTree (fun a b => op code k.rnd [a, b]) 12 (activeElems c p k w va id)
    match r, floatFmt code with
    | some x, _ => .done s ((k.flag g).setD dd (scalarToD code x)) .seq
    | none, some f => .done s (k.setD dd (BitVec.ofNat 64 f.nanBits)) .seq
    | none, none => .done s (k.setD dd (Config.emptyReduce which code)) .seq)

/-- `VREDMAX` (R251). -/
def execVredmax (c : CoreId) (p : Pfx) (dd va : Fin 32) (s : State) : Host.Outcome State Fault Refusal :=
  next (vecReduce c p dd va 0 arithMax s)

/-- `VREDMIN` (R251). -/
def execVredmin (c : CoreId) (p : Pfx) (dd va : Fin 32) (s : State) : Host.Outcome State Fault Refusal :=
  next (vecReduce c p dd va 1 arithMin s)

/-! ## Conversion and permutation (10 R252, R253) -/

/-- The formats of `VCVT` (10 R252). -/
def vcvtCodes : List Nat := vecAll ++ vecNarrow

/-- `VCVT` (R252). A predicate where either format is narrower than 8 bits is illegal (10 R246). -/
def execVcvt (c : CoreId) (p : Pfx) (vd va : Fin 32) (i : Byte) (s : State) : Host.Outcome State Fault Refusal :=
  next (s.runVector c p 5 0 vcvtCodes true (fun s k =>
    let dst := typeCode p
    let src := i.toNat
    let wd := fmtWidth dst
    let ws := fmtWidth src
    if !vcvtCodes.contains src ∨ (wd < 8 ∧ ws < 8) ∨ (p.pred.isSome ∧ (wd < 8 ∨ ws < 8)) then .trap s 0x01 0 none
    else
      let n := vlen c / max wd ws
      let x := (k.getV va).toNat
      let (es, g) := mapElems n wd (k.getV vd).toNat (activeIn k p.pred wd)
        (fun j => convertAny src dst k.rnd (elemAt ws x j))
      .done s ((k.flag g).setV vd (BitVec.ofNat 16384 (packElems wd es))) .seq))

/-- `VPERM` (R253). -/
def execVperm (c : CoreId) (p : Pfx) (vd va vb : Fin 32) (s : State) : Host.Outcome State Fault Refusal :=
  next (s.runVector c p 5 0 vecAll true (fun s k =>
    let w := fmtWidth (typeCode p)
    let n := lanes c w
    let a := (k.getV va).toNat
    let b := (k.getV vb).toNat
    let (es, _) := mapElems n w (k.getV vd).toNat (activeIn k p.pred w)
      (fun j => (if elemAt w b j < n then elemAt w a (elemAt w b j) else 0, .none))
    .done s (k.setV vd (BitVec.ofNat 16384 (packElems w es))) .seq))

/-- A slide: the element at an index, 0 outside the register (10 R253, log entry 34). -/
def vecSlide (c : CoreId) (p : Pfx) (vd va : Fin 32) (shift : Int) (s : State) : State :=
  s.runVector c p 6 0 vecAll true (fun s k =>
    let w := fmtWidth (typeCode p)
    let n := lanes c w
    let a := (k.getV va).toNat
    let (es, _) := mapElems n w (k.getV vd).toNat (activeIn k p.pred w) (fun j =>
      let i : Int := (j : Int) + shift
      (if 0 ≤ i ∧ i < (n : Int) then elemAt w a i.toNat else 0, .none))
    .done s (k.setV vd (BitVec.ofNat 16384 (packElems w es))) .seq)

/-- `VSLIDEUP` (R253). -/
def execVslideup (c : CoreId) (p : Pfx) (vd va : Fin 32) (i : BitVec 16) (s : State) : Host.Outcome State Fault Refusal :=
  next (vecSlide c p vd va (-i.toInt) s)

/-- `VSLIDEDN` (R253). -/
def execVslidedn (c : CoreId) (p : Pfx) (vd va : Fin 32) (i : BitVec 16) (s : State) : Host.Outcome State Fault Refusal :=
  next (vecSlide c p vd va i.toInt s)

/-! ## Loads and stores (10 R250) -/

/-- A page that the active elements of a vector access touch: first address, byte count to the last active element's
end, and the element addresses. -/
structure VecPage where
  va : Nat
  size : Nat
  elems : List Nat
deriving DecidableEq, Repr

/-- Group the addresses of active elements by page, in ascending order. -/
def vecPages (unit : Nat) : List Nat → List VecPage
  | [] => []
  | a :: rest =>
    match vecPages unit rest with
    | pg :: more =>
      if a / 4096 = pg.va / 4096 then { va := a, size := pg.va + pg.size - a, elems := a :: pg.elems } :: more
      else { va := a, size := unit, elems := [a] } :: pg :: more
    | [] => [{ va := a, size := unit, elems := [a] }]

/-- Locate one page of elements: translation, the privilege that a register window needs (06 R161), the shadow-stack check of a
store, and normal memory or an SRAM window (09 R225, 10 R250). The physical address of the first element. -/
def State.locatePage (s : State) (c : CoreId) (k : Core) (acc : Access) (unit : Nat) (guarded : Bool) (pg : VecPage) :
    Except AccessFault Nat × State :=
  let hit := if guarded then pg.elems.findSome? (fun a => k.shadowByte a unit) else none
  let va := BitVec.ofNat 64 pg.va
  let (t, s1) := s.coreTranslate c pg.va acc
  let window : Bool := match t with
    | .ok pa => (s.kindAt pa).registerWindow && decide (k.status.pl = .user)
    | _ => false
  if window then (.error .privilege, s1)
  else match t, hit with
  | .address, _ => (.error (.trap 0x0A 0 va), s1)
  | .segment d, _ => (.error (.trap 0x0B d va), s1)
  | _, some b => (.error (.trap 0x06 2 (BitVec.ofNat 64 b)), s1)
  | .page cause level, none => (.error (.page cause level va), s1)
  | .bus, none => (.error (.trap 0x0D 0 va), s1)
  | .ok pa, none =>
    let kind := s.kindAt pa
    let lastPa := pa + pg.size - unit
    if (kind.normal || kind.sram) && s.coreBusOk c pa unit && s.coreBusOk c lastPa unit then (.ok pa, s1)
    else (.error (.trap 0x0D 0 va), s1)

/-- Locate the pages of an access in order. Of several that fail, the first in the order of 09 R225 decides. -/
def State.locatePages (s : State) (c : CoreId) (k : Core) (acc : Access) (unit : Nat) (guarded : Bool) :
    List VecPage → Except AccessFault (List (VecPage × Nat)) × State
  | [] => (.ok [], s)
  | pg :: rest =>
    match s.locatePage c k acc unit guarded pg with
    | (.ok pa, s1) =>
      match s1.locatePages c k acc unit guarded rest with
      | (.ok l, s2) => (.ok ((pg, pa) :: l), s2)
      | (.error f, s2) => (.error f, s2)
    | (.error f, s1) =>
      match s1.locatePages c k acc unit guarded rest with
      | (.error g, s2) => if g.rank < f.rank then (.error g, s2) else (.error f, s1)
      | (.ok _, _) => (.error f, s1)

/-- The first address of an access by elements that is not canonical: of an element's first or last byte (01 R30). -/
def badAddress (unit : Nat) (as : List Nat) : Option Nat :=
  as.findSome? (fun a => if !canonical a then some a else if !canonical (a + unit - 1) then some (a + unit - 1) else none)

/-- Locate the elements of a vector access at their addresses; the first condition of 09 R225 that it meets. -/
def State.vecLocate (s : State) (c : CoreId) (k : Core) (acc : Access) (unit : Nat) (va : Word) (as : List Nat) :
    Except AccessFault (List (VecPage × Nat)) × State :=
  let r := s.locatePages c k acc unit (acc == .write) (vecPages unit as)
  match r.1, badAddress unit as with
  | .error .privilege, _ => r
  | _, some a => (.error (.trap 0x0A 0 (BitVec.ofNat 64 a)), s)
  | _, none => if va.toNat % unit ≠ 0 then (.error (.trap 0x08 0 va), s) else r

/-- The active elements of a vector access, with their addresses (10 R250). -/
def vecTouched (c : CoreId) (p : Pfx) (k : Core) (w va : Nat) : List (Nat × Nat) :=
  ((countFrom 0 (lanes c w)).filter (fun j => activeIn k p.pred w j)).map (fun j => (j, (va + j * (w / 8)) % 2 ^ 64))

/-- The physical address of an element among located pages. -/
def elemPa (l : List (VecPage × Nat)) (a : Nat) : Nat :=
  match l.find? (fun x => decide (x.1.va / 4096 = a / 4096)) with
  | some (pg, pa) => pa + (a - pg.va)
  | none => 0

/-- `VLD` (R250): waits for overlapping stores (08 R216), reads through the L1 D, inactive elements keep their value. DEDUCED (log entry
65): as a load it accepts the acquire prefix, and `VST` as a store the release prefix (06 R172, 07 R182). -/
def execVld (c : CoreId) (p : Pfx) (vd : Fin 32) (m : MemOp) (s : State) : Host.Outcome State Fault Refusal :=
  next (s.runInstr c p { bytes := 2 + m.bytes, d := m.dregs, pred := true, nt := true, ar := true, types := vecAll } (fun s k =>
    let w := fmtWidth (typeCode p)
    let unit := w / 8
    let va := eaOf m k
    let es := vecTouched c p k w va.toNat
    match s.vecLocate c k .read unit va (es.map (·.2)) with
    | (.error f, s1) => accessRes s1 c .read f
    | (.ok l, s1) =>
      if k.sbuf.any (fun e => es.any (fun x => e.touches (elemPa l x.2) unit)) then .waits s1 .storeBuffer
      else if s1.windowBusy k.sbuf (l.map (fun x => (x.2, x.1.size))) then .waits s1 .device
      else
        let at' := es.map (fun x => (x.1, elemPa l x.2))
        let need := (at'.filter (fun x => (s1.kindAt x.2).normal)).map (fun x => lineOf x.2)
        match s1.missFor c need false with
        | some ln => .waits (s1.startMiss c ln false p.nt) (.miss ln)
        | none =>
          match at'.find? (fun x => s1.readPoison x.2 unit) with
          | some x => .trap s1 0x0F 0 (some { va := va + BitVec.ofNat 64 (x.1 * unit), write := false, fetch := false })
          | none =>
            let old := (k.getV vd).toNat
            let (xs, _) := mapElems (lanes c w) w old (activeIn k p.pred w)
              (fun j => (s1.readNat (elemPa l ((va.toNat + j * unit) % 2 ^ 64)) unit, .none))
            .done (need.foldl (fun (s : State) ln => s.touch (.l1d c) ln) s1) (k.loaded c (s.core c) (.v vd.val (BitVec.ofNat 16384 (packElems w xs)))) .seq))

/-- `VST` (R250): waits for the store buffer, then writes through the L1 D (08 R217). -/
def execVst (c : CoreId) (p : Pfx) (vs : Fin 32) (m : MemOp) (s : State) : Host.Outcome State Fault Refusal :=
  next (s.runInstr c p { bytes := 2 + m.bytes, d := m.dregs, pred := true, nt := true, ar := true, types := vecAll } (fun s k =>
    let w := fmtWidth (typeCode p)
    let unit := w / 8
    let va := eaOf m k
    let es := vecTouched c p k w va.toNat
    match s.vecLocate c k .write unit va (es.map (·.2)) with
    | (.error f, s1) => accessRes s1 c .write f
    | (.ok l, s1) =>
      if k.sbuf ≠ [] then .waits s1 .storeBuffer
      else
        let at' := es.map (fun x => (x.1, elemPa l x.2))
        let need := (at'.filter (fun x => (s1.kindAt x.2).normal)).map (fun x => lineOf x.2)
        match s1.missFor c need true with
        | some ln => .waits (s1.startMiss c ln true p.nt) (.held ln)
        | none =>
          let v := (k.getV vs).toNat
          let s2 := at'.foldl (fun (s : State) x =>
            let data := leBytes unit (elemAt w v x.1)
            if (s.kindAt x.2).sram then s.sramWrite x.2 data else s.ownedWrite c x.2 data) s1
          .done s2 k .seq))

end Sys2Proof.Machine
end

