-- ==== Sys2Proof/Machine/Tensor.lean ====
section
/-! DEFINITION. The tensor forms of the vector unit: descriptors, groups, progress (10 R254 to R259). -/

namespace Sys2Proof.Machine

/-! ## Descriptors (10 R254, R255) -/

/-- The fields of a descriptor of 64 bytes, with its `PROGRESS` (10 R254). -/
def parseDesc (b : List Byte) : TensorDesc × Nat :=
  let at' (off n : Nat) : Nat := leNat ((b.drop off).take n)
  ({ base := at' 0 8, fmt := at' 8 1, nt := bit (at' 10 1) 0,
     dims := (countFrom 0 4).map (fun i => at' (16 + 4 * i) 4),
     strides := (countFrom 0 3).map (fun i => toSigned 64 (at' (32 + 8 * i) 8)) },
   at' 12 4)

/-- The granularity in bytes that a base and its strides must be multiples of (10 R255). -/
def rowUnit (fmt : Nat) : Nat := if memWidth fmt = 6 then 3 else if memWidth fmt < 8 then 1 else memWidth fmt / 8

/-- The conditions on the shape, strides, alignment and reserved fields of a descriptor (10 R255). -/
def descLegal (b : List Byte) : Bool :=
  let at' (off n : Nat) : Nat := leNat ((b.drop off).take n)
  let d := (parseDesc b).1
  let rank := at' 9 1
  let u := rowUnit d.fmt
  decide (1 ≤ rank ∧ rank ≤ 4) && decide (at' 10 1 < 2) && decide (at' 11 1 = 0) && decide (at' 56 8 = 0)
  && (countFrom 0 4).all (fun i => if i < rank then decide (1 ≤ nth 0 d.dims i) else decide (nth 0 d.dims i = 1))
  && decide (d.dims.foldl (· * ·) 1 ≤ 2 ^ 32 - 1)
  && (countFrom 1 3).all (fun i => decide (i < rank) || decide (nth 0 d.strides (i - 1) = 0))
  && decide (d.base % u = 0) && d.strides.all (fun x => decide (x % (u : Int) = 0))

/-- Whether a format holds every value of another exactly (10 R256). -/
def holdsExactly (src dst : Nat) : Bool :=
  match floatFmt src, floatFmt dst, intFmt src, intFmt dst with
  | some a, some b, _, _ =>
    decide (a.fb ≤ b.fb) && decide (b.emin - b.fb ≤ a.emin - a.fb)
    && !magLt b.maxFinite.1 b.maxFinite.2 a.maxFinite.1 a.maxFinite.2
    && (decide (a.top ≠ .ieee) || decide (b.top = .ieee)) && (decide (a.top = .numbers) || decide (b.top ≠ .numbers))
  | none, some b, some (w, sg), _ =>
    let bitsOf := if sg then w - 1 else w
    decide (bitsOf ≤ b.fb + 1) && !magLt b.maxFinite.1 b.maxFinite.2 (2 ^ bitsOf - 1) 0
  | _, none, some (w, sg), some (v, sg') => if sg == sg' then decide (w ≤ v) else sg' && decide (w < v)
  | _, _, _, _ => false

/-- What a tensor form is: its shape, how many sources, whether its formats fit, the width of its compute format, and the
operation from source encodings to the destination's (10 R256, R257). -/
structure TensorForm where
  bytes : Nat
  imm : Nat
  types : List Nat
  noType : Bool
  fits : Nat → List Nat → Bool
  width : Nat → List Nat → Nat
  op : Rnd → Nat → List Nat → List Nat → Nat × Flg

/-! ## Accesses of a tensor form (10 R258) -/

/-- Of the faults of several accesses of one instruction, the first in the order of 09 R225, by operand among equals. -/
def firstFault : List (Access × AccessFault) → Option (Access × AccessFault)
  | [] => none
  | x :: rest =>
    match firstFault rest with
    | some y => if y.2.rank < x.2.rank then some y else some x
    | none => some x

/-- Locate descriptors: each is read, and the destination's, which stands first, is also written; one that lies neither in normal
memory nor in an SRAM window is a bus error (log entry 35). The faults met, and the physical addresses by operand (10 R255). -/
def State.locateDescs (s : State) (c : CoreId) (k : Core) : List (Word × Access) → List (Access × AccessFault) × List Nat × State
  | [] => ([], [], s)
  | (va, acc) :: rest =>
    let (r, s1) := s.locate c k va { acc := acc, size := 64, align := true }
    let (fs, pas, s2) := s1.locateDescs c k rest
    match r with
    | .error f => ((acc, f) :: fs, 0 :: pas, s2)
    | .ok l =>
      let pa := (l.headD (0, 0)).1
      if (s.kindAt pa).normal || (s.kindAt pa).sram then (fs, pa :: pas, s2) else ((acc, .trap 0x0D 0 va) :: fs, 0 :: pas, s2)

/-- Read the distinct descriptors of a form, the destination's first: their bytes, or the first condition that they meet
(09 R225, 10 R255). -/
def State.readDescs (s : State) (c : CoreId) (k : Core) (vas : List Word) : Except Res (State × List (List Byte)) :=
  let (fs, pas, s1) := s.locateDescs c k ((vas.take 1).map (fun va => (va, Access.write)) ++ vas.map (fun va => (va, Access.read)))
  match firstFault fs with
  | some (acc, f) => .error (accessRes s1 c acc f)
  | none =>
    let at' := vas.zip (pas.drop 1)
    match at'.find? (fun x => s1.readPoison x.2 64) with
    | some x => .error (.trap s1 0x0F 0 (some { va := x.1, write := false, fetch := false }))
    | none =>
      let s2 := at'.foldl (fun (s : State) x => s.fetchVia (.cached (coherentCache c) false) x.2 64) s1
      .ok (s2, at'.map (fun x => s2.readMem x.2 64))

/-- The bytes that `n` elements from one on touch: their first address, their number, the bit of the first element. -/
def TensorDesc.span (d : TensorDesc) (i n : Nat) : Nat × Nat × Nat :=
  let b := d.elemBit i
  (b / 8 % 2 ^ 64, (b % 8 + n * memWidth d.fmt + 7) / 8, b % 8)

/-- Locate the bytes of a group for one operand: pieces of virtual address, physical address and size. -/
def State.locateGroup (s : State) (c : CoreId) (k : Core) (acc : Access) (d : TensorDesc) (i n : Nat) :
    Except AccessFault (List (Nat × Nat × Nat)) × State :=
  let (va, len, _) := d.span i n
  let unit := if fmtWidth d.fmt < 8 then 1 else fmtWidth d.fmt / 8
  let addrs := (countFrom 0 (len / unit)).map (fun j => (va + j * unit) % 2 ^ 64)
  match s.locatePages c k acc unit false (vecPages unit addrs) with
  | (.ok l, s1) => (.ok (l.map (fun x => (x.1.va, x.2, x.1.size))), s1)
  | (.error f, s1) => (.error f, s1)

/-- What stops a tensor form at a group (10 R259). -/
inductive GroupStop where
  | access (acc : Access) (f : AccessFault)
  | data (va : Word)
  | held
deriving DecidableEq, Repr

/-- Locate every operand of a group: the faults met, and the pieces by operand. -/
def State.locateOperands (s : State) (c : CoreId) (k : Core) (i n : Nat) :
    List (TensorDesc × Access) → List (Access × AccessFault) × List (List (Nat × Nat × Nat)) × State
  | [] => ([], [], s)
  | (d, acc) :: rest =>
    let (r, s1) := s.locateGroup c k acc d i n
    let (fs, ls, s2) := s1.locateOperands c k i n rest
    match r with
    | .error f => ((acc, f) :: fs, [] :: ls, s2)
    | .ok l => (fs, l :: ls, s2)

/-- The virtual address of the first byte that carries poison, or lies in an uncorrectable word, among located pieces
(09 R230). -/
def State.firstPoison (s : State) (l : List (Nat × Nat × Nat)) : Option Nat :=
  l.findSome? (fun x => if s.readPoison x.2.1 x.2.2 then
    ((countFrom 0 x.2.2).find? (fun j => s.readPoison (x.2.1 + j) 1)).map (fun j => x.1 + j) else none)

/-- The physical pieces of a located operand. -/
def physical (l : List (Nat × Nat × Nat)) : List (Nat × Nat) := l.map (·.2)

/-- One group: reads, the results, writes (10 R256, R258). Of the conditions that its accesses meet, the first in the order of
09 R225 stops it. -/
def State.runGroup (s : State) (c : CoreId) (k : Core) (dst : TensorDesc) (srcs : List TensorDesc)
    (op : List Nat → Nat × Flg) (i n : Nat) : Except (GroupStop × State) (State × Flg) :=
  let (fs, ls, s1) := s.locateOperands c k i n (srcs.map (fun d => (d, Access.read)) ++ [(dst, Access.write)])
  match firstFault fs with
  | some (acc, f) => .error (.access acc f, s1)
  | none =>
    match (ls.dropLast).findSome? s1.firstPoison with
    | some va => .error (.data (BitVec.ofNat 64 va), s1)
    | none =>
      let out := physical ((ls.getLast?).getD [])
      if s1.pieceHeld out then .error (.held, s1)
      else
        let s2 := (srcs.zip ls).foldl (fun (s : State) y =>
          y.2.foldl (fun (s : State) x => s.fetchVia (.cached (coherentCache c) y.1.nt) x.2.1 x.2.2) s) s1
        let raws := (srcs.zip ls).map (fun x => (leNat (s2.readPieces (physical x.2)) / 2 ^ (x.1.span i n).2.2, fmtWidth x.1.fmt))
        let res := (countFrom 0 n).map (fun j => op (raws.map (fun x => elemAt x.2 x.1 j)))
        let w := fmtWidth dst.fmt
        let old := leNat (s2.readPieces out)
        let b := (dst.span i n).2.2
        let len := (dst.span i n).2.1
        let new := old % 2 ^ b + 2 ^ b * packElems w (res.map (·.1)) + old / 2 ^ (b + w * n) * 2 ^ (b + w * n)
        .ok (s2.coreWrite c dst.nt (splitPieces out (leBytes len new)), res.foldl (fun g x => g.or x.2) .none)

/-- The elements of the group at an index: to the end of the group or of the row (10 R256, R259). -/
def groupSize (g d0 i : Nat) : Nat := min d0 ((i % d0 / g + 1) * g) - i % d0

/-- A tensor form stops at a group boundary with what has been done: the element to resume at stands in `run`. -/
def tensorStops (c : CoreId) (run : TensorRun) (s : State) (w : Wait) : Res :=
  .waits (s.modCore c (fun k' => { k' with tensor := some run })) w

/-- An exception of a tensor form, after its `PROGRESS` has been stored; a fault of that store takes its place (10 R259). -/
def tensorTraps (c : CoreId) (k : Core) (run : TensorRun) (s : State) (cause detail : Nat) (addr : Option TrapAddr) : Res :=
  match s.storeProgress c k run run.index with
  | .ok s1 => .trap (s1.modCore c (fun k' => { k' with tensor := none })) cause detail addr
  | .error (.waits s1 w) => tensorStops c run s1 w
  | .error r => r

/-- Run one group of a tensor form: the form then waits at the group boundary, or, after the last group or from a `PROGRESS` at
or beyond the element count, completes with `PROGRESS` := 0 (10 R256, R259; log entry 26). -/
def tensorFrom (c : CoreId) (k : Core) (f : TensorForm) (code : Nat) (imm : List Nat) (run : TensorRun) (s : State) : Res :=
  match run.descs with
  | [] => .done s k .seq
  | dst :: srcs =>
    let fmts := srcs.map (·.fmt)
    let total := dst.dims.foldl (· * ·) 1
    let w := f.width code (dst.fmt :: fmts)
    let n := groupSize (if w = 6 then 168 else 1024 / w) (nth 1 dst.dims 0) run.index
    let op (xs : List Nat) : Nat × Flg := f.op k.rnd code (dst.fmt :: fmts) (xs ++ imm)
    let complete (run : TensorRun) (s : State) (k : Core) : Res :=
      match s.storeProgress c k run 0 with
      | .ok s1 => .done s1 { k with resv := (s1.core c).resv } .seq
      | .error (.waits s1 w) => tensorStops c run (s1.modCore c (fun k' => { k' with status := k.status })) w
      | .error r => r
    if total ≤ run.index then complete run s k
    else match s.runGroup c k dst srcs op run.index n with
    | .ok (s1, fl) =>
      let run1 := { run with index := run.index + n }
      if total ≤ run1.index then complete run1 s1 (k.flag fl)
      else tensorStops c run1 (s1.modCore c (fun k' => k'.flag fl)) .group
    | .error (.held, s1) => tensorStops c run s1 .group
    | .error (.data va, s1) => tensorTraps c k run s1 0x0F 0 (some { va := va, write := false, fetch := false })
    | .error (.access acc e, s1) =>
      match accessRes s1 c acc e with
      | .waits s2 wt => tensorStops c run s2 wt
      | .trap s2 cause detail addr => tensorTraps c k run s2 cause detail addr
      | r => r

/-- A tensor form (10 R254 to R259): its accesses wait for the store buffer (08 R217) and for a miss that the L1 D is serving (08 R206). -/
def tensorForm (c : CoreId) (p : Pfx) (f : TensorForm) (ads : List (Fin 16)) (i : Option Word) (s : State) : State :=
  let code := if f.noType then 0 else typeCode p
  let imm : List Nat := match i with
    | some x => [(immZero p 2 x).toNat]
    | none => []
  s.runInstr c p { bytes := f.bytes, imm := f.imm, types := f.types, unpaired := true } (fun s k =>
    if !f.noType ∧ !f.types.contains code then .trap s 0x01 0 none
    else if !f.noType ∧ imm.any (fun x => decide (2 ^ fmtWidth code ≤ x)) then .trap s 0x01 0 none
    else if k.sbuf ≠ [] then .waits s .storeBuffer
    else match s.servedLine c with
    | some ln => .waits s (.miss ln)
    | none =>
    match (s.core c).tensor with
    | some run => tensorFrom c k f code imm run s
    | none =>
      match s.readDescs c k (ads.map k.getA) with
      | .error r => r
      | .ok (s1, raws) =>
        let descs := raws.map (fun b => (parseDesc b).1)
        let fmts := descs.map (·.fmt)
        let same := descs.all (fun d => decide (d.dims = (descs.headD { base := 0, fmt := 0, nt := false, dims := [], strides := [] }).dims))
        if !raws.all descLegal || !same || !f.fits code fmts then .trap s1 0x01 0 none
        else
          let at' := (parseDesc (raws.headD [])).2
          tensorFrom c k f code imm { progress := k.getA (ads.headD 0) + 12, start := at', index := at', descs := descs } s1)

/-! ## The forms (10 R257) -/

/-- The destination and sources of an arithmetic form: any element format for the destination, sources that the compute
format holds exactly (10 R256). -/
def arithFits (code : Nat) (fmts : List Nat) : Bool :=
  fmts.all (fun f => vecAll.contains f) && (fmts.drop 1).all (fun f => holdsExactly f code)

/-- An arithmetic form in a compute format: exact conversion, one rounding, conversion to the destination (10 R256). -/
def arithForm (bytes imm : Nat) (types : List Nat) (op : Nat → Rnd → ElemOp) (order : List Nat → List Nat) : TensorForm :=
  { bytes := bytes, imm := imm, types := types, noType := false, fits := arithFits
    width := fun code _ => fmtWidth code
    op := fun r code fmts xs =>
      let srcs := fmts.drop 1
      let wide := (srcs.zip xs).map (fun x => (convertAny x.1 code .rne x.2).1) ++ xs.drop srcs.length
      let (y, g) := op code r (order wide)
      let dst := fmts.headD 0
      if dst = code then (y, g)
      else let (z, h) := convertAny code dst r y
           (z, g.or h) }

/-- A form without TYPE between the formats of its two descriptors (10 R257). -/
def copyForm (fits : Nat → Nat → Bool) (op : Rnd → Nat → Nat → Nat → Nat × Flg) : TensorForm :=
  { bytes := 3, imm := 0, types := [], noType := true
    fits := fun _ fmts => fits (nth 0 fmts 0) (nth 0 fmts 1)
    width := fun _ fmts => max (fmtWidth (nth 0 fmts 0)) (fmtWidth (nth 0 fmts 1))
    op := fun r _ fmts xs => op r (nth 0 fmts 1) (nth 0 fmts 0) (nth 0 xs 0) }

/-- `VADD.T` (R257). -/
def execVaddT (c : CoreId) (p : Pfx) (ad aa ab : Fin 16) (s : State) : Host.Outcome State Fault Refusal :=
  next (tensorForm c p (arithForm 4 0 vecAll arithAdd id) [ad, aa, ab] none s)

/-- `VSUB.T` (R257). -/
def execVsubT (c : CoreId) (p : Pfx) (ad aa ab : Fin 16) (s : State) : Host.Outcome State Fault Refusal :=
  next (tensorForm c p (arithForm 4 0 vecAll arithSub id) [ad, aa, ab] none s)

/-- `VMUL.T` (R257). -/
def execVmulT (c : CoreId) (p : Pfx) (ad aa ab : Fin 16) (s : State) : Host.Outcome State Fault Refusal :=
  next (tensorForm c p (arithForm 4 0 vecAll arithMul id) [ad, aa, ab] none s)

/-- `VMAX.T` (R257). -/
def execVmaxT (c : CoreId) (p : Pfx) (ad aa ab : Fin 16) (s : State) : Host.Outcome State Fault Refusal :=
  next (tensorForm c p (arithForm 4 0 vecAll arithMax id) [ad, aa, ab] none s)

/-- `VMIN.T` (R257). -/
def execVminT (c : CoreId) (p : Pfx) (ad aa ab : Fin 16) (s : State) : Host.Outcome State Fault Refusal :=
  next (tensorForm c p (arithForm 4 0 vecAll arithMin id) [ad, aa, ab] none s)

/-- `VFMA.T` (R257): `a * b + c`. -/
def execVfmaT (c : CoreId) (p : Pfx) (ad aa ab ac : Fin 16) (s : State) : Host.Outcome State Fault Refusal :=
  next (tensorForm c p (arithForm 5 0 vecFloats (arithFma false) id) [ad, aa, ab, ac] none s)

/-- `VCVT.T` (R257): converts between the formats of the two descriptors as `VCVT`. -/
def execVcvtT (c : CoreId) (p : Pfx) (ad aa : Fin 16) (s : State) : Host.Outcome State Fault Refusal :=
  next (tensorForm c p (copyForm (fun dst src => vcvtCodes.contains dst && vcvtCodes.contains src
      && (decide (8 ≤ fmtWidth dst) || decide (8 ≤ fmtWidth src))) (fun r src dst x => convertAny src dst r x)) [ad, aa] none s)

/-- `VSCALE.T` (R257): `a * immediate`. -/
def execVscaleT (c : CoreId) (p : Pfx) (ad aa : Fin 16) (i : Word) (s : State) : Host.Outcome State Fault Refusal :=
  next (tensorForm c p (arithForm 5 2 vecFloats arithMul id) [ad, aa] (some i) s)

/-- `VFMAI.T` (R257): `a * immediate + c`. -/
def execVfmaiT (c : CoreId) (p : Pfx) (ad aa ac : Fin 16) (i : Word) (s : State) : Host.Outcome State Fault Refusal :=
  next (tensorForm c p (arithForm 6 2 vecFloats (arithFma false)
    (fun xs => [nth 0 xs 0, nth 0 xs 2, nth 0 xs 1])) [ad, aa, ac] (some i) s)

/-- `VCOPY.T` (R257): a bit copy between descriptors of one format. -/
def execVcopyT (c : CoreId) (p : Pfx) (ad aa : Fin 16) (s : State) : Host.Outcome State Fault Refusal :=
  next (tensorForm c p (copyForm (fun dst src => decide (dst = src) && vcvtCodes.contains src) (fun _ _ _ x => (x, .none)))
    [ad, aa] none s)

end Sys2Proof.Machine
end

