-- ==== Sys2Proof/Machine/Txe.lean ====
section
/-! DEFINITION. The functions of the TXE (11 R281): the exact value rounded once. A transcendental value is enclosed in
intervals of rising precision until both ends round to one result. -/

namespace Sys2Proof.Machine

/-! ## Intervals: numerators over a power of two -/

/-- An interval of numbers `lo / 2^p` to `hi / 2^p`. -/
structure Iv where
  lo : Int
  hi : Int
deriving DecidableEq, Repr

/-- The ceiling of a quotient by a positive number. -/
def ceilDiv (a b : Int) : Int := -((-a) / b)

/-- A power of two as an integer. -/
def pow2 (n : Nat) : Int := ((2 ^ n : Nat) : Int)

def Iv.add (a b : Iv) : Iv := { lo := a.lo + b.lo, hi := a.hi + b.hi }
def Iv.neg (a : Iv) : Iv := { lo := -a.hi, hi := -a.lo }
def Iv.sub (a b : Iv) : Iv := a.add b.neg

/-- The product of an interval and a non-negative integer. -/
def Iv.times (a : Iv) (n : Nat) : Iv := { lo := a.lo * n, hi := a.hi * n }

/-- The quotient by a positive integer. -/
def Iv.over (a : Iv) (n : Nat) : Iv := { lo := a.lo / n, hi := ceilDiv a.hi n }

/-- Scale by a power of two. -/
def Iv.shift (a : Iv) (k : Int) : Iv :=
  if 0 ≤ k then { lo := a.lo * pow2 k.toNat, hi := a.hi * pow2 k.toNat }
  else { lo := a.lo / pow2 (-k).toNat, hi := ceilDiv a.hi (pow2 (-k).toNat) }

/-- The product of two intervals. -/
def Iv.mul (p : Nat) (a b : Iv) : Iv :=
  let x1 := a.lo * b.lo
  let x2 := a.lo * b.hi
  let x3 := a.hi * b.lo
  let x4 := a.hi * b.hi
  { lo := min (min x1 x2) (min x3 x4) / pow2 p, hi := ceilDiv (max (max x1 x2) (max x3 x4)) (pow2 p) }

/-- The quotient by an interval of positive numbers. -/
def Iv.div (p : Nat) (a b : Iv) : Iv :=
  { lo := min (a.lo * pow2 p / b.hi) (a.lo * pow2 p / b.lo)
    hi := max (ceilDiv (a.hi * pow2 p) b.hi) (ceilDiv (a.hi * pow2 p) b.lo) }

/-- The number 1. -/
def Iv.one (p : Nat) : Iv := { lo := pow2 p, hi := pow2 p }

/-- The enclosure of m * 2^e. -/
def Iv.ofDyadic (p : Nat) (m : Nat) (e : Int) : Iv := ({ lo := m, hi := m } : Iv).shift (e + p)

/-- The larger magnitude of the ends. -/
def Iv.mag (a : Iv) : Nat := max a.lo.natAbs a.hi.natAbs

/-- Sum a series whose terms fall at least by half once they are small: `step k` gives the next term and `part k` what
the term adds. -/
def Iv.series (step : Nat → Iv → Iv) (part : Nat → Iv → Iv) : Nat → Nat → Iv → Iv → Iv
  | 0, _, t, acc => acc.add { lo := -(2 * t.mag + 1 : Nat), hi := (2 * t.mag + 1 : Nat) }
  | fuel + 1, k, t, acc =>
    if t.mag ≤ 1 then acc.add { lo := -3, hi := 3 }
    else Iv.series step part fuel (k + 1) (step k t) (acc.add (part k t))

/-- An empty sum. -/
def Iv.zero : Iv := { lo := 0, hi := 0 }

/-! ## Constants and functions on intervals -/

/-- The inverse hyperbolic tangent of a number up to one third. -/
def Iv.atanh (p : Nat) (z : Iv) : Iv :=
  let z2 := Iv.mul p z z
  Iv.series (fun _ t => Iv.mul p t z2) (fun k t => t.over (2 * k + 1)) (2 * p) 0 z .zero

/-- ln 2 = 2 atanh (1/3). -/
def ivLn2 (p : Nat) : Iv := (Iv.atanh p ((Iv.one p).over 3)).times 2

/-- atan (1 / n) for n of at least 5. -/
def ivAtanInv (p n : Nat) : Iv :=
  Iv.series (fun _ t => (t.over (n * n)).neg) (fun k t => t.over (2 * k + 1)) (2 * p) 0 ((Iv.one p).over n) .zero

/-- pi = 16 atan (1/5) - 4 atan (1/239). -/
def ivPi (p : Nat) : Iv := ((ivAtanInv p 5).times 16).sub ((ivAtanInv p 239).times 4)

/-- The exponential, by reduction modulo ln 2. -/
def Iv.exp (p : Nat) (x : Iv) : Iv :=
  let l := ivLn2 p
  let k := x.lo / l.hi
  let kl := if 0 ≤ k then l.times k.toNat else (l.times (-k).toNat).neg
  let r := x.sub kl
  (Iv.series (fun j t => (Iv.mul p t r).over (j + 1)) (fun _ t => t) (2 * p) 0 (Iv.one p) .zero).shift k

/-- The natural logarithm of m * 2^e. -/
def ivLn (p m : Nat) (e : Int) : Iv :=
  let n := Nat.log2 m
  let f := Iv.ofDyadic p m (-n)
  let z := Iv.div p (f.sub (Iv.one p)) (f.add (Iv.one p))
  let k := e + n
  let l := ivLn2 p
  ((Iv.atanh p z).times 2).add (if 0 ≤ k then l.times k.toNat else (l.times (-k).toNat).neg)

/-- sin and cos of a reduced angle. -/
def Iv.sinCos (p : Nat) (r : Iv) : Iv × Iv :=
  let r2 := Iv.mul p r r
  (Iv.series (fun k t => ((Iv.mul p t r2).over ((2 * k + 2) * (2 * k + 3))).neg) (fun _ t => t) (2 * p) 0 r .zero,
   Iv.series (fun k t => ((Iv.mul p t r2).over ((2 * k + 1) * (2 * k + 2))).neg) (fun _ t => t) (2 * p) 0 (Iv.one p) .zero)

/-- sin, or cos, of m * 2^e, by reduction modulo pi / 2. -/
def ivTrig (p : Nat) (cos : Bool) (m : Nat) (e : Int) : Iv :=
  let x := Iv.ofDyadic p m e
  let h := (ivPi p).over 2
  let n := x.lo / h.lo
  let (si, co) := Iv.sinCos p (x.sub (h.times n.toNat))
  match ((n.toNat + (if cos then 1 else 0)) % 4) with
  | 0 => si
  | 1 => co
  | 2 => si.neg
  | _ => co.neg

/-- erf of m * 2^e below 6: 2 / sqrt pi times its power series. -/
def ivErf (p m : Nat) (e : Int) : Iv :=
  let x := Iv.ofDyadic p m e
  let x2 := Iv.mul p x x
  let sum := Iv.series (fun k t => ((Iv.mul p t x2).over (k + 1)).neg) (fun k t => t.over (2 * k + 1)) (2 * p) 0 x .zero
  let q := ivPi p
  let rt : Iv := { lo := (isqrt (q.lo.toNat * 2 ^ p) : Nat), hi := (isqrt (q.hi.toNat * 2 ^ p) + 1 : Nat) }
  Iv.div p (sum.times 2) rt

/-! ## One function value -/

/-- Compare m * 2^e with a natural number. -/
def geNat (m : Nat) (e : Int) (n : Nat) : Bool := !magLt m e n 0

/-- The interval of a function value at working precision `p`, for a finite non-zero argument that is no special case. -/
def txeInterval (code p : Nat) (neg : Bool) (m : Nat) (e : Int) : Iv :=
  let sx (v : Iv) : Iv := if neg then v.neg else v
  match code with
  | 0x01 => Iv.exp p (sx (Iv.ofDyadic p m e))
  | 0x02 =>
    let x := sx (Iv.ofDyadic p m e)
    let k := x.lo / pow2 p
    (Iv.exp p (Iv.mul p (x.sub { lo := k * pow2 p, hi := k * pow2 p }) (ivLn2 p))).shift k
  | 0x03 => ivLn p m e
  | 0x04 => Iv.div p (ivLn p m e) (ivLn2 p)
  | 0x05 => sx (ivTrig p false m e)
  | 0x06 => ivTrig p true m e
  | 0x07 =>
    let y := Iv.exp p (Iv.ofDyadic p m (e + 1))
    sx (Iv.div p (y.sub (Iv.one p)) (y.add (Iv.one p)))
  | 0x08 => Iv.div p (Iv.one p) ((Iv.one p).add (Iv.exp p (sx (Iv.ofDyadic p m e)).neg))
  | _ => sx (ivErf p m e)

/-- The end of an interval as a value. -/
def ivEnd (p : Nat) (x : Int) : FVal := .fin (decide (x < 0)) x.natAbs (-(p : Int))

/-- Raise the precision until both ends round to one encoding. -/
def txeSearch (f : FFmt) (iv : Nat → Iv) : Nat → Nat → Option (FVal × Flg)
  | 0, _ => none
  | fuel + 1, p =>
    let v := iv p
    let a := f.round .rne (ivEnd p v.lo)
    let b := f.round .rne (ivEnd p v.hi)
    if f.encode a.1 = f.encode b.1 then some a else txeSearch f iv fuel (2 * p)

/-- 1 / sqrt of m * 2^e, with a last bit that holds whether it is inexact. -/
def rsqrtParts (m : Nat) (e : Int) : Nat × Int :=
  let m2 := if e % 2 = 0 then m else 2 * m
  let e2 := if e % 2 = 0 then e else e - 1
  let t := Nat.log2 m2 + 70
  let q := isqrt (2 ^ (2 * t) / m2)
  (2 * q + b2n (decide (q * q * m2 ≠ 2 ^ (2 * t))), -(e2 / 2) - t - 1)

/-- A value that stands for every value beyond the range in which a function is not yet constant after rounding. -/
def txeFar (code : Nat) (neg : Bool) (m : Nat) (e : Int) : Option FVal :=
  match code with
  | 0x01 | 0x02 => if geNat m e 1100 then some (.fin false 1 (if neg then -1500 else 1500)) else none
  | 0x07 => if geNat m e 32 then some (.fin neg (2 ^ 80 - 1) (-80)) else none
  | 0x08 =>
    if neg then (if geNat m e 1100 then some (.fin false 1 (-1500)) else none)
    else if geNat m e 64 then some (.fin false (2 ^ 80 - 1) (-80)) else none
  | 0x0C => if geNat m e 6 then some (.fin neg (2 ^ 55 - 1) (-55)) else none
  | _ => none

/-- An exact value of a function that has one. -/
def txeExact (code : Nat) (neg : Bool) (m : Nat) (e : Int) : Option FVal :=
  let isInt : Bool := decide (0 ≤ e) || decide (m % 2 ^ (-e).toNat = 0)
  let intPart : Int := if 0 ≤ e then (m * 2 ^ e.toNat : Nat) else (m / 2 ^ (-e).toNat : Nat)
  let log : Int := e + Nat.log2 m
  match code with
  | 0x02 => if isInt then some (.fin false 1 (if neg then -intPart else intPart)) else none
  | 0x03 => if m = 2 ^ Nat.log2 m ∧ log = 0 then some .zero else none
  | 0x04 => if m = 2 ^ Nat.log2 m then some (FVal.ofInt log) else none
  | _ => none

/-- A function of a finite non-zero value; the working precision covers the exponent of the argument. -/
def txeFinite (f : FFmt) (code raw : Nat) (neg : Bool) (m : Nat) (e : Int) : FVal × Flg :=
  if (code = 0x03 ∨ code = 0x04) ∧ neg then (.nan, .invalid)
  else match txeFar code neg m e with
  | some v => f.round .rne v
  | none =>
    match txeExact code neg m e with
    | some v => f.round .rne v
    | none =>
      let guard := (max 0 (e + Nat.log2 m)).toNat
      match txeSearch f (fun p => let q := p + 2 * guard
                                  (txeInterval code q neg m e).shift (-(2 * guard : Nat))) 8 128 with
      | some r => r
      | none => (f.decode (Config.txeUndecided code raw % 2 ^ f.width), .none)

/-- One function of the TXE on an encoding of the source format (R281). -/
def txeElem (code src dst raw : Nat) : Nat × Flg :=
  match floatFmt src, floatFmt dst with
  | some a, some f =>
    let x := a.decode raw
    let (v, g) : FVal × Flg :=
      if code = 0x09 then f.div .rne (.fin false 1 0) x
      else if code = 0x0B then f.sqrt .rne x
      else match x with
      | .nan => (.nan, .none)
      | .inf s =>
        match code with
        | 0x01 | 0x02 => (if s then .zero else .inf false, .none)
        | 0x03 | 0x04 => if s then (.nan, .invalid) else (.inf false, .none)
        | 0x05 | 0x06 => (.nan, .invalid)
        | 0x08 => (if s then .zero else .fin false 1 0, .none)
        | 0x0A => if s then (.nan, .invalid) else (.zero, .none)
        | _ => (.fin s 1 0, .none)
      | .fin s m e =>
        if m = 0 then
          match code with
          | 0x01 | 0x02 | 0x06 => (.fin false 1 0, .none)
          | 0x03 | 0x04 => (.inf true, { dz := true })
          | 0x08 => (.fin false 1 (-1), .none)
          | 0x0A => (.inf s, { dz := true })
          | _ => (.fin s 0 0, .none)
        else if code = 0x0A then
          if s then (.nan, .invalid)
          else let (y, k) := rsqrtParts m e
               f.round .rne (.fin false y k)
        else txeFinite f code raw s m e
    (f.encode v, g)
  | _, _ => (0, .none)

end Sys2Proof.Machine
end

