-- ==== Sys2Proof/Machine/Engines.lean ====
section
/-! DEFINITION. How an engine executes the head of its queue, and what each engine computes (11 R277, R278, R281 to
R287). A command works unit by unit; a parked access keeps the units already done, and the command is sent again. -/

namespace Sys2Proof.Machine

/-! ## Execution -/

/-- What stops a command: a failed access, its own (`desc` for descriptors), its end with a status, or an error of the engine. -/
inductive EngStop where
  | access (desc : Bool) (acc : Access) (f : AgentFault)
  | ends (status : Nat)
  | error (why : EngineError)
deriving DecidableEq, Repr

/-- The outcome of a part of a command's work: go on, keep waiting, or stop. -/
inductive EngRes where
  | go (c : EngCmd) (s : State)
  | hold (c : EngCmd) (s : State)
  | stop (c : EngCmd) (s : State) (why : EngStop)

def EngRes.bind (r : EngRes) (f : EngCmd → State → EngRes) : EngRes :=
  match r with
  | .go c s => f c s
  | x => x

/-- A failure of a read or write; data that cannot be corrected end the command with 0Ch (11 R269, R275). -/
def engFault (desc : Bool) (acc : Access) (f : AgentFault) : EngStop :=
  if f.stop = .data then .ends 0x0C else .access desc acc f

/-- Read bytes as a seal-verifying consumer (11 R278) and go on with them. -/
def State.engRead (s : State) (e : EngineId) (c : EngCmd) (desc : Bool) (va n : Nat) (k : List Byte → State → EngRes) : EngRes :=
  match s.agentRead (.cd e.cd) (engineVia e (bit (c.w 0) 26)) c.ctx (va % 2 ^ 64) n true with
  | (.ok b, s1) => k b s1
  | (.error f, s1) => .stop c s1 (engFault desc .read f)

/-- Write bytes and go on. -/
def State.engWrite (s : State) (e : EngineId) (c : EngCmd) (va : Nat) (data : List Byte) (k : State → EngRes) : EngRes :=
  match s.agentWrite (.cd e.cd) (engineVia e (bit (c.w 0) 26)) c.ctx (va % 2 ^ 64) data with
  | (.ok s1, _) => k s1
  | (.error f, s1) => .stop c s1 (engFault false .write f)

/-- `ESTAT.CAUSE` of an error of the engine (11 R279). -/
def engineCause : EngineError → Nat
  | .datapath => 1
  | .buffer => 2

/-- The error that hits unit `i`, if it is the one. -/
def struck (bad : Option (Nat × EngineError)) (i : Nat) : Option EngineError :=
  match bad with
  | some (n, why) => if n = i then some why else none
  | none => none

/-- A command without units is hit by an error at once. -/
def unlessStruck (bad : Option (Nat × EngineError)) (c : EngCmd) (s : State) (r : EngRes) : EngRes :=
  match bad with
  | some (_, why) => .stop c s (.error why)
  | none => r

/-- A stop takes effect: parked while faults are parked, else the command's end (11 R275, R277; 12 R302, R304); an error of the
engine raises its record, whose containment puts the engine into FAULT, and the command stays where it is (R280). -/
def State.stopHead (s : State) (e : EngineId) (c : EngCmd) (why : EngStop) : State :=
  let s0 := s.modHead e (fun _ => c)
  match why with
  | .ends status => s0.endHead e status
  | .error why => s0.reportStop (mkRec (e.cd.val + 1) (0x4000 + engineIndex e.kind) 0x09 2 3 (engineCause why))
  | .access desc acc f =>
    match s0.parkAgent (.cd e.cd) c.ctx f acc (.engine e (if desc then .desc else .data)) with
    | some s1 => s1.setEngine e { s1.engine e with parked := true, st := .wait }
    | none => s0.endHead e 0x0A

/-- `RESULT` bit 31 of the first RAND command to start after a capture (11 R285). -/
def State.startHead (s : State) (e : EngineId) (c : EngCmd) : EngCmd × State :=
  if c.phase ≠ .waiting then (c, s)
  else
    let late := decide (e.kind = .rand) && s.randLate.contains e.cd.val
    let x := s.engine e
    ({ c with phase := .started, result := if late then 2 ^ 31 else 0 },
     { s with randLate := if late then without e.cd.val s.randLate else s.randLate }.setEngine e { x with st := .run, ctx := c.ctx })

/-- The head of an engine's queue executes, where it is the operation named and nothing holds the engine back. -/
def State.runHead (s : State) (e : EngineId) (kind : EngineKind) (op : Nat) (work : EngCmd → State → EngRes) : State :=
  let x := s.engine e
  match x.queue with
  | [] => s
  | c :: _ =>
    if e.kind ≠ kind ∨ cOp c.words ≠ op ∨ !s.engineWorks e ∨ x.parked ∨ x.ringParked ∨ c.phase = .issued ∨ c.phase = .ended then s
    else
      let (c1, s1) := s.startHead e c
      match work c1 (s1.modHead e (fun _ => c1)) with
      | .go c2 s2 => (s2.modHead e (fun _ => c2)).endHead e 0
      | .hold c2 s2 => s2.modHead e (fun _ => c2)
      | .stop c2 s2 why => s2.stopHead e c2 why

/-- Do the units of a command that are not done yet, up to the one that an error hits. -/
def engUnits (bad : Option (Nat × EngineError)) (unit : Nat → EngCmd → State → EngRes) (total : Nat) : Nat → EngCmd → State → EngRes
  | 0, c, s => .go c s
  | fuel + 1, c, s =>
    if total ≤ c.count then .go c s
    else match struck bad c.count with
      | some why => .stop c s (.error why)
      | none => (unit c.count c s).bind (fun c1 s1 => engUnits bad unit total fuel { c1 with count := c1.count + 1 } s1)


/-- Flags of an element join those of the command (11 R279). -/
def EngCmd.flag (c : EngCmd) (g : Flg) : EngCmd := { c with nv := c.nv || g.nv, of := c.of || g.of, dz := c.dz || g.dz }

/-! ## Descriptors (11 R274, R277; 10 R255) -/

/-- A descriptor as read: its fields, its rank, and whether it meets R255 with `PROGRESS` 0. -/
structure ReadDesc where
  d : TensorDesc
  rank : Nat
  ok : Bool
deriving DecidableEq, Repr

/-- The descriptor lies in normal memory or an SRAM window (10 R255). -/
def State.descPlace (s : State) (e : EngineId) (c : EngCmd) (va : Nat) : Bool :=
  match (s.agentLocate (.cd e.cd) c.ctx .read (rangePieces va 64)).1 with
  | .ok l => l.all (fun x => (s.kindAt x.1).normal || (s.kindAt x.1).sram)
  | .error _ => true

/-- Read descriptors in order. -/
def State.loadDescs (e : EngineId) (c : EngCmd) (k : List ReadDesc → State → EngRes) : List Nat → List ReadDesc → State → EngRes
  | [], acc, s => k acc.reverse s
  | va :: rest, acc, s =>
    if va % 64 ≠ 0 then .stop c s (.ends 0x04)
    else if !s.descPlace e c va then .stop c s (.ends 0x0A)
    else s.engRead e c true va 64 (fun b s1 =>
      let (d, progress) := parseDesc b
      State.loadDescs e c k rest ({ d := d, rank := leNat ((b.drop 9).take 1), ok := descLegal b && decide (progress = 0) } :: acc) s1)

/-- At the start of a command, read its descriptors and check them; a command that goes on has them (11 R277). -/
def State.withDescs (s : State) (e : EngineId) (c : EngCmd) (addrs : List Nat) (check : List ReadDesc → Bool)
    (work : EngCmd → State → EngRes) : EngRes :=
  if c.descs ≠ [] then work c s
  else State.loadDescs e c (fun ds s1 =>
    if ds.all (·.ok) && check ds then work { c with descs := ds.map (·.d) } s1 else .stop c s1 (.ends 0x04)) addrs [] s

/-- The descriptor at an index. -/
def nullDesc : TensorDesc := { base := 0, fmt := 0, nt := false, dims := [], strides := [] }
def ReadDesc.null : ReadDesc := { d := nullDesc, rank := 0, ok := false }
def EngCmd.desc (c : EngCmd) (i : Nat) : TensorDesc := nth nullDesc c.descs i

/-! ## Rows of a tensor (10 R254, 04 R105) -/

/-- The extent of a dimension. -/
def TensorDesc.dim (d : TensorDesc) (k : Nat) : Nat := nth 1 d.dims k

/-- The rows of a tensor: the product of the extents above dimension 0. -/
def TensorDesc.rows (d : TensorDesc) : Nat := d.dim 1 * d.dim 2 * d.dim 3

/-- The address of a row. -/
def TensorDesc.rowAddr (d : TensorDesc) (r : Nat) : Nat := d.elemBit (r * d.dim 0) / 8 % 2 ^ 64

/-- The bytes of a row. -/
def TensorDesc.rowLen (d : TensorDesc) : Nat := rowBytes d.fmt (d.dim 0)

/-- Element `j` of a row as raw bits; W40 and W80 ignore the upper bits (04 R109). -/
def TensorDesc.elemOf (d : TensorDesc) (x j : Nat) : Nat := elemAt (memWidth d.fmt) x j % 2 ^ fmtWidth d.fmt

/-- Two tensors share a byte. -/
def TensorDesc.overlaps (a b : TensorDesc) : Bool :=
  (countFrom 0 a.rows).any (fun i => (countFrom 0 b.rows).any (fun j =>
    decide (a.rowAddr i < b.rowAddr j + b.rowLen) && decide (b.rowAddr j < a.rowAddr i + a.rowLen)))

/-- Two tensors overlap element for element (11 R277). -/
def TensorDesc.sameElements (a b : TensorDesc) : Bool :=
  decide (a.dims = b.dims) && decide (memWidth a.fmt = memWidth b.fmt)
  && (countFrom 0 a.rows).all (fun r => decide (a.rowAddr r = b.rowAddr r))

/-- A free element: what an overlapped destination holds (11 R277, log entry 5). -/
def freeElem (fresh i : Nat) : Nat := leNat ((countFrom (8 * i) 8).map (Config.freeByte fresh))

/-- Write the elements of a row, or free values where the destination overlaps a source. Bits of the last byte beyond the
row keep their values. -/
def State.writeRow (s : State) (e : EngineId) (c : EngCmd) (d : TensorDesc) (r : Nat) (free : Bool) (vals : List Nat)
    (k : State → EngRes) : EngRes :=
  let w := memWidth d.fmt
  let vs := if free then (countFrom 0 vals.length).map (freeElem s.fresh) else vals
  match s.agentLocate (.cd e.cd) c.ctx .write (rangePieces (d.rowAddr r) d.rowLen) with
  | (.error f, s1) => .stop c s1 (engFault false .write f)
  | (.ok l, s1) =>
    if s1.pieceHeld l then .stop c s1 (.access false .write { stop := .held, va := d.rowAddr r, pa := none }) else
    let old := match l.getLast? with
      | some (pa, n) => (s1.byteAt (pa + n - 1)).toNat
      | none => 0
    let t := d.dim 0 * w % 8
    let x := packElems w vs + (if t = 0 then 0 else old / 2 ^ t * 2 ^ t * 2 ^ (8 * (d.rowLen - 1)))
    k ((s1.agentScatter (.cd e.cd) (engineVia e (bit (c.w 0) 26)) l (leBytes d.rowLen x)).bump)

/-- Read a row as a number. -/
def State.readRow (s : State) (e : EngineId) (c : EngCmd) (d : TensorDesc) (r : Nat) (k : Nat → State → EngRes) : EngRes :=
  s.engRead e c false (d.rowAddr r) d.rowLen (fun b s1 => k (leNat b) s1)

/-- A format code of R245, which a descriptor may hold (10 R254): never an MX format. -/
def knownFmt (f : Nat) : Bool := ((floatFmt f).isSome || (intFmt f).isSome) && !isMx f

/-! ## TXE (11 R281) -/

/-- One row of FUNC. -/
def txeRow (e : EngineId) (r : Nat) (c : EngCmd) (s : State) : EngRes :=
  let src := c.desc 0
  let dst := c.desc 1
  s.readRow e c src r (fun x s1 =>
    let res := (countFrom 0 (src.dim 0)).map (fun j => txeElem (fld c.words 3 0 8) src.fmt dst.fmt (src.elemOf x j))
    s1.writeRow e c dst r (dst.overlaps src && !dst.sameElements src) (res.map (·.1)) (fun s2 =>
      .go (c.flag (res.foldl (fun g y => g.or y.2) .none)) s2))

/-- `FUNC` (R281). -/
def execFunc (e : EngineId) (bad : Option (Nat × EngineError)) (s : State) : Host.Outcome State Fault Refusal :=
  next (s.runHead e .txe 1 (fun c s =>
    s.withDescs e c [c.w 1, c.w 2]
      (fun ds =>
        let a := (nth ReadDesc.null ds 0).d
        let b := (nth ReadDesc.null ds 1).d
        decide (a.fmt = eFmt c.words) && decide (b.fmt = eAux c.words) && decide (a.dims = b.dims))
      (fun c s => engUnits bad (txeRow e) (c.desc 0).rows ((c.desc 0).rows + 1) c s)))

/-! ## SEL (11 R282) -/

/-- The place of an encoding in the total order. -/
def selKey (fmt raw : Nat) : Int :=
  match floatFmt fmt, intFmt fmt with
  | some f, _ =>
    if (f.decode raw).isNan then (2 ^ f.width : Nat)
    else if bit raw (f.width - 1) then -((raw % 2 ^ (f.width - 1) : Nat) : Int) - 1 else (raw : Int)
  | none, some (w, true) => toSigned w raw
  | _, _ => raw

/-- Insert an entry before those that it does not come after. -/
def selInsert (before : Int → Int → Bool) (x : Int × Nat) : List (Int × Nat) → List (Int × Nat)
  | [] => [x]
  | y :: ys => if before x.1 y.1 then x :: y :: ys else y :: selInsert before x ys

/-- Sort keys with their source indices; equal keys keep ascending source index. -/
def selSort (desc : Bool) (keys : List (Int × Nat)) : List (Int × Nat) :=
  keys.foldr (selInsert (fun a b => if desc then decide (b ≤ a) else decide (a ≤ b))) []

/-- Write a row where the command names an output. -/
def State.writeIf (s : State) (e : EngineId) (c : EngCmd) (on : Bool) (d : TensorDesc) (r : Nat) (free : Bool) (vals : List Nat)
    (k : State → EngRes) : EngRes := if on then s.writeRow e c d r free vals k else k s

/-- One row of SORT, or of TOPK with `k` outputs. -/
def selRow (e : EngineId) (k : Nat) (r : Nat) (c : EngCmd) (s : State) : EngRes :=
  let src := c.desc 0
  let hasV := decide (c.w 2 ≠ 0)
  let hasI := decide (c.w 3 ≠ 0)
  let dv := c.desc 1
  let di := c.desc (if hasV then 2 else 1)
  s.readRow e c src r (fun x s1 =>
    let raws := (countFrom 0 (src.dim 0)).map (src.elemOf x)
    let order := ((selSort (bit (c.w 4) 17) ((countFrom 0 (src.dim 0)).map (fun j => (selKey src.fmt (nth 0 raws j), j)))).take k).map (·.2)
    s1.writeIf e c hasV dv r (dv.overlaps src) (order.map (nth 0 raws)) (fun s2 =>
      s2.writeIf e c hasI di r (di.overlaps src) order (fun s3 => .go c s3)))

/-- SORT and TOPK. -/
def State.select (s : State) (e : EngineId) (bad : Option (Nat × EngineError)) (op : Nat) : State :=
  s.runHead e .sel op (fun c s =>
    let outs := (if c.w 2 ≠ 0 then [c.w 2] else []) ++ (if c.w 3 ≠ 0 then [c.w 3] else [])
    let k (d : TensorDesc) : Nat := if op = 1 then d.dim 0 else fld c.words 4 0 17
    s.withDescs e c (c.w 1 :: outs)
      (fun ds =>
        let a := (nth ReadDesc.null ds 0).d
        let fmts := (if c.w 2 ≠ 0 then [eFmt c.words] else []) ++ (if c.w 3 ≠ 0 then [0x03] else [])
        decide (a.fmt = eFmt c.words) && decide (a.dim 0 ≤ 65536) && decide (k a ≤ a.dim 0)
        && ((ds.drop 1).zip fmts).all (fun x => decide (x.1.d.fmt = x.2) && decide (x.1.d.dims = k a :: a.dims.drop 1)))
      (fun c s => engUnits bad (selRow e (k (c.desc 0))) (c.desc 0).rows ((c.desc 0).rows + 1) c s))

/-- `SORT` (R282). -/
def execSort (e : EngineId) (bad : Option (Nat × EngineError)) (s : State) : Host.Outcome State Fault Refusal :=
  next (s.select e bad 1)
/-- `TOPK` (R282). -/
def execTopk (e : EngineId) (bad : Option (Nat × EngineError)) (s : State) : Host.Outcome State Fault Refusal :=
  next (s.select e bad 2)

/-! ## GSE (11 R283) -/

/-- What a GSE operation does with a row: copy from the table, copy into it, or add to it. -/
inductive GseOp where
  | gather | scatter | scatterAdd
deriving DecidableEq, Repr

/-- Row `i`: read its index, check it, move the row. -/
def gseRow (e : EngineId) (op : GseOp) (i : Nat) (c : EngCmd) (s : State) : EngRes :=
  let table := c.desc 0
  let idx := c.desc 1
  let rows := c.desc 2
  s.engRead e c false (idx.elemBit i / 8) (memWidth idx.fmt / 8) (fun b s1 =>
    let x := toSigned (memWidth idx.fmt) (leNat b)
    if x < 0 ∨ (table.dim 1 : Int) ≤ x then .stop { c with result := i } s1 (.ends 0x0D)
    else
      let t := x.toNat
      let els (d : TensorDesc) (y : Nat) : List Nat := (countFrom 0 (d.dim 0)).map (d.elemOf y)
      match op with
      | .gather =>
        s1.readRow e c table t (fun y s2 =>
          s2.writeRow e c rows i (rows.overlaps table || rows.overlaps idx) (els table y) (fun s3 => .go c s3))
      | .scatter =>
        s1.readRow e c rows i (fun y s2 =>
          s2.writeRow e c table t (table.overlaps rows || table.overlaps idx) (els rows y) (fun s3 => .go c s3))
      | .scatterAdd =>
        s1.readRow e c rows i (fun y s2 =>
          s2.readRow e c table t (fun z s3 =>
            let res := ((els table z).zip (els rows y)).map (fun p => arithAdd table.fmt .rne [p.1, p.2])
            s3.writeRow e c table t (table.overlaps rows || table.overlaps idx) (res.map (·.1)) (fun s4 =>
              .go (c.flag (res.foldl (fun g q => g.or q.2) .none)) s4))))

/-- GATHER, SCATTER and SCATTERADD. -/
def State.gatherScatter (s : State) (e : EngineId) (bad : Option (Nat × EngineError)) (code : Nat) (op : GseOp) : State :=
  s.runHead e .gse code (fun c s =>
    s.withDescs e c [c.w 1, c.w 2, c.w 3]
      (fun ds =>
        let t := nth ReadDesc.null ds 0
        let x := nth ReadDesc.null ds 1
        let r := nth ReadDesc.null ds 2
        decide (t.rank = 2 ∧ x.rank = 1 ∧ r.rank = 2) && (decide (x.d.fmt = 0x03) || decide (x.d.fmt = 0x04))
        && decide (r.d.dim 1 = x.d.dim 0) && decide (t.d.dim 0 = r.d.dim 0) && decide (t.d.dim 0 ≤ 65536)
        && decide (t.d.fmt = r.d.fmt) && knownFmt t.d.fmt && (decide (op ≠ .scatterAdd) || decide (t.d.fmt = eFmt c.words)))
      (fun c s => engUnits bad (gseRow e op) ((c.desc 1).dim 0) ((c.desc 1).dim 0 + 1) c s))

/-- `GATHER` (R283). -/
def execGather (e : EngineId) (bad : Option (Nat × EngineError)) (s : State) : Host.Outcome State Fault Refusal :=
  next (s.gatherScatter e bad 1 .gather)
/-- `SCATTER` (R283). -/
def execScatter (e : EngineId) (bad : Option (Nat × EngineError)) (s : State) : Host.Outcome State Fault Refusal :=
  next (s.gatherScatter e bad 2 .scatter)
/-- `SCATTERADD` (R283). -/
def execScatteradd (e : EngineId) (bad : Option (Nat × EngineError)) (s : State) : Host.Outcome State Fault Refusal :=
  next (s.gatherScatter e bad 3 .scatterAdd)

/-! ## RAND (11 R284) -/

/-- The number of a stream of a compute die. -/
def streamKey (d : Fin 4) (n : Nat) : Nat := d.val * 4096 + n

def State.rand (s : State) (d : Fin 4) (n : Nat) : RandStream := mget RandStream.reset s.rands (streamKey d n)
def State.setRand (s : State) (d : Fin 4) (n : Nat) (x : RandStream) : State :=
  { s with rands := mset RandStream.reset s.rands (streamKey d n) x }

/-- An operation on a stream that the posting context owns; any other gives 02h. -/
def ownedStream (e : EngineId) (c : EngCmd) (s : State) (k : Nat → RandStream → EngRes) : EngRes :=
  let n := fld c.words 1 0 12
  let r := s.rand e.cd n
  if r.owned ∧ r.owner = c.ctx then k n r else .stop c s (.ends 0x02)

/-- `SETSTREAM` (R284). -/
def execSetstream (e : EngineId) (bad : Option (Nat × EngineError)) (s : State) : Host.Outcome State Fault Refusal :=
  next (s.runHead e .rand 1 (fun c s => unlessStruck bad c s (
    let n := fld c.words 1 0 12
    let r := s.rand e.cd n
    if r.owned ∧ r.owner ≠ c.ctx then .stop c s (.ends 0x02)
    else
      let pair (i : Nat) : BitVec 128 := BitVec.ofNat 128 (c.w i + 2 ^ 64 * c.w (i + 1))
      .go c (s.setRand e.cd n { owned := true, owner := c.ctx, key := pair 2, ctr := pair 4 }))))

/-- `GETSTREAM` (R284). -/
def execGetstream (e : EngineId) (bad : Option (Nat × EngineError)) (s : State) : Host.Outcome State Fault Refusal :=
  next (s.runHead e .rand 2 (fun c s => unlessStruck bad c s (ownedStream e c s (fun _ r =>
    s.engWrite e c (c.w 2) (leBytes 16 r.key.toNat ++ leBytes 16 r.ctr.toNat) (fun s1 => .go c s1)))))

/-- `FREESTREAM` (R284). -/
def execFreestream (e : EngineId) (bad : Option (Nat × EngineError)) (s : State) : Host.Outcome State Fault Refusal :=
  next (s.runHead e .rand 3 (fun c s => unlessStruck bad c s (ownedStream e c s (fun n _ => .go c (s.setRand e.cd n RandStream.reset)))))

/-- One block of a stream: AES-128 of the counter, as a little-endian number. -/
def streamBlock (r : RandStream) (i : Nat) : Nat :=
  let octets (x : Nat) : List Nat := (leBytes 16 x).map (·.toNat)
  leNat ((aes128 (octets r.key.toNat) (octets ((r.ctr.toNat + i) % 2 ^ 128))).map (BitVec.ofNat 8))

/-- Bits of the stream that an element takes. -/
def fillWidth (dist fmt : Nat) : Nat := if dist = 2 then 16 else fmtWidth fmt

/-- Element value from the word `x` of the stream. -/
def fillValue (dist fmt thresh x : Nat) : Nat :=
  if dist = 0 then x
  else if dist = 2 then b2n (decide (x % 65536 < thresh))
  else
    let v : FVal := if fmt = 0x10 then .fin false (x / 2 ^ 11) (-53) else if fmt = 0x0F then .fin false (x / 2 ^ 8) (-24)
      else .fin false (x / 2 ^ 8) (-8)
    (encodeAny fmt .rne v).1

/-- Word `i` of `w` bits of a stream; a word lies within one block. -/
def streamWord (r : RandStream) (w i : Nat) : Nat := bits (streamBlock r (i * w / 128)) (i * w % 128) w

/-- One row of FILL. -/
def fillRow (e : EngineId) (r : RandStream) (i : Nat) (c : EngCmd) (s : State) : EngRes :=
  let d := c.desc 0
  let dist := fld c.words 3 0 2
  let w := fillWidth dist d.fmt
  let vals := (countFrom (i * d.dim 0) (d.dim 0)).map (fun j => fillValue dist d.fmt (fld c.words 3 16 16) (streamWord r w j))
  s.writeRow e c d i false vals (fun s1 => .go c s1)

/-- `FILL` (R284). -/
def execFill (e : EngineId) (bad : Option (Nat × EngineError)) (s : State) : Host.Outcome State Fault Refusal :=
  next (s.runHead e .rand 4 (fun c s => ownedStream e c s (fun n r =>
    s.withDescs e c [c.w 2] (fun ds => decide ((nth ReadDesc.null ds 0).d.fmt = eFmt c.words)) (fun c s =>
      let d := c.desc 0
      (engUnits bad (fillRow e r) d.rows (d.rows + 1) c s).bind (fun c1 s1 =>
        let words := d.dim 0 * d.rows * fillWidth (fld c.words 3 0 2) d.fmt
        .go c1 (s1.setRand e.cd n { r with ctr := r.ctr + BitVec.ofNat 128 ((words + 127) / 128) }))))))

/-! ## The CRE's fold (11 R286) -/

/-- One step of the fold: `COP` of two encodings. -/
def creOp (cop fmt a b : Nat) : Nat × Flg :=
  if cop = 1 then arithMax fmt .rne [a, b] else if cop = 2 then arithMin fmt .rne [a, b] else arithAdd fmt .rne [a, b]

/-- Fold the rows of operands element by element, in order. -/
def creFold (cop fmt n : Nat) (d : TensorDesc) : List Nat → List (Nat × Flg)
  | [] => []
  | x :: xs => xs.foldl (fun acc y =>
      ((countFrom 0 n).zip acc).map (fun p => let (v, g) := creOp cop fmt p.2.1 (d.elemOf y p.1)
                                              (v, p.2.2.or g)))
      ((countFrom 0 n).map (fun j => (d.elemOf x j, Flg.none)))

/-- Read the same row of several operands. -/
def State.readRows (e : EngineId) (c : EngCmd) (r : Nat) (k : List Nat → State → EngRes) : List TensorDesc → List Nat → State → EngRes
  | [], acc, s => k acc.reverse s
  | d :: ds, acc, s => s.readRow e c d r (fun x s1 => State.readRows e c r k ds (x :: acc) s1)

/-- One row of a fold into the first descriptor. -/
def foldRow (e : EngineId) (dst : TensorDesc) (srcs : List TensorDesc) (r : Nat) (c : EngCmd) (s : State) : EngRes :=
  State.readRows e c r (fun xs s1 =>
    let res := creFold (fld c.words 3 8 2) dst.fmt (dst.dim 0) dst xs
    s1.writeRow e c dst r (srcs.any dst.overlaps) (res.map (·.1)) (fun s2 =>
      .go (c.flag (res.foldl (fun g y => g.or y.2) .none)) s2)) srcs [] s

/-- `COMBINE` (R286): the list of descriptor addresses, then the descriptors, then the fold. -/
def execCombine (e : EngineId) (bad : Option (Nat × EngineError)) (s : State) : Host.Outcome State Fault Refusal :=
  next (s.runHead e .cre 1 (fun c s =>
    let n := fld c.words 3 0 7
    let work (c : EngCmd) (s : State) : EngRes :=
      let d := c.desc 0
      engUnits bad (foldRow e d (c.descs.drop 1)) d.rows (d.rows + 1) c s
    if c.descs ≠ [] then work c s
    else s.engRead e c true (c.w 2) (8 * n) (fun b s1 =>
      s1.withDescs e c (c.w 1 :: (countFrom 0 n).map (fun i => leNat ((b.drop (8 * i)).take 8)))
        (fun ds => ds.all (fun x => decide (x.d.fmt = eFmt c.words) && decide (x.d.dims = (nth ReadDesc.null ds 0).d.dims)))
        work)))

/-! ## TRE (11 R287) -/

/-- Read the elements of one column of the source that make a row of the destination. -/
def State.readColumn (e : EngineId) (c : EngCmd) (d : TensorDesc) (k : List Nat → State → EngRes) : List Nat → List Nat → State → EngRes
  | [], acc, s => k acc.reverse s
  | i :: is, acc, s =>
    s.engRead e c false (d.elemBit i / 8) (memWidth d.fmt / 8) (fun b s1 => State.readColumn e c d k is (leNat b :: acc) s1)

/-- Row `r` of the destination. -/
def transposeRow (e : EngineId) (r : Nat) (c : EngCmd) (s : State) : EngRes :=
  let src := c.desc 0
  let dst := c.desc 1
  let a := r % src.dim 0
  let rest := r / src.dim 0
  State.readColumn e c src (fun xs s1 => s1.writeRow e c dst r (dst.overlaps src) xs (fun s2 => .go c s2))
    ((countFrom 0 (src.dim 1)).map (fun x => a + src.dim 0 * (x + src.dim 1 * rest))) [] s

/-- `TRANSPOSE` (R287). -/
def execTranspose (e : EngineId) (bad : Option (Nat × EngineError)) (s : State) : Host.Outcome State Fault Refusal :=
  next (s.runHead e .tre 1 (fun c s =>
    s.withDescs e c [c.w 1, c.w 2]
      (fun ds =>
        let a := (nth ReadDesc.null ds 0).d
        let b := (nth ReadDesc.null ds 1).d
        decide (a.fmt = b.fmt) && knownFmt a.fmt && [8, 16, 32, 64].contains (fmtWidth a.fmt)
        && decide (b.dims = [a.dim 1, a.dim 0, a.dim 2, a.dim 3]))
      (fun c s => engUnits bad (transposeRow e) (c.desc 1).rows ((c.desc 1).rows + 1) c s)))

/-! ## LZE (11 R287) -/

/-- Input and output regions of an LZE command overlap (11 R277). -/
def lzeOverlap (c : EngCmd) : Bool := decide (c.w 1 < c.w 3 + c.w 4) && decide (c.w 3 < c.w 1 + c.w 2)

/-- Free bytes in place of an output that overlaps the input. -/
def lzeOut (s : State) (c : EngCmd) (b : List Byte) : List Byte :=
  if lzeOverlap c then (countFrom 0 b.length).map (Config.freeByte s.fresh) else b

/-- One chunk of COMPRESS. -/
def compressUnit (e : EngineId) (i : Nat) (c : EngCmd) (s : State) : EngRes :=
  s.engRead e c false (c.w 1 + chunkSize * i) (min chunkSize (c.w 2 - chunkSize * i)) (fun raw s1 =>
    let out := compressChunk raw
    if c.w 4 < c.result + out.length then .stop c s1 (.ends 0x0E)
    else s1.engWrite e c (c.w 3 + c.result) (lzeOut s1 c out) (fun s2 => .go { c with result := c.result + out.length } s2.bump))

/-- `COMPRESS` (R287). -/
def execCompress (e : EngineId) (bad : Option (Nat × EngineError)) (s : State) : Host.Outcome State Fault Refusal :=
  next (s.runHead e .lze 1 (fun c s =>
    let n := (c.w 2 + chunkSize - 1) / chunkSize
    engUnits bad (compressUnit e) n (n + 1) c s))

/-- One chunk of DECOMPRESS; `count` is the input consumed. -/
def decompressUnit (e : EngineId) (c : EngCmd) (s : State) : EngRes :=
  let left := c.w 2 - c.count
  if left < 16 then .stop c s (.ends 0x0F)
  else s.engRead e c false (c.w 1 + c.count) 16 (fun hb s1 =>
    let h := parseChunk hb
    if !h.legal ∨ left < 16 + h.padded then .stop c s1 (.ends 0x0F)
    else s1.engRead e c false (c.w 1 + c.count + 16) h.payLen (fun pb s2 =>
      match h.expand pb with
      | none => .stop c s2 (.ends 0x0F)
      | some raw =>
        if c.w 4 < c.result + raw.length then .stop c s2 (.ends 0x0E)
        else s2.engWrite e c (c.w 3 + c.result) (lzeOut s2 c raw) (fun s3 =>
          .go { c with result := c.result + raw.length, count := c.count + 16 + h.padded } s3.bump)))

/-- Chunks of DECOMPRESS up to the end of the input; an error hits the chunk `i` counted from where the command goes on. -/
def decompressUnits (e : EngineId) (bad : Option (Nat × EngineError)) (i : Nat) : Nat → EngCmd → State → EngRes
  | 0, c, s => .go c s
  | fuel + 1, c, s =>
    if c.w 2 ≤ c.count then .go c s
    else match struck bad i with
      | some why => .stop c s (.error why)
      | none => (decompressUnit e c s).bind (decompressUnits e bad (i + 1) fuel)

/-- `DECOMPRESS` (R287). -/
def execDecompress (e : EngineId) (bad : Option (Nat × EngineError)) (s : State) : Host.Outcome State Fault Refusal :=
  next (s.runHead e .lze 2 (fun c s => decompressUnits e bad 0 (c.w 2 / 16 + 1) c s))

/-! ## The scrubber (11 R269, R271; 18 R432) -/

/-- The physical address of a word of the commons or of a tile store. -/
def sramAddr (d : Fin 4) (store : Option (Fin 24)) (offset : Nat) : Nat :=
  0xF1000000000 + d.val * 0x100000000 + (match store with
    | none => 0x80000000 + offset % 0x4000000
    | some cl => 0xC0000000 + cl.val * 0x800000 + offset % 0x800000) / 8 * 8

/-- `SCRUB` (R269): a corrected word is counted; an uncorrected one stays so until it is overwritten in full. -/
def execScrub (d : Fin 4) (store : Option (Fin 24)) (offset : Nat) (outcome : DramOutcome) (s : State) : Host.Outcome State Fault Refusal :=
  if !s.cdUp d then next s
  else
    let pa := sramAddr d store offset
    let cs := mget ComStat.reset s.comstat d.val
    let unit := 0x7000 + (match store with
      | none => 0
      | some cl => 1 + cl.val)
    let r (cls sev : Nat) : McRec := { mkRec (d.val + 1) unit cls sev 0 0 with paddr := pa }
    match outcome with
    | .clean => next s
    | .corrected _ =>
      next ({ s with comstat := mset ComStat.reset s.comstat d.val { cs with ceCnt := satAdd cs.ceCnt 1 } }.report (r 0x05 0))
    | .uncorrectable =>
      let found := s.badSram.contains (pa / 8)
      let cs1 := { cs with
        ueCnt := satAdd cs.ueCnt 1, ueInTs := store.isSome
        ueCluster := match store with
          | none => 0
          | some cl => BitVec.ofNat 5 cl.val
        ueOffset := BitVec.ofNat 27 (match store with
          | none => offset % 0x4000000 / 8 * 8
          | some _ => offset % 0x800000 / 8 * 8) }
      let s1 := { s with comstat := mset ComStat.reset s.comstat d.val cs1, badSram := addNew (pa / 8) s.badSram }
      next (if found then s1 else s1.report (r 0x06 1))

end Sys2Proof.Machine
end

