-- ==== Sys2Proof/Machine/Movers.lean ====
section
/-! DEFINITION. Mover channels: the ring, execution of descriptors, halt, resume and abort (12 R289, R290, R292 to R296). -/

namespace Sys2Proof.Machine

/-! ## The checks of a descriptor (12 R291, R292) -/

/-- The row unit of a format in source bytes: whole elements, 3-byte groups of FP6, bytes of 4-bit formats (12 R292). -/
def fmtGroup (code : Nat) : Nat := if fmtWidth code = 6 then 3 else if fmtWidth code < 8 then 1 else fmtWidth code / 8

/-- A descriptor without an error (12 R291, R292). -/
def moverDescOk (d : List Word) : Bool :=
  let x := dXform d
  let two := decide (dF d 0 0 2 = 1)
  decide (dF d 0 0 2 ≤ 1) && decide (dF d 0 24 24 = 0) && decide (1 ≤ dLen d)
  && (if two then decide (1 ≤ dF d 3 32 32) else decide (dF d 3 32 32 = 0 ∧ dW d 4 = 0 ∧ dW d 5 = 0))
  && decide (dF d 7 32 32 = 0) && (decide (2 ≤ x) || decide (dCap d = 0)) && (decide (x < 2) || !two)
  && (if x = 1 then vcvtCodes.contains (dSfmt d) && vcvtCodes.contains (dDfmt d) && decide (dLen d % fmtGroup (dSfmt d) = 0)
      else decide (dSfmt d = 0 ∧ dDfmt d = 0))

/-- Halt a channel: latch `MVSTAT`, raise the interrupt. -/
def State.haltMover (s0 : State) (m : MoverId) (cause : Nat) (write : Bool) (va : Nat) (pa : Option Nat) : State :=
  let s := s0.mvRest m cause
  let x := s.mover m
  (s.setMover m { x with
    st := .halted, parked := false, cause := BitVec.ofNat 8 cause, dir := write, fva := BitVec.ofNat 64 va
    pav := pa.isSome && decide (cause ≠ 1 ∧ cause ≠ 2 ∧ cause ≠ 7)
    fpa := if cause = 1 ∨ cause = 2 ∨ cause = 7 then 0 else BitVec.ofNat 52 (pa.getD 0) }).moverIrq m

/-- Where a page that a walk has refused as forbidden lies in a register window: the physical address of the access (12 R293,
R300). -/
def State.windowAddr (s : State) (m : MoverId) (acc : Access) (f : AgentFault) : Option Nat :=
  match f.stop, (s.translate (moverEtu m) (s.moverCtx m) f.va acc true).1 with
  | .page 4 _, .ok pa => match s.kindAt pa with
    | .hdReg => some pa
    | .cdReg _ => some pa
    | .mbReg _ => some pa
    | _ => none
  | _, _ => none

/-- A stop takes effect: parked while faults are parked, else the halt of R304. DEDUCED (log entry 58): a source or destination
whose page lies in a register window halts at once with cause 04h (R293) and is not parked as a page fault (R300). -/
def State.stopMover (s : State) (m : MoverId) (w : MvStop) : State :=
  match w with
  | .halt cause write va pa => s.haltMover m cause write va pa
  | .park desc acc f =>
    match if desc then none else s.windowAddr m acc f with
    | some pa => s.haltMover m 4 (acc == .write) f.va (some pa)
    | none =>
    match s.parkAgent (moverEtu m) (s.moverCtx m) f acc (.mover m desc) with
    | some s1 => s1.setMover m { s1.mover m with st := .wait, parked := true, fva := BitVec.ofNat 64 f.va, dir := acc == .write }
    | none => s.haltMover m 3 (acc == .write) f.va none

/-! ## Handing back and reading descriptors (12 R290) -/

/-- Write words 6 and 0 of the descriptor: one indivisible write of its line. One that has not been read is read here for its word 0.
`OUTLEN` of a descriptor that is aborted counts the bytes of its current row below `DONE` (log entry 46). -/
def State.writeBack (s : State) (m : MoverId) (status : Byte) : Option MvStop × State :=
  let x := s.mover m
  let ctx := s.moverCtx m
  let head : Except MvStop Word × State := match x.desc with
    | w0 :: _ => (.ok w0, s)
    | [] => match s.agentRead (moverEtu m) (s.moverVia m) ctx x.descVa 8 false with
      | (.ok b, s1) => (.ok (BitVec.ofNat 64 (leNat b)), s1.setMover m { x with desc := [BitVec.ofNat 64 (leNat b)] })
      | (.error f, s1) => (.error (mvDescFault x .read f), s1)
  match head with
  | (.error w, s1) => (some w, s1)
  | (.ok w0, s1) =>
    let len := if dXform x.desc < 2 ∧ status = 0 then dOutLen x.desc else x.out
    let w6 := status.toNat + 2 ^ 8 * b2n x.nv + 2 ^ 9 * b2n x.of + 2 ^ 32 * (len % 2 ^ 32)
    let places := [(x.descVa, 8), (x.descVa + 48, 8)]
    match s1.agentLocate (moverEtu m) ctx .write places with
    | (.error f, s2) => (some (mvDescFault x .write f), s2)
    | (.ok l, s2) =>
      if s2.pieceHeld l then (some (.park true .write { stop := .held, va := x.descVa, pa := none }), s2)
      else (none, s2.agentScatter (moverEtu m) (s.moverVia m) l (leBytes 8 (w0.toNat % 2 ^ 63) ++ leBytes 8 w6))

/-- The destination bytes of a descriptor that another overtakes take free values (12 R294); those in a PCIe window are with the
device. `p` is the descriptor and what its rows produced. -/
def State.freeDst (s : State) (m : MoverId) (p : List Word × Nat) : State :=
  let n := if dXform p.1 < 2 then dOutLen p.1 else p.2
  ((countFrom 0 (dRows p.1)).flatMap (fun r => rangePieces (dDst p.1 r) n)).foldl (fun (t : State) x =>
    match t.agentLocate (moverEtu m) (t.moverCtx m) .write [x] with
    | (.ok l, t1) =>
      if l.any (fun y => decide (t1.kindAt y.1 = .pcieMem)) || t1.pieceHeld l then t1
      else (t1.agentScatter (moverEtu m) (t1.moverVia m) l ((countFrom 0 x.2).map (Config.freeByte t1.fresh))).bump
    | (.error _, _) => t) s

/-- Look at the descriptor at `IDX`: start it, or enter `IDLE`, or look again for a remembered KICK. -/
def State.fetchDesc (s : State) (m : MoverId) : Nat → State
  | 0 => s
  | fuel + 1 =>
    let x := s.mover m
    if s.held then s.setMover m { x with st := .idle, kicked := true, desc := [] }
    else match s.agentRead (moverEtu m) (s.moverVia m) (s.moverCtx m) x.descVa 64 false with
    | (.error f, s1) =>
      (s1.setMover m { x with
        st := .run, desc := [], row := 0, done := 0, out := 0, nv := false, of := false, handing := none, cause := 0 }).stopMover m
          (mvDescFault x .read f)
    | (.ok b, s1) =>
      let d := (countFrom 0 8).map (fun i => BitVec.ofNat 64 (leNat ((b.drop (8 * i)).take 8)))
      if !bit (dW d 0) 63 then
        if x.kicked then (s1.setMover m { x with kicked := false }).fetchDesc m fuel
        else s1.setMover m { x with st := .idle, desc := [], earlier := [] }
      else
        let y := { x with
          st := .run, desc := d, row := 0, done := 0, out := 0, nv := false, of := false, handing := none, cause := 0
          earlier := if bit (dW d 0) 5 then [] else x.earlier }
        let s2 := s1.setMover m y
        if moverDescOk d then (y.earlier.filter (fun p => descOverlap p.1 d)).foldl (fun (t : State) p => t.freeDst m p) s2
        else s2.haltMover m 1 false 0 none

/-- Hand the descriptor back with a status, raise its interrupt, and go on with the next one. -/
def State.handBack (s : State) (m : MoverId) (status : Byte) : State :=
  let x := s.mover m
  let s0 := s.setMover m { x with st := .run, handing := some status }
  match s0.writeBack m status with
  | (some w, s1) => s1.stopMover m w
  | (none, s1) =>
    let y := s1.mover m
    let s2 := s1.setMover m { y with
      handing := none, desc := [], earlier := y.earlier ++ (if y.desc = [] then [] else [(y.desc, y.out)])
      idx := BitVec.ofNat 12 ((y.idx.toNat + 1) % y.slots) }
    let s3 := if bit (dW y.desc 0) 6 then s2.moverIrq m else s2
    s3.fetchDesc m 2

/-! ## The units and the rows -/

/-- A unit that has been formed: the address after its last byte, its source bytes, its output bytes, its flags. -/
structure RowMark where
  upTo : Nat
  srcLen : Nat
  len : Nat
  nv : Bool
  of : Bool
deriving DecidableEq, Repr

/-- A row at work: the source bytes and output bytes formed, the source bytes read beyond those, and the bytes not written yet with the
address of the first and the units they belong to. -/
structure RowWork where
  src : Nat
  out : Nat
  ahead : List Byte
  dst : Nat
  pend : List Byte
  marks : List RowMark
deriving DecidableEq, Repr

/-- A unit that is written whole counts in `DONE`. -/
def Mover.credit (x : Mover) (k : RowMark) : Mover :=
  { x with done := x.done + BitVec.ofNat 32 k.srcLen, out := x.out + k.len, nv := x.nv || k.nv, of := x.of || k.of }

/-- The units that are written whole count. -/
def State.creditRow (s : State) (m : MoverId) (w : RowWork) : RowWork × State :=
  ({ w with marks := w.marks.dropWhile (fun k => decide (k.upTo ≤ w.dst)) },
   (s.setMover m ((w.marks.takeWhile (fun k => decide (k.upTo ≤ w.dst))).foldl Mover.credit (s.mover m))).bump)

/-- Write pieces of the bytes that wait, in ascending address order (12 R293). -/
def State.rowPieces (m : MoverId) : List (Nat × Nat) → RowWork → State → Option MvStop × RowWork × State
  | [], w, s => (none, s.creditRow m w)
  | (va, n) :: rest, w, s =>
    match s.agentWrite (moverEtu m) (s.moverVia m) (s.moverCtx m) (va % 2 ^ 64) (w.pend.take n) with
    | (.error f, s1) => (some (mvFault .write f), w, s1)
    | (.ok s1, _) =>
      let (w1, s2) := s1.creditRow m { w with pend := w.pend.drop n, dst := va + n }
      State.rowPieces m rest w1 s2

/-- The bytes that wait and may be written: all of them at the end of the row, else up to the last line boundary, so that a line
that the destination covers completely is written whole (12 R293). -/
def RowWork.ripe (w : RowWork) (final : Bool) : Nat :=
  if final then w.pend.length else (w.dst + w.pend.length) / 128 * 128 - w.dst

/-- Form and write the units of a row from `DONE` on, until its end or a stop. -/
def State.mvRow (m : MoverId) : Nat → RowWork → State → Option MvStop × State
  | 0, _, s => (none, s)
  | fuel + 1, w, s =>
    let len := dLen (s.mover m).desc
    if len ≤ w.src then (none, s)
    else match s.mvForm m w.src w.out w.ahead with
    | (.error why, s1) => (some why, s1)
    | (.ok (dst, u, ahead), s1) =>
      let start := if w.pend = [] then dst else w.dst
      let w1 : RowWork :=
        { src := w.src + u.srcLen, out := w.out + u.data.length, ahead := ahead, dst := start
          pend := w.pend ++ freeOut s1 (s1.mover m).undefinedOut u.data
          marks := w.marks ++ [{ upTo := dst + u.data.length, srcLen := u.srcLen, len := u.data.length, nv := u.nv, of := u.of }] }
      let n := w1.ripe (decide (len ≤ w1.src))
      match State.rowPieces m (naturalPieces (n + 1) w1.dst n) w1 s1.bump with
      | (some why, _, s2) => (some why, s2)
      | (none, w2, s2) => State.mvRow m fuel w2 s2

/-- Rows until the last one is done, or a stop. -/
def State.mvRun (m : MoverId) : Nat → State → Option MvStop × State
  | 0, s => (none, s)
  | fuel + 1, s =>
    let x := s.mover m
    match State.mvRow m (dLen x.desc + 1) { src := x.done.toNat, out := x.out, ahead := [], dst := 0, pend := [], marks := [] } s with
    | (some why, s1) => (some why, s1)
    | (none, s1) =>
      let y := s1.mover m
      if y.row + 1 < dRows y.desc then State.mvRun m fuel (s1.setMover m { y with row := y.row + 1, done := 0, out := 0 }) else (none, s1)

/-- The descriptor in execution runs, where it names the transform, and is handed back at its end. -/
def State.moverRun (s : State) (m : MoverId) (xform : Nat) : State :=
  let x := s.mover m
  if x.st ≠ .run ∨ x.desc = [] ∨ x.handing.isSome ∨ dXform x.desc ≠ xform ∨ !s.moverUp m ∨ s.frozen then s
  else match State.mvRun m (dRows x.desc + 1) s with
  | (some w, s1) => s1.stopMover m w
  | (none, s1) => s1.handBack m 0

/-- `MOVER_COPY` (R292). -/
def execMoverCopy (m : MoverId) (s : State) : Host.Outcome State Fault Refusal := next (s.moverRun m 0)
/-- `MOVER_CONVERT` (R292). -/
def execMoverConvert (m : MoverId) (s : State) : Host.Outcome State Fault Refusal := next (s.moverRun m 1)
/-- `MOVER_COMPRESS` (R292). -/
def execMoverCompress (m : MoverId) (s : State) : Host.Outcome State Fault Refusal := next (s.moverRun m 2)
/-- `MOVER_DECOMPRESS` (R292). -/
def execMoverDecompress (m : MoverId) (s : State) : Host.Outcome State Fault Refusal := next (s.moverRun m 3)

/-! ## `MVCTL` (12 R296) -/

/-- A channel takes writes to its `MVCTL`: powered and bound. -/
def State.takesCtl (s : State) (m : MoverId) : Bool := s.moverUp m && decide (s.moverByte m < 0x80)

/-- A post or KICK ends the Idle of a compute die (18 R423). -/
def State.wakeMover (s : State) : MoverId → State
  | .cluster d _ _ => s.wakeCd d
  | .bulk d _ => s.wakeCd d
  | .host _ => s

/-- `KICK`: read index `IDX`, or remember it where the channel is busy or may not read. -/
def State.kickMover (s0 : State) (m : MoverId) : State :=
  if !s0.takesCtl m then s0
  else
    let s := s0.wakeMover m
    let x := s.mover m
    if x.st = .idle ∧ !s.frozen ∧ !s.held then
      (s.setMover m { x with st := .run, desc := [], earlier := [], row := 0, done := 0 }).fetchDesc m 2
    else s.setMover m { x with kicked := true }

/-- A remembered KICK of an idle channel takes effect once nothing holds it back (02 R64). -/
def State.rekick (s : State) (m : MoverId) : State :=
  let x := s.mover m
  if x.st = .idle ∧ x.kicked then (s.setMover m { x with kicked := false }).kickMover m else s

/-- A halted channel may go on: no unacknowledged record's scope contains it (18 R435). -/
def State.moverAcked (s : State) : MoverId → Bool
  | .cluster d cl _ => s.clusterAcked d cl
  | .bulk d _ => s.engineAcked d
  | .host _ => true

/-- `RESUME` and `ABORT` act: the channel is halted, nothing freezes it, and what contained it is acknowledged. -/
def State.mayGoOn (s : State) (m : MoverId) : Bool :=
  s.takesCtl m && decide ((s.mover m).st = .halted) && !s.frozen && s.moverAcked m

/-- Whether a channel was halted by a containment while it held no descriptor: it enters IDLE, or reads on (log entry 58). -/
def Mover.emptyHanded (x : Mover) : Bool := decide (x.cause = 0) && decide (x.desc = []) && x.handing.isNone

/-- `RESUME`: execute the halted descriptor again; after cause 01h or 07h it halts again at once. -/
def State.resumeMover (s : State) (m : MoverId) : State :=
  let x := s.mover m
  if !s.mayGoOn m then s
  else if x.cause = 1 ∨ x.cause = 7 then s.moverIrq m
  else if x.emptyHanded then (s.setMover m { x with st := .idle }).rekick m
  else
    let s1 := s.setMover m { x with st := .run, cause := 0 }
    match x.handing with
    | some status => s1.handBack m status
    | none => if x.desc = [] then s1.fetchDesc m 2 else s1

/-- `ABORT`: hand the halted descriptor back with its cause. -/
def State.abortMover (s : State) (m : MoverId) : State :=
  let x := s.mover m
  if !s.mayGoOn m then s
  else if x.emptyHanded then (s.setMover m { x with st := .idle }).rekick m
  else s.handBack m x.cause

/-- `RESET`: `IDX` becomes 0 while idle. -/
def State.resetMover (s : State) (m : MoverId) : State :=
  let x := s.mover m
  if !s.takesCtl m ∨ x.st ≠ .idle then s else s.setMover m { x with idx := 0 }

/-- `MVCTL_KICK` (R290). -/
def execMvctlKick (m : MoverId) (s : State) : Host.Outcome State Fault Refusal := next (s.kickMover m)
/-- `MVCTL_RESUME` (R296). -/
def execMvctlResume (m : MoverId) (s : State) : Host.Outcome State Fault Refusal := next (s.resumeMover m)
/-- `MVCTL_ABORT` (R296). -/
def execMvctlAbort (m : MoverId) (s : State) : Host.Outcome State Fault Refusal := next (s.abortMover m)
/-- `MVCTL_RESET` (R296). -/
def execMvctlReset (m : MoverId) (s : State) : Host.Outcome State Fault Refusal := next (s.resetMover m)

/-- The access of a parked channel is made again (12 R304). -/
def State.retryMover (s : State) (m : MoverId) : State :=
  let x := s.mover m
  if x.st ≠ .wait then s
  else
    let s1 := s.setMover m { x with st := .run, parked := false }
    match x.handing with
    | some status => s1.handBack m status
    | none => if x.desc = [] then s1.fetchDesc m 2 else s1

/-- The access of a parked channel has failed with its batch (12 R304); `FVA` was set when it parked. -/
def State.failMover (s : State) (m : MoverId) : State :=
  let x := s.mover m
  if x.st ≠ .wait then s else s.haltMover m 3 x.dir x.fva.toNat none

end Sys2Proof.Machine
end

