-- ==== Sys2Proof/Machine/RunControl.lean ====
section
/-! DEFINITION. Host sequencer control: the doorbell, release, halt and reset of a sequencer (09 R232, R242; 17 R411). -/

namespace Sys2Proof.Machine

/-- Drop the lines of a sequencer's L1 I and L1 D, dirty ones written back to the L2 first (09 R242). -/
def State.flushL1 (s : State) (c : CoreId) : State :=
  let mine (k : Nat) : Bool := decide (k = cacheKey (.l1i c)) || decide (k = cacheKey (.l1d c))
  let own := s.lines.filter (fun x => mine (x.1 / 2 ^ 48))
  own.foldl (fun (s : State) x =>
    let l := x.1 % 2 ^ 48
    let cache := cacheOf (x.1 / 2 ^ 48)
    let s1 := s.settled l
    (if (s1.line cache l).st = .m then s1.handUp (x.1 / 2 ^ 48) l else s1).dropCopy cache l) s

/-- A sequencer in the state of R242: RESET, at `ENTRYVA`, in the mode of `CFLAGS`. `CYCLES`, which R242 does not name, restarts at 0
(06 R155; DESIGN CHOICE, log entry 65). -/
def State.resetCore (s : State) (d : Fin 4) (cl : Fin 24) : Core :=
  let n := clusterKey d cl
  { Core.reset with pc := s.entryVa n, status := { Status.reset with mode := bit (s.cflags n) 1 } }

/-- `SEQDB.RING` (09 R232). -/
def State.ringDoorbell (s : State) (d : Fin 4) (cl : Fin 24) : State := s.setIpend d cl 3

/-- `SEQDB_RING` (R232). -/
def execSeqdbRing (cd : Fin 4) (cl : Fin 24) (s : State) : Host.Outcome State Fault Refusal := next (s.ringDoorbell cd cl)

/-- `SEQRUN.RELEASE` (17 R411, R418): a sequencer that a containment stopped, also after its `RESET`, goes on only once no unacknowledged
record's scope contains it (18 R435; log entry 57). -/
def State.releaseCore (s : State) (d : Fin 4) (cl : Fin 24) : State :=
  let k := s.core (.sycen d cl)
  if s.held ∨ 128 ≤ s.cctxByte (clusterKey d cl) ∨ !s.clusterAcked d cl ∨ k.sbuf ≠ [] then s
  else match k.st with
  | .reset => s.setCore (.sycen d cl) { s.resetCore d cl with st := .run, ipend := k.ipend }
  | .halted => s.setCore (.sycen d cl) { k with st := .run }
  | _ => s

/-- `SEQRUN_RELEASE` (R411). -/
def execSeqrunRelease (cd : Fin 4) (cl : Fin 24) (s : State) : Host.Outcome State Fault Refusal := next (s.releaseCore cd cl)

/-- `SEQRUN.HALTREQ` (17 R411). -/
def State.requestHalt (s : State) (d : Fin 4) (cl : Fin 24) : State :=
  s.modCore (.sycen d cl) (fun k => if k.st = .run then { k with haltReq := true } else k)

/-- `SEQRUN_HALTREQ` (R411). -/
def execSeqrunHaltreq (cd : Fin 4) (cl : Fin 24) (s : State) : Host.Outcome State Fault Refusal := next (s.requestHalt cd cl)

/-- A requested halt takes effect (17 R411). -/
def State.halt (s : State) (d : Fin 4) (cl : Fin 24) : State :=
  let c : CoreId := .sycen d cl
  let k := s.core c
  if k.st = .run ∧ k.haltReq ∧ !s.frozen ∧ k.haltsHere then
    s.insteadOf c (fun s1 => s1.setCore c { (s1.core c).settle with st := .halted, pair := none, haltReq := false })
  else s

/-- `SEQUENCER_HALT` (R411). -/
def execSequencerHalt (cd : Fin 4) (cl : Fin 24) (s : State) : Host.Outcome State Fault Refusal := next (s.halt cd cl)

/-- `SEQRUN.RESET` (17 R411): parked accesses leave their records, stores that completed stay in the store buffer, and
the caches are emptied once no store is left. -/
def State.resetSequencer (s : State) (d : Fin 4) (cl : Fin 24) : State :=
  let c : CoreId := .sycen d cl
  let k := s.core c
  let s1 := (s.dropRequester (.cd d) (.sequencer d cl)).setCore c { s.resetCore d cl with sbuf := k.sbuf }
  if k.sbuf = [] then s1.flushL1 c else s1

/-- `SEQRUN_RESET` (R411). -/
def execSeqrunReset (cd : Fin 4) (cl : Fin 24) (s : State) : Host.Outcome State Fault Refusal := next (s.resetSequencer cd cl)

end Sys2Proof.Machine
end

