-- ==== Sys2Proof/Machine/Translation.lean ====
section
/-! DEFINITION. What the ETUs do besides translating: a requester's failed translation, prefetch, completion of fault
batches, withdrawal (12 R298 to R307). -/

namespace Sys2Proof.Machine

/-! ## Requesters -/

/-- The ETU of a requester. -/
def requesterEtu : Requester → EtuId
  | .feeder p _ => .cd p.cd
  | .drain p _ => .cd p.cd
  | .sequencer d _ => .cd d
  | .mover m _ => moverEtu m
  | .engine e _ => .cd e.cd

/-- The context of a requester. -/
def State.requesterCtx (s : State) : Requester → BitVec 6
  | .feeder p _ => (s.quad (s.lead p)).ctx
  | .drain p _ => (s.quad (s.lead p)).ctx
  | .sequencer d nn => s.cctx (clusterKey d nn)
  | .mover m _ => s.moverCtx m
  | .engine e _ => (s.engine e).ctx

/-- A requester that makes accesses now: it works and holds no parked one. An unnamed feeder of a partition makes none (03 R93);
completion records are written whole as commands retire. -/
def State.requesting (s : State) : Requester → Bool
  | .feeder p loadb =>
    let l := s.lead p
    (partFeeders (s.quadsOf l)).contains p.q.val && (if loadb then (s.ready l 1).isSome else (s.ready l 2).isSome || (s.ready l 3).isSome)
  | .drain p rec' =>
    let l := s.lead p
    (partDrains (s.quadsOf l)).contains p.q.val && !rec' && (s.ready l 4).isSome
  | .sequencer d nn => s.executes (.sycen d nn)
  | .mover m _ => decide ((s.mover m).st = .run) && !s.frozen
  | .engine e acc => decide (acc ≠ .ring) && decide ((s.engine e).st = .run) && decide ((s.engine e).queue ≠ []) && s.engineWorks e

/-- An ETU is powered. -/
def State.etuUp (s : State) : EtuId → Bool
  | .cd d => s.cdUp d
  | .hd => s.powered 2

/-! ## A translation (12 R298 to R302) -/

/-- A `LOADB` or `DRAIN` that makes its accesses has issued: the ready one of an operation begins (05 R143, R145; log entry 39). -/
def State.beginCmd (s : State) (p : PartId) (op : Nat) : State :=
  match s.ready p op with
  | some c => s.setQuad p ((s.quad p).modCmd c.order (fun y => { y with phase := .started }))
  | none => s

/-- What a requester does with a translation that failed (12 R298, R302, R304; 09 R223; 03 R95). -/
def State.translationFails (s : State) (req : Requester) (va : Word) (acc : Access) (t : Trans) : State :=
  let stop : AgentStop := match t with
    | .page c l => .page c l
    | .bus => .bus
    | _ => .segment
  let f : AgentFault := { stop := stop, va := va.toNat, pa := none }
  match req with
  | .feeder p loadb => (s.beginCmd (s.lead p) (if loadb then 1 else 0)).stopPart (s.lead p) acc req f
  | .drain p rec' => (s.beginCmd (s.lead p) (if rec' then 0 else 4)).stopPart (s.lead p) acc req f
  | .mover m desc => s.stopMover m (if desc then mvDescFault (s.mover m) acc f else mvFault acc f)
  | .engine e a =>
    match (s.engine e).queue with
    | c :: _ => s.stopHead e c (.access (decide (a = .desc)) acc f)
    | [] => s
  | .sequencer d nn =>
    let c : CoreId := .sycen d nn
    let trap (cause detail : Nat) : State := s.insteadOf c (fun s1 =>
      s1.trapHere c (s1.core c) cause detail (some { va := va, write := acc == .write, fetch := acc == .fetch }))
    match t with
    | .page cause level =>
      if (s.etu (.cd d)).fbEnable then
        (s.park (.cd d) (s.cctx (clusterKey d nn)) va.toNat acc cause level (some req)).modCore c
          (fun k => { k with wait := some (.parked va (acc == .write) (acc == .fetch)) })
      else trap 0x0C 0
    | .address => trap 0x0A 0
    | .segment detail => trap 0x0B detail
    | _ => trap 0x0D 0

/-- An access of a requester meets the ETU. -/
def State.translation (s : State) (e : EtuId) (ctx : BitVec 6) (va : Word) (acc : Access) (req : Requester) : State :=
  if requesterEtu req ≠ e ∨ s.requesterCtx req ≠ ctx ∨ !s.requesting req ∨ !s.etuUp e then s
  else
    let seq := match req with
      | .sequencer _ _ => true
      | _ => false
    match s.translate e ctx va.toNat acc seq with
    | (.ok _, s1) => s1
    | (t, s1) => s1.translationFails req va acc t

/-- `TRANSLATION` (R298). -/
def execTranslation (e : EtuId) (ctx : BitVec 6) (va : Word) (acc : Access) (req : Requester) (s : State) :
    Host.Outcome State Fault Refusal := next (s.translation e ctx va acc req)

/-! ## Prefetch (12 R301) -/

/-- What a requester has announced of a stream: the kind of its accesses, and the spans from its current one on, as virtual address
and size in the order of access. -/
abbrev Announced := Option (Access × List (Nat × Nat))

/-- The rows of a tensor from one on. -/
def TensorDesc.rowSpans (d : TensorDesc) (r : Nat) : List (Nat × Nat) :=
  (countFrom r (d.rows - r)).map (fun i => (d.rowAddr i, d.rowLen))

/-- The elements of a tensor from one on: the rest of its row, then the rows after it. -/
def TensorDesc.elemSpans (d : TensorDesc) (i : Nat) : List (Nat × Nat) :=
  let (va, n, _) := d.span i (d.dim 0 - i % d.dim 0)
  (va, n) :: d.rowSpans (i / d.dim 0 + 1)

/-- A feeder's streams: 0 the elements of its rows of A or B, 1 their scales (05 R137, R138). -/
def feederStream (f : Nat) (c : Cmd) (stream : Nat) : Announced :=
  let ws := c.words
  let fmt := cFmt ws
  if cOp ws = 1 then
    let rows := (countFrom (32 * f) 32).filter (fun k => decide (c.count ≤ k) && decide (k < fld ws 2 32 7))
    if stream = 0 then some (.read, rows.map (fun k => (fld ws 1 0 64 + k * fld ws 2 0 32, rowBytes fmt (fld ws 2 40 9))))
    else if stream = 1 ∧ isMx fmt then
      some (.read, (rows.filter (fun k => decide (k % 32 = 0))).map (fun k => (fld ws 3 0 64 + k / 32 * fld ws 4 0 32, fld ws 2 40 9)))
    else none
  else
    let rows := countFrom c.count (fld ws 2 32 7 - c.count)
    if stream = 0 then some (.read, rows.map (fun i => (fld ws 1 0 64 + i * fld ws 2 0 32 + f * (32 * fmtWidth fmt / 8), rowBytes fmt 32)))
    else if stream = 1 ∧ isMx fmt then some (.read, rows.map (fun i => (fld ws 3 0 64 + i * fld ws 4 0 32 + f, 1)))
    else none

/-- A drain's streams: 0 its output, 1 the operand of its element operation, 2 the scales that it writes (05 R139). -/
def drainStream (c : Cmd) (stream : Nat) : Announced :=
  let ws := c.words
  let n := dNcols ws
  let rows := countFrom c.count (dMcnt ws - c.count)
  match stream with
  | 0 => some (.write, rows.map (fun i => (fld ws 1 0 64 + i * fld ws 2 0 32, rowBytes (cFmt ws) n)))
  | 1 => if dEop ws = 0 then none else some (.read, rows.map (fun i => (fld ws 4 0 64 + i * fld ws 2 32 32, rowBytes (cAux ws) n)))
  | 2 => if isMx (cFmt ws) then some (.write, rows.map (fun i => (fld ws 5 0 64 + i * (n / 32), n / 32))) else none
  | _ => none

/-- Whether an engine writes the tensor of a descriptor (11 R281 to R287, 15 R366). -/
def engineWrites (k : EngineKind) (op i : Nat) : Bool :=
  match k with
  | .gse => if op = 1 then decide (i = 2) else decide (i = 0)
  | .rand => true
  | .cre => decide (op ≠ 2) && decide (i = 0)
  | _ => decide (1 ≤ i)

/-- An engine's streams: one per descriptor, from the row that its command has come to. The index tensor of the GSE goes element by
element, the source of a transposition slice by slice, the operand of a COLLSEND flit by flit. -/
def engineStream (k : EngineKind) (c : EngCmd) (i : Nat) : Announced :=
  if c.descs.length ≤ i then none
  else
    let d := c.desc i
    let acc : Access := if engineWrites k (cOp c.words) i then .write else .read
    some (acc, match k with
      | .gse => if i = 1 then d.elemSpans c.count else d.rowSpans c.count
      | .tre => if i = 0 then d.rowSpans (c.count / d.dim 0 * d.dim 1) else d.rowSpans c.count
      | .cre => if cOp c.words = 2 then d.rowSpans (224 * c.count / d.rowLen) else d.rowSpans c.count
      | _ => d.rowSpans c.count)

/-- The stream that a requester has announced under a number (12 R301): of a mover 0 the source row, 1 the destination row; of a
tensor form one per descriptor, the destination first. -/
def State.announced (s : State) (req : Requester) (stream : Nat) : Announced :=
  match req with
  | .feeder p loadb =>
    let l := s.lead p
    let f := (partFeeders (s.quadsOf l)).findIdx (· == p.q.val)
    if f = (partFeeders (s.quadsOf l)).length then none
    else match (if loadb then s.ready l 1 else (s.ready l 2).or (s.ready l 3)) with
      | some c => feederStream f c stream
      | none => none
  | .drain p false =>
    let l := s.lead p
    if (partDrains (s.quadsOf l)).contains p.q.val then (s.ready l 4).bind (fun c => drainStream c stream) else none
  | .mover m false =>
    let x := s.mover m
    if x.desc = [] then none
    else if stream = 0 then some (.read, [(dSrc x.desc x.row + x.done.toNat, dLen x.desc - x.done.toNat)])
    else if stream = 1 then some (.write, [(dDst x.desc x.row + x.out, dDstLen x.desc - x.out)])
    else none
  | .engine e .data => match (s.engine e).queue with
    | c :: _ => if c.phase = .started then engineStream e.kind c stream else none
    | [] => none
  | .sequencer d nn => match (s.core (.sycen d nn)).tensor with
    | some run => (run.descs[stream]?).map (fun t => (if stream = 0 then Access.write else .read, t.elemSpans run.index))
    | none => none
  | _ => none

/-- Join tiles to a list, each but once where it follows itself. -/
def joinTile (acc : List Nat) (t : Nat) : List Nat := if acc.head? = some t then acc else t :: acc

/-- The 4 KiB tile that stands four tiles ahead in spans of a stream (12 R301); none: the extent ends before. -/
def fourTilesAhead (spans : List (Nat × Nat)) : Option Nat :=
  let tiles := spans.foldl (fun (acc : List Nat) x =>
    (countFrom (x.1 / 4096) ((x.1 + x.2 - 1) / 4096 + 1 - x.1 / 4096)).foldl joinTile acc) []
  tiles.reverse[4]?

/-- The ETU looks ahead on a stream: it translates the page of the tile four tiles ahead of the requester's current one, within
the extent announced; a page fault opens an `EARLY` record, and nothing is parked (12 R301). -/
def State.prefetchTranslation (s : State) (req : Requester) (stream : Nat) : State :=
  let e := requesterEtu req
  if (s.etu e).pfDis ∨ !s.etuUp e then s
  else match s.announced req stream with
  | none => s
  | some (acc, spans) =>
    match fourTilesAhead spans with
    | none => s
    | some t =>
      let ctx := s.requesterCtx req
      let va := t * 4096 % 2 ^ 64
      let seq := match req with
        | .sequencer _ _ => true
        | _ => false
      match s.translate e ctx va acc seq with
      | (.page cause level, s1) => if (s1.etu e).fbEnable then s1.park e ctx va acc cause level none else s1
      | (_, s1) => s1

/-- `TRANSLATION_PREFETCH` (R301). -/
def execTranslationPrefetch (req : Requester) (stream : Nat) (s : State) : Host.Outcome State Fault Refusal :=
  next (s.prefetchTranslation req stream)

/-- `FAULT_BATCH_TIMER` (R303). -/
def execFaultBatchTimer (e : EtuId) (s : State) : Host.Outcome State Fault Refusal :=
  next (if s.etuUp e then s.deliverBatch e true else s)

/-! ## Completion of a batch (12 R304) -/

/-- Whether a parked sequencer waits for a page of a record. -/
def FaultRec.holds (r : FaultRec) (ctx : BitVec 6) (w : Option Wait) : Option (Word × Bool × Bool) :=
  match w with
  | some (.parked va wr f) => if r.covers ctx va.toNat r.level then some (va, wr, f) else none
  | _ => none

/-- The engine waits no longer for its head's access, or for its ring write. -/
def State.unparkEngine (s : State) (e : EngineId) (ring : Bool) : State :=
  let x := s.engine e
  let y := if ring then { x with ringParked := false } else { x with parked := false }
  s.setEngine e { y with
    st := if y.st ≠ .wait ∨ y.parked ∨ y.ringParked then y.st
      else if y.queue.any (fun c => decide (c.phase = .started ∨ c.phase = .issued)) then .run else .idle }

/-- A requester retries its access. One that waits no longer is dropped without effect. -/
def State.retryRequester (s : State) (r : Option FaultRec) (req : Requester) : State :=
  match req with
  | .feeder p _ =>
    let l := s.lead p
    let s1 := s.sampleDry l
    s1.setQuad l ((s1.quad l).mark req false)
  | .drain p _ =>
    let l := s.lead p
    if (s.quad l).parked req then
      let s1 := s.setQuad l ((s.quad l).mark req false)
      if s.frozen then s1 else s1.flushRecords l
    else s
  | .sequencer d nn =>
    let c : CoreId := .sycen d nn
    let waits := match r with
      | some r => (r.holds (s.cctx (clusterKey d nn)) (s.core c).wait).isSome
      | none => match (s.core c).wait with
        | some (.parked _ _ _) => true
        | _ => false
    if waits then s.modCore c (fun k => { k with wait := none }) else s
  | .mover m _ => if s.frozen then s else s.retryMover m
  | .engine e acc =>
    let x := s.engine e
    if acc = .ring then (if x.ringParked ∧ !s.frozen then (s.unparkEngine e true).flushEngRecs e else s)
    else if x.parked ∧ x.st = .wait then s.unparkEngine e false else s

/-- A requester fails with its record; of completion records the one that was being written is lost (log entry 56). -/
def State.failRequester (s : State) (r : FaultRec) (req : Requester) : State :=
  match req with
  | .feeder p _ =>
    let l := s.lead p
    if (s.quad l).parked req then
      let s1 := s.sampleDry l
      (s1.setQuad l ((s1.quad l).mark req false)).partFails l 7 (some (r.vpage * 4096))
    else s
  | .drain p rec' =>
    let l := s.lead p
    let q := (s.quad l).mark req false
    if (s.quad l).parked req then (s.setQuad l { q with recs := if rec' then q.recs.drop 1 else q.recs }).partFails l 7 (some (r.vpage * 4096)) else s
  | .sequencer d nn =>
    let c : CoreId := .sycen d nn
    match r.holds (s.cctx (clusterKey d nn)) (s.core c).wait with
    | some (va, wr, f) =>
      let addr : TrapAddr := { va := va, write := wr, fetch := f }
      match (s.core c).tensor with
      | some run =>
        if wr ∧ va = run.progress then (s.loseRest c (s.core c) run).trapHere c (s.core c) 0x0C 0 (some addr)
        else s.insteadOf c (fun s1 => s1.trapHere c (s1.core c) 0x0C 0 (some addr))
      | none => s.trapHere c { s.core c with wait := none } 0x0C 0 (some addr)
    | none => s
  | .mover m _ => s.failMover m
  | .engine e acc =>
    let x := s.engine e
    if acc = .ring then
      (if x.ringParked then ((s.setEngine e { x with recs := x.recs.drop 1 }).unparkEngine e true).flushEngRecs e else s)
    else if x.parked ∧ x.st = .wait then s.endHead e 0x0A else s

/-- The `RESULT` that the driver has written into record `i` of a buffer: resolved only if it is 00h. -/
def State.recordResolved (s : State) (e : EtuId) (buf : Bool) (i : Nat) : Bool :=
  decide (s.byteAt ((s.etu e).fbBase.toNat * 65536 + b2n buf * 0x4000 + 64 * i + 12) = 0)

/-- `FBDONE` naming the outstanding batch: a collecting batch that was due is delivered, and the next one collects, before any
requester retries (R304). -/
def State.fbdone (s : State) (e : EtuId) (value : Word) : State :=
  let x := s.etu e
  let buf := !x.collBuf
  match x.outstanding with
  | none => s
  | some recs =>
    if value.getLsbD 0 ≠ buf ∨ bits value.toNat 16 16 ≠ x.outSeq.toNat then s
    else
      let results := (countFrom 0 recs.length).map (s.recordResolved e buf)
      let s1 := (s.setEtu e { x with outstanding := none, fullParked := [] }).deliverIfDue e
      let s2 := (recs.zip results).foldl (fun (s : State) p =>
        (p.1.parked ++ p.1.late).foldl (fun (s : State) q =>
          if p.2 then s.retryRequester (some p.1) q else s.failRequester p.1 q) s) s1
      (x.fullParked.foldl (fun (s : State) q => s.retryRequester none q) s2).deliverIfDue e

/-- `FBDONE` (R304). -/
def execFbdone (e : EtuId) (value : Word) (s : State) : Host.Outcome State Fault Refusal := next (s.fbdone e value)

/-! ## Withdrawal (12 R305, R306) -/

/-- Every requester of a die's ETU. -/
def etuRequesters : EtuId → List Requester
  | .cd d =>
    let cls := countFrom 0 24
    cls.map (fun c => .sequencer d (Fin.ofNat 24 c))
    ++ cls.flatMap (fun c => (countFrom 0 16).flatMap (fun i =>
        let p : PartId := { cd := d, cl := Fin.ofNat 24 c, arr := Fin.ofNat 4 (i / 4), q := Fin.ofNat 4 (i % 4) }
        [.feeder p false, .feeder p true, .drain p false]))
    ++ cls.flatMap (fun c => [.mover (.cluster d (Fin.ofNat 24 c) 0) false, .mover (.cluster d (Fin.ofNat 24 c) 1) false])
    ++ (countFrom 0 16).map (fun m => .mover (.bulk d (Fin.ofNat 16 m)) false)
    ++ allEngines.map (fun k => .engine ⟨d, k⟩ .data)
  | .hd => (countFrom 0 16).map (fun m => .mover (.host (Fin.ofNat 16 m)) false)

/-- A held translation overlaps the range of a withdrawal. -/
def TlbEntry.within (t : TlbEntry) (ctx : BitVec 6) (all : Bool) (lo hi : Nat) : Bool :=
  let b := levelBits t.level
  decide (t.ctx = ctx) && (all || (decide (t.vpage * 2 ^ b ≤ hi) && decide (lo < (t.vpage + 1) * 2 ^ b)))

/-- The last acknowledgement is in. -/
def State.withdrawDone (s : State) (e : EtuId) : State :=
  let x := s.etu e
  let s1 := s.setEtu e { x with wdBusy := false, wdDone := true }
  if x.wdIrq then
    s1.hicSource (match e with
      | .cd d => 0xD8 + d.val
      | .hd => 0xDC)
  else s1

/-- A sequencer awaits the answer of an outbound PCIe access. -/
def Core.awaitsPcie (k : Core) : Bool :=
  match k.wait with
  | some (.pcie _ _) => true
  | _ => false

/-- Accesses of a sequencer are in flight beside its instructions: stores in its buffer, an outbound PCIe access. -/
def State.storesWait (s : State) : Requester → Bool
  | .sequencer d nn => decide ((s.core (.sycen d nn)).sbuf ≠ []) || (s.core (.sycen d nn)).awaitsPcie
  | _ => false

/-- The stores in a sequencer's buffer have been translated before a withdrawal that begins now. -/
def State.ageStores (s : State) : Requester → State
  | .sequencer d nn => s.modCore (.sycen d nn) (fun k => { k with sbuf := k.sbuf.map (fun e => { e with old := true }) })
  | _ => s

/-- The ownership that a store waits for is held at the module directory by a copy-before-write: the store has reached the ordering
point of its address, and counts as complete (R306). -/
def State.heldForCopy (s : State) (e : StoreEntry) : Bool :=
  e.pieces.any (fun p => s.uncopiedLine (lineOf p.1) && (s.dirEntry 4 (lineOf p.1)).waiting.any DirReq.owns)

/-- A requester has an access in flight to an address translated before the withdrawal: a store in its buffer, an outbound PCIe
access. The other requesters translate each access as they make it. -/
def State.inFlightOld (s : State) : Requester → Bool
  | .sequencer d nn =>
    let k := s.core (.sycen d nn)
    k.sbuf.any (fun e => e.old && !s.heldForCopy e) || k.awaitsPcie
  | _ => false

/-- A write of `WITHDRAW`: the invalidation goes to every requester of the context that may hold a translation, or whose stores
still wait with one. -/
def State.withdraw (s : State) (e : EtuId) (value : Word) : State :=
  let x := s.etu e
  let all := value.getLsbD 6
  let lo := x.wdBase.toNat
  let hi := x.wdLimit.toNat
  if x.wdBusy ∨ hi < lo ∨ (!all ∧ (lo % 4096 ≠ 0 ∨ (hi + 1) % 4096 ≠ 0)) then s.setEtu e { x with wdIgnored := true }
  else
    let ctx := value.extractLsb' 0 6
    let waits := (etuRequesters e).filter (fun q => decide (s.requesterCtx q = ctx) && (s.requesting q || s.storesWait q))
    let s0 := waits.foldl State.ageStores s
    let s1 := s0.setEtu e { x with
      tlb := x.tlb.filter (fun t => !t.within ctx all lo hi), wdBusy := true, wdIrq := value.getLsbD 7, wdCtx := ctx,
      wdStuck := false, wdAwaited := waits }
    if waits = [] then s1.withdrawDone e else s1

/-- `WITHDRAW` (R305). -/
def execWithdraw (e : EtuId) (value : Word) (s : State) : Host.Outcome State Fault Refusal := next (s.withdraw e value)

/-- A requester acknowledges, once its accesses in flight have completed to the old physical addresses; with the last
acknowledgement, `DONE` is set. -/
def State.withdrawAck (s : State) (e : EtuId) (req : Requester) : State :=
  let x := s.etu e
  if !x.wdBusy ∨ x.wdStuck ∨ req ∉ x.wdAwaited ∨ s.inFlightOld req then s
  else
    let rest := without req x.wdAwaited
    let s1 := s.setEtu e { x with wdAwaited := rest }
    if rest = [] then s1.withdrawDone e else s1

/-- `WITHDRAW_ACK` (R305). -/
def execWithdrawAck (e : EtuId) (req : Requester) (s : State) : Host.Outcome State Fault Refusal := next (s.withdrawAck e req)

/-- An acknowledgement is late: `TIMEOUT`, a CONTAINED record at die scope, `BUSY` for good. -/
def State.withdrawTimeout (s : State) (e : EtuId) : State :=
  let x := s.etu e
  if !x.wdBusy ∨ x.wdStuck ∨ x.wdAwaited = [] then s
  else
    let die := match e with
      | .cd d => d.val + 1
      | .hd => 0
    (s.setEtu e { x with wdTimeout := true, wdStuck := true }).reportStop
      { mkRec die 0x5000 0x0A 2 3 x.wdCtx.toNat with ctx := some x.wdCtx }

/-- `WITHDRAW_TIMEOUT` (R305). -/
def execWithdrawTimeout (e : EtuId) (s : State) : Host.Outcome State Fault Refusal := next (s.withdrawTimeout e)

/-! ## Rollback (12 R307) -/

/-- An ETU at a rollback: no translation and no batch; a withdrawal in progress completes, with its message where it asked for
one. -/
def State.rollbackEtu (s : State) (e : EtuId) : State :=
  let s1 := s.setEtu e { s.etu e with
    tlb := [], collecting := [], outstanding := none, fullParked := [], byTime := false, wdStuck := false, wdAwaited := [] }
  if (s.etu e).wdBusy then s1.withdrawDone e else s1

/-- The ETUs and channels at a rollback; every channel idle at index 0. -/
def State.rollbackEtus (s : State) : State :=
  let s := [EtuId.cd 0, .cd 1, .cd 2, .cd 3, .hd].foldl State.rollbackEtu s
  { s with
    movers := mmap Mover.reset (fun _ m => { Mover.reset with size := m.size, base := m.base }) s.movers }

end Sys2Proof.Machine
end

