-- ==== Sys2Proof/Machine/Held.lean ====
section
/-! DEFINITION. How the accesses that wait at a cache or at a directory go on: after the cut, when a hold window ends, when a miss
register becomes free (13 R312, R317, R320; 16 R387; 06 R177). -/

namespace Sys2Proof.Machine

/-- What waited at the module directory goes on: the writes that nothing holds any more, the interrupts behind them, the requests, the
held requesters. -/
def State.releaseHeld (s : State) : State :=
  let x := s.snap
  let (stay, go) := x.heldWrites.partition (fun w => s.writeHeld w.2.2.1)
  let free := !stay.any (fun w => decide (w.1 = .hd) && decide (w.2.1 = 2))
  let s1 := s.modSnap (fun x => { x with heldReq := [], heldWrites := stay, heldMsi := if free then [] else x.heldMsi })
  let s2 := go.foldl (fun (s : State) w => s.uncachedLine w.1 w.2.1 w.2.2.1 w.2.2.2.1 w.2.2.2.2) s1
  let s3 := if free then x.heldMsi.foldl (fun (s : State) n => s.hicSource n) s2 else s2
  let s4 := s3.waitingLines.foldl (fun (s : State) l => s.resumeLine l) s3
  let s5 := x.heldReq.foldl (fun (s : State) q => s.retryRequester none q) s4
  [EtuId.cd 0, .cd 1, .cd 2, .cd 3, .hd].foldl (fun (s : State) e => s.deliverIfDue e) s5

/-- Accesses that do not wait for the cut go on (06 R177, 13 R312). -/
def State.letGo (s : State) : State :=
  if s.snap.phase = .hold ∨ (s.snap.heldWrites = [] ∧ s.snap.heldReq = []) then s else s.releaseHeld

end Sys2Proof.Machine
end

