-- ==== Sys2Proof/Machine/Microcode.lean ====
section
/-! DEFINITION. Customer instructions: the decode table of section 08h and the microcode of section 09h (07 R194 to R198). -/

namespace Sys2Proof.Machine

/-- A decode-table entry (07 R194, 02 R51). -/
def State.decodeEntry (s : State) (i : Nat) : Nat := s.secNat 8 (8 * i) 8

/-- A microword (07 R196, 02 R51); words beyond the count read 0. -/
def State.microword (s : State) (n : Nat) : Nat := if n < s.secNat 9 0 8 % 2 ^ 13 then s.secNat 9 (8 + 16 * n) 16 else 0

/-- The bit of a register's class in a `CLS` field (07 R194). -/
def clsBit : AnyReg → Nat
  | .a _ => 0
  | .d _ => 1
  | .v _ => 2
  | .p _ => 3

/-- The contents of an operand register. -/
def Core.getAny (k : Core) : AnyReg → Nat
  | .a n => (k.getA n).toNat
  | .d n => (k.getD n).toNat
  | .v n => (k.getV n).toNat
  | .p n => (k.getP n).toNat

/-- Write an operand register. -/
def Core.setAny (k : Core) (r : AnyReg) (x : Nat) : Core :=
  match r with
  | .a n => k.setA n (BitVec.ofNat 64 x)
  | .d n => k.setD n (BitVec.ofNat 64 x)
  | .v n => k.setV n (BitVec.ofNat 16384 x)
  | .p n => k.setP n (BitVec.ofNat 2048 x)

/-- What a sequence of microsteps holds: the core as the instruction finds it, the core it will leave, the temporaries
written so far, and the state's free-value counter (07 R198). -/
structure Micro where
  before : Core
  after : Core
  temps : List (Nat × Nat)
  fresh : Nat

/-- The width in bits of a temporary: scalar, vector or predicate (07 R196). -/
def tempWidth (sel : Nat) : Nat := if sel < 0x20 then 64 else if sel < 0x24 then 16384 else 2048

/-- A temporary that no microstep has written: a free value of its width (07 R198, log entry 5). -/
def freeTemp (fresh sel : Nat) : Nat := leNat ((countFrom 0 (tempWidth sel / 8)).map (fun i => Config.freeByte (fresh + sel) i))

/-- Read a selector (07 R196): operand registers read as before the instruction (R198). -/
def Micro.read (m : Micro) (p : Pfx) (ops : List AnyReg) (imm : Word) (word sel : Nat) : Nat :=
  if sel < 4 then (match ops[sel]? with
    | some r => m.before.getAny r
    | none => 0)
  else if sel = 4 then imm.toNat
  else if sel = 5 then bits word 64 64
  else if sel = 6 then typeCode p
  else if sel = 7 then (match p.pred with
    | some n => (m.before.getP n).toNat
    | none => 0)
  else match m.temps.find? (fun x => x.1 = sel) with
    | some x => x.2
    | none => freeTemp m.fresh sel

/-- Write a selector: an operand register or a temporary, which keeps the low bits of its width; FFh names none (07 R196). -/
def Micro.write (m : Micro) (ops : List AnyReg) (sel x : Nat) : Micro :=
  if sel < 4 then (match ops[sel]? with
    | some r => { m with after := m.after.setAny r x }
    | none => m)
  else if sel = 0xFF then m
  else { m with temps := (sel, x % 2 ^ tempWidth sel) :: m.temps }

/-- A condition on two 64-bit values (07 R196). -/
def microCond (cond a b : Nat) : Bool :=
  match cond with
  | 0 => true
  | 1 => decide (a = b)
  | 2 => decide (a ≠ b)
  | 3 => decide (toSigned 64 a < toSigned 64 b)
  | 4 => decide (toSigned 64 b ≤ toSigned 64 a)
  | 5 => decide (a < b)
  | _ => decide (b ≤ a)

/-- A condition on two elements of a format: a NaN makes it false (06 R452); the unsigned ones compare encodings. -/
def vecCond (cond code a b : Nat) : Bool :=
  match cond with
  | 0 => true
  | 1 => elemCmp code (fun x y => decide (x = y)) FVal.eqB a b
  | 2 => elemCmp code (fun x y => decide (x ≠ y)) (fun x y => x.ltB y || y.ltB x) a b
  | 3 => elemCmp code (fun x y => decide (x < y)) FVal.ltB a b
  | 4 => elemCmp code (fun x y => decide (y ≤ x)) (fun x y => y.leB x) a b
  | 5 => decide (a < b)
  | _ => decide (b ≤ a)

/-- A scalar integer micro-operation (07 R197). -/
def microInt (uop a b : Nat) : Nat :=
  match uop with
  | 0x01 => a
  | 0x02 => (a + b) % 2 ^ 64
  | 0x03 => (a + 2 ^ 64 - b) % 2 ^ 64
  | 0x04 => a * b % 2 ^ 64
  | 0x05 => a &&& b
  | 0x06 => a ||| b
  | 0x07 => a ^^^ b
  | 0x08 => shiftLeft 64 a b
  | 0x09 => shiftRight 64 a b
  | 0x0A => shiftArith 64 a b
  | 0x0B => if toSigned 64 a ≤ toSigned 64 b then a else b
  | 0x0C => if toSigned 64 a ≤ toSigned 64 b then b else a
  | 0x0D => min a b
  | _ => max a b

/-- A floating-point operation of a format on encodings (07 R197). -/
def microFloat (uop code : Nat) (r : Rnd) (a b c : Nat) : Nat × Flg :=
  match uop with
  | 0x18 => arithAdd code r [a, b]
  | 0x19 => arithMul code r [a, b]
  | 0x1A => arithFma false code r [a, b, c]
  | 0x1C => arithMin code r [a, b]
  | 0x1D => arithMax code r [a, b]
  | 0x1E => arithDiv code r [a, b]
  | _ => arithSqrt code r [a]

/-- An element operation of a vector micro-operation (07 R197). -/
def microElem (uop code : Nat) (r : Rnd) (a b c : Nat) : Nat × Flg :=
  match uop with
  | 0x20 => (a, .none)
  | 0x21 => arithAdd code r [a, b]
  | 0x22 => arithMul code r [a, b]
  | 0x23 => (a &&& b, .none)
  | 0x24 => (a ||| b, .none)
  | 0x25 => (a ^^^ b, .none)
  | 0x26 => (shiftLeft (fmtWidth code) a b, .none)
  | 0x27 => (shiftRight (fmtWidth code) a b, .none)
  | 0x28 => arithMin code r [a, b]
  | 0x29 => arithMax code r [a, b]
  | 0x2A => arithAdd code r [a, b]
  | 0x2B => arithMul code r [a, b]
  | _ => arithFma false code r [a, b, c]

/-- Map the elements of vector operands. -/
def microMap (w n a b c : Nat) (f : Nat → Nat → Nat → Nat × Flg) : Nat × Flg :=
  let (es, g) := mapElems n w 0 (fun _ => true) (fun j => f (elemAt w a j) (elemAt w b j) (elemAt w c j))
  (packElems w es, g)

/-- How a microstep goes on: the next word, or an exception with cause and detail. -/
inductive MicroStep where
  | go (m : Micro) (branch : Bool)
  | trap (cause detail : Nat)

/-- One microstep (07 R197). -/
def State.microStep (s : State) (c : CoreId) (p : Pfx) (ops : List AnyReg) (imm : Word) (word : Nat) (m : Micro) : MicroStep :=
  let uop := bits word 0 6
  let dst := bits word 8 8
  let full (sel : Nat) : Nat := m.read p ops imm word sel
  let a := full (bits word 16 8)
  let b := full (bits word 24 8)
  let x := full (bits word 32 8)
  let sa := a % 2 ^ 64
  let sb := b % 2 ^ 64
  let code := bits word 40 8
  let cond := bits word 48 4
  let r := m.before.rnd
  let put (m : Micro) (y : Nat × Flg) : MicroStep := .go ({ m with after := m.after.flag y.2 }.write ops dst y.1) false
  let w := fmtWidth code
  let n := lanes c w
  if (1 ≤ uop ∧ uop ≤ 0x0E) then put m (microInt uop sa sb, .none)
  else if uop = 0x0F then put m (b2n (microCond cond sa sb), .none)
  else if uop = 0x10 then put m (if x % 2 ^ 64 ≠ 0 then sa else sb, .none)
  else if uop = 0x1B then
    if fcvtCodes.contains sb then put m (fcvtAny sb code r (sa % 2 ^ fmtWidth sb)) else .trap 0x01 0
  else if 0x18 ≤ uop ∧ uop ≤ 0x1F then put m (microFloat uop code r (a % 2 ^ w) (b % 2 ^ w) (x % 2 ^ w))
  else if uop = 0x2D then
    let ws := fmtWidth sb
    if !vcvtCodes.contains sb ∨ (w < 8 ∧ ws < 8) then .trap 0x01 0
    else
      let (es, g) := mapElems (vlen c / max w ws) w 0 (fun _ => true) (fun j => convertAny sb code r (elemAt ws a j))
      put m (packElems w es, g)
  else if 0x20 ≤ uop ∧ uop ≤ 0x2C then put m (microMap w n a b x (microElem uop code r))
  else if uop = 0x2E then
    put m (packElems w ((countFrom 0 n).map (fun j => elemAt w (if bit x (w * j / 8) then a else b) j)), .none)
  else if uop = 0x2F then
    put m ((predOf (vlen c / 8) (fun i => vecCond cond code (elemAt w a (i / (w / 8))) (elemAt w b (i / (w / 8))))).toNat, .none)
  else if uop = 0x30 then
    match ctlRefusal m.before (bits word 64 12) none with
    | some (cause, detail) => .trap cause detail
    | none => put m ((s.readCtl c m.before (bits word 64 12)).toNat, .none)
  else if uop = 0x31 then
    match ctlRefusal m.before (bits word 64 12) (some (BitVec.ofNat 64 sa)) with
    | some (cause, detail) => .trap cause detail
    | none => .go { m with after := m.after.writeCtl (bits word 64 12) (BitVec.ofNat 64 sa) } false
  else if uop = 0x38 then .go m (microCond cond sa sb)
  else if uop = 0x39 then (if bits word 64 8 = 0 then .trap 0x01 0 else .trap 0x02 0)
  else .trap 0x01 0

/-- Run microwords from an address: at most `fuel` steps (07 R198, R199). -/
def State.runMicro (s : State) (c : CoreId) (p : Pfx) (ops : List AnyReg) (imm : Word) : Nat → Nat → Micro → Except (Nat × Nat) Core
  | 0, _, _ => .error (0x01, 0)
  | fuel + 1, n, m =>
    let word := s.microword n
    match s.microStep c p ops imm word m with
    | .trap cause detail => .error (cause, detail)
    | .go m1 branch =>
      if bit word 6 then .ok m1.after
      else s.runMicro c p ops imm fuel (if branch then bits word 52 12 else n + 1) m1

/-- The codes that TYPE may carry before a customer instruction whose entry accepts it: the format codes of R12. -/
def allFormats : List Nat :=
  [0x00, 0x01, 0x02, 0x03, 0x04, 0x05, 0x06, 0x08, 0x09, 0x0A, 0x0B, 0x0C, 0x0D, 0x0E, 0x0F, 0x10, 0x18, 0x19, 0x1A, 0x1B,
   0x20, 0x21, 0x22, 0x23, 0x24]

/-- The shape of a customer instruction (07 R194, R195). -/
def customerShape (e : Nat) (ops : List AnyReg) : Shape :=
  { bytes := 2 + bits e 16 3 + bits e 36 2, imm := if bit e 38 then bits e 36 2 else 0, pred := bit e 39,
    types := if bit e 40 then allFormats else [], sycenOnly := true, unpaired := true
    d := ops.filterMap (fun o => match o with
      | .d n => some n
      | _ => none) }

/-- Whether the operands of a customer instruction have the number and the classes of its entry (07 R195). -/
def operandsFit (e : Nat) (ops : List AnyReg) : Bool :=
  decide (ops.length = bits e 16 3) && (countFrom 0 ops.length).all (fun i =>
    match ops[i]? with
    | some o => bit e (20 + 4 * i + clsBit o)
    | none => false)

/-- `CUSTOMER_INSTRUCTION` (R198): escape FCh, an entry byte, operands and an immediate. -/
def execCustomerInstruction (c : CoreId) (p : Pfx) (entry : Byte) (ops : List AnyReg) (i : Word) (s : State) :
    Host.Outcome State Fault Refusal :=
  let e := s.decodeEntry (entry.toNat % 64)
  let valid : Bool := decide (entry.toNat < 64) && bit e 12 && operandsFit e ops
  let sh : Shape := if valid then customerShape e ops else { bytes := 2, sycenOnly := true }
  next (s.runInstr c p sh (fun s k =>
    if !valid then .trap s 0x01 0 none
    else if bits e 42 2 < k.status.pl.num then .trap s 0x02 0 none
    else
      let (s1, k1) := s.sampleCycles k
      let imm := if bits e 36 2 = 0 then 0 else immSigned p (bits e 36 2) i
      match s1.runMicro c p ops imm 256 (bits e 0 12) { before := k1, after := k1, temps := [], fresh := s1.fresh } with
      | .ok k2 => .done s1.bump k2 .seq
      | .error (cause, detail) => .trap s1 cause detail none))

end Sys2Proof.Machine
end

