-- ==== Sys2Proof/Machine/ImageCheck.lean ====
section
/-! DEFINITION. The validation of a structure image: framing, signatures, sections field by field, cross-section conditions
(02 R37 to R56; 07 R199; 16 R385). -/

namespace Sys2Proof.Machine

/-- A rejection: reason code, section type, byte offset in the image (02 R56). -/
structure Reject where
  code : Nat
  type : Nat
  offset : Nat
deriving DecidableEq, Repr

/-- A check: whether it fails, its reason code, and the offset of its field: the byte that holds the field's lowest bit. -/
abbrev Check := Bool × Nat × Nat

/-- The first check that fails. -/
def firstBad (type base : Nat) (cs : List Check) : Option Reject :=
  (cs.find? (·.1)).map (fun c => { code := c.2.1, type := type, offset := base + c.2.2 })

/-- A reserved field must be 0 (02 R38): bits `lo` and up, `len` of them, of the `n` bytes at an offset. -/
def resv (b : List Byte) (off n lo len : Nat) : Check := (decide (bits (rd b off n) lo len ≠ 0), 0x09, off + lo / 8)

/-- A value out of range or alignment: the field whose lowest bit is bit `lo` of the bytes at an offset. -/
def range' (ok : Bool) (off : Nat) (lo : Nat := 0) : Check := (!ok, 0x0A, off + lo / 8)

/-- The trailer's length (02 R40). -/
def trailerLen : Nat := 3392

/-! ## Sections (02 R37 to R40) -/

/-- A section: its type, the offset of its body, and the body. -/
structure Section where
  type : Nat
  base : Nat
  body : List Byte
deriving DecidableEq, Repr

/-- Whether a body length is one that a type may have: some fixed, some by their counts. -/
def bodyLenOk (type : Nat) (body : List Byte) : Bool :=
  let n := body.length
  match type with
  | 0x01 => decide (n = 3072)
  | 0x02 => decide (n = 1840)
  | 0x03 => decide (104 ≤ n) && decide (n = 104 + 8 * (rd body 96 8 % 512))
  | 0x04 => decide (n = 344)
  | 0x05 => decide (n = 16)
  | 0x06 => decide (n = 88)
  | 0x07 => decide (n = 8)
  | 0x08 => decide (n = 512)
  | 0x09 => decide (8 ≤ n) && decide (n = 8 + 16 * (rd body 0 8 % 8192))
  | 0x0A => decide (16 ≤ n) && decide (n = 16 + 16 * bits (rd body 8 8) 32 7)
  | 0x0B => decide (n = 8)
  | 0x0C => decide (8 ≤ n) && decide (n = 8 + 208 * (rd body 0 8 % 128))
  | _ => false

/-- Whether a type is of the reset class (02 R40). -/
def resetClass (type : Nat) : Bool := decide (type = 5) || decide (type = 7)

/-- Cut the bytes between header and trailer into sections: of each header `TYPE`, `SVER`, `CLASS`, `BODYLEN` and the reserved bits
are checked in this order (log entry 55). -/
def parseSections (img : List Byte) (stop : Nat) : Nat → Nat → Nat → Except Reject (List Section)
  | 0, off, _ => .error { code := 7, type := 0, offset := off }
  | fuel + 1, off, prev =>
    if off = stop then .ok []
    else if stop < off + 8 then .error { code := 7, type := 0, offset := off }
    else
      let h := rd img off 8
      let type := bits h 0 8
      let len := bits h 32 32
      let body := (img.drop (off + 8)).take len
      let headerChecks : List Check :=
        [(decide (type ≤ prev ∨ 12 < type), 7, 0), (decide (bits h 8 8 ≠ 1), 7, 1), (bit h 16 != resetClass type, 7, 2),
         (decide (stop < off + 8 + len) || decide (len % 8 ≠ 0) || !bodyLenOk type body, 7, 4), (decide (bits h 17 15 ≠ 0), 9, 2)]
      match firstBad type off headerChecks with
      | some r => .error r
      | none => (parseSections img stop fuel (off + 8 + len) type).map (fun l => { type := type, base := off + 8, body := body } :: l)

/-- A section of a type; empty where it is absent. -/
def sectionOf (ss : List Section) (type : Nat) : Section :=
  (ss.find? (fun x => decide (x.type = type))).getD { type := type, base := 0, body := [] }

/-- Whether a section is present. -/
def present (ss : List Section) (type : Nat) : Bool := ss.any (fun x => decide (x.type = type))

/-! ## The fields of each section (02 R43 to R54) -/

/-- A context byte: unbound is exactly 80h (02 R43). -/
def ctxByteChecks (b : List Byte) (off : Nat) : List Check :=
  let x := rd b off 1
  [(bit x 6 || (bit x 7 && decide (x ≠ 0x80)), 0x09, off)]

/-- Section 01h. -/
def checks1 (b : List Byte) : List Check :=
  (countFrom 0 384).flatMap (fun i =>
    let o := 8 * i
    let lay := rd b o 1 % 16
    let q (j : Nat) : Nat := rd b (o + 2 + j) 1
    [range' (decide (lay ≤ 8)) o, resv b o 1 4 4, resv b (o + 1) 1 0 8] ++ (countFrom 0 4).flatMap (fun j => ctxByteChecks b (o + 2 + j))
    ++ (countFrom 0 4).map (fun j => range' (decide (lay ≠ 8 ∨ q j = 0x80) && decide (q j = q (leadQuad lay j))) (o + 2 + j))
    ++ [resv b (o + 6) 2 0 16])

/-- Section 02h. -/
def checks2 (b : List Byte) : List Check :=
  (countFrom 0 96).flatMap (fun i =>
    let o := 16 * i
    let f := rd b (o + 1) 1
    ctxByteChecks b o ++ [resv b (o + 1) 1 2 6, range' (decide (rd b o 1 < 0x80) || !bit f 0) (o + 1), resv b (o + 2) 6 0 48,
      range' (canonical (rd b (o + 8) 8) && decide (rd b (o + 8) 8 % 4 = 0)) (o + 8)])
  ++ (countFrom 0 80).flatMap (fun i => ctxByteChecks b (1760 + i))

/-- Section 03h. -/
def checks3 (b : List Byte) : List Check :=
  let role (p : Nat) : Nat := rd b (8 * p) 8 % 16
  (countFrom 0 12).flatMap (fun p =>
    let w := rd b (8 * p) 8
    [range' (decide (role p ≤ 3)) (8 * p), range' (decide (bits w 4 4 ≤ 11)) (8 * p) 4, resv b (8 * p) 8 28 36,
     range' (decide (role p ≠ 0 ∨ bits w 4 4 = 0)) (8 * p) 4, range' (decide (role p ≠ 0 ∨ bits w 8 20 = 0)) (8 * p) 8,
     range' (decide (role p ≠ 3 ∨ bits w 4 4 = p)) (8 * p) 4])
  ++ [range' (decide (rd b 96 8 % 512 ≤ 256)) 96, resv b 96 8 9 55]
  ++ (countFrom 0 (rd b 96 8 % 512)).flatMap (fun i =>
    let o := 104 + 8 * i
    let w := rd b o 8
    let ports := bits w 32 12
    [range' (decide (bits w 20 5 ≤ 20)) o 20, range' (decide (bits w 0 20 % 2 ^ (20 - bits w 20 5) = 0)) o, resv b o 8 25 7, resv b o 8 44 20,
     range' (decide (ports ≠ 0) && (countFrom 0 12).all (fun p => !bit ports p || decide (role p = 1 ∨ role p = 2))) o 32,
     range' ((countFrom 0 i).all (fun j => decide (rd b (104 + 8 * j) 8 % 2 ^ 25 ≠ w % 2 ^ 25))) o])

/-- Section 04h (R46). A top Spool with a `LEVEL` other than 0, and a partner without a `BRIDLEFEED`, are out of range: the
table says `0 only for the top Spool` and `0000h when there is no partner`, and not that the converses must hold (log entry
55). -/
def checks4 (b : List Byte) : List Check :=
  let w := rd b 0 8
  let f := rd b 8 8
  let role := bits w 20 2
  let ups := ((countFrom 0 8).filter (fun p => decide (bits (rd b (16 + 8 * p) 8) 20 2 = 1))).length
  let m := rd b 80 8
  let n := bits m 32 7
  [range' (decide (bits w 0 20 ≠ 0xFFFFF)) 0, range' (decide (role ≠ 3)) 0 20, resv b 0 8 23 1,
   range' (decide (bits w 24 4 = 0) == decide (role = 2)) 0 24, resv b 0 8 28 36, range' (decide (bits f 0 16 ≠ 0)) 8,
   range' (decide (bits f 32 20 ≠ 0xFFFFF) == decide (bits f 16 16 ≠ 0)) 8 16, range' (decide (bits f 32 20 ≠ bits w 0 20)) 8 32,
   (decide (bits f 32 20 ≠ 0xFFFFF) && decide (bits f 16 16 = bits f 0 16), 0x0C, 10), resv b 8 8 52 12]
  ++ (countFrom 0 8).flatMap (fun p =>
    [range' (decide (bits (rd b (16 + 8 * p) 8) 20 2 ≠ 3)) (16 + 8 * p) 20, resv b (16 + 8 * p) 8 22 2, resv b (16 + 8 * p) 8 27 37])
  ++ [range' (decide (ups = if role = 2 then 0 else 1)) 16 20, range' (decide (role ≠ 2 ∨ bits m 0 20 = bits w 0 20)) 80, resv b 80 8 20 12,
      range' (decide (n ≤ 64) && (decide (role ≠ 0) || decide (n = 0)) && (decide (role ≠ 1) || decide (1 ≤ n))) 80 32, resv b 80 8 39 25]
  ++ (countFrom 0 64).flatMap (fun i => [resv b (88 + 4 * i) 4 20 12, range' (decide (i < n) || decide (rd b (88 + 4 * i) 4 = 0)) (88 + 4 * i)])

/-- Section 05h. -/
def checks5 (b : List Byte) : List Check :=
  [resv b 0 8 1 63, range' (decide (64 ≤ rd b 8 2 ∧ rd b 8 2 ≤ 1024)) 8, resv b 8 8 16 48]

/-- Section 06h. -/
def checks6 (b : List Byte) : List Check :=
  (countFrom 0 4).flatMap (fun d => (countFrom 0 5).map (fun i => range' (decide (rd b (16 * d + 2 * i) 2 ≠ 0)) (16 * d + 2 * i))
    ++ [resv b (16 * d + 10) 6 0 48])
  ++ (countFrom 0 5).map (fun i => range' (decide (rd b (64 + 4 * i) 4 ≠ 0)) (64 + 4 * i)) ++ [resv b 84 4 0 32]

/-- Section 07h. -/
def checks7 (b : List Byte) : List Check :=
  let w := rd b 0 8
  let mhz := bits w 16 16
  (countFrom 0 4).map (fun d => range' (decide (bits w (2 * d) 2 ≠ 3)) 0)
  ++ [resv b 0 8 8 8, range' (decide (800 ≤ mhz ∧ mhz ≤ 3200 ∧ mhz % 100 = 0)) 2, resv b 0 8 32 32]

/-- Two ranges of bytes have a byte in common. -/
def meet (a n b m : Nat) : Bool := decide (a < b + m) && decide (b < a + n)

/-- Section 0Ah. -/
def checksA (b : List Byte) : List Check :=
  let w := rd b 0 8
  let x := rd b 8 8
  let ms := bits w 0 32
  let min := bits x 0 16
  let base (j : Nat) : Nat := rd b (16 + 16 * j) 8
  let size (j : Nat) : Nat := rd b (24 + 16 * j) 8
  [range' (decide (1000 ≤ ms ∧ ms ≤ 600000)) 0, range' (decide (8 ≤ bits w 32 16 ∧ bits w 32 16 ≤ 200)) 0 32, resv b 0 8 48 16,
   range' (decide (min = 0 ∨ (5 ≤ min ∧ min ≤ 1440))) 8,
   range' (decide (((countFrom 0 12).filter (fun p => bit (bits x 16 12) p)).length ≤ 4)) 8 16, resv b 8 8 28 4,
   range' (decide (bits x 32 7 ≤ 64)) 8 32, resv b 8 8 39 25]
  ++ (countFrom 0 (bits x 32 7)).flatMap (fun j =>
    [range' (decide (base j % 65536 = 0)) (16 + 16 * j), range' (decide (size j % 65536 = 0)) (24 + 16 * j),
     range' ((countFrom 0 j).all (fun i => !meet (base i) (size i) (base j) (size j))) (16 + 16 * j)])

/-- Section 0Bh. -/
def checksB (b : List Byte) : List Check :=
  let w := rd b 0 8
  [range' (decide (10 ≤ bits w 0 16 ∧ bits w 0 16 ≤ 10000)) 0, range' (decide (2 ≤ bits w 16 4 ∧ bits w 16 4 ≤ 8)) 2, resv b 0 8 20 4,
   range' (decide (80 ≤ bits w 24 8 ∧ bits w 24 8 ≤ 100)) 3, range' (decide (bits w 24 8 + 2 ≤ bits w 32 8 ∧ bits w 32 8 ≤ 105)) 4,
   range' (decide (1 ≤ bits w 40 4 ∧ bits w 40 4 ≤ 10)) 5, resv b 0 8 44 20]

/-- Section 0Ch. -/
def checksC (b : List Byte) : List Check :=
  let n := rd b 0 8 % 128
  [range' (decide (1 ≤ n ∧ n ≤ 64)) 0, resv b 0 8 7 57]
  ++ (countFrom 0 n).flatMap (fun i =>
    let o := 8 + 208 * i
    let segs := rd b (o + 1) 1
    let base (j : Nat) : Nat := rd b (o + 16 + 24 * j) 8
    let limit (j : Nat) : Nat := rd b (o + 24 + 24 * j) 8
    [resv b o 1 6 2, range' ((countFrom 0 i).all (fun j => decide (rd b (8 + 208 * j) 1 ≠ rd b o 1))) o, range' (decide (1 ≤ segs ∧ segs ≤ 8)) (o + 1),
     resv b (o + 2) 6 0 48, range' (decide (rd b (o + 8) 8 % 4096 = 0)) (o + 8)]
    ++ (countFrom 0 8).flatMap (fun j =>
      if segs ≤ j then [resv b (o + 16 + 24 * j) 24 0 192]
      else
        [range' (canonical (base j) && decide (base j % 4096 = 0)) (o + 16 + 24 * j),
         range' (canonical ((limit j + 1) % 2 ^ 64) && decide ((limit j + 1) % 4096 = 0) && decide (base j ≤ limit j)) (o + 24 + 24 * j),
         range' ((countFrom 0 j).all (fun h => decide (limit h < base j) || decide (limit j < base h))) (o + 16 + 24 * j),
         resv b (o + 32 + 24 * j) 8 3 61]))

/-! ## The decode table and the microcode (07 R194 to R199) -/

/-- The greatest cost of a micro-operation by code and format (07 R197). -/
def microCost (uop code : Nat) : Nat :=
  let pick (a b c : Nat) : Nat := if code = 0x10 then c else if code = 0x0F then b else a
  if uop = 0x18 ∨ uop = 0x19 ∨ uop = 0x1A then 3
  else if uop = 0x1E then pick 8 14 30
  else if uop = 0x1F then pick 9 16 28
  else if 0x20 ≤ uop ∧ uop ≤ 0x2F then 16
  else 1

/-- A micro-operation that is defined (07 R197). -/
def microDefined (uop : Nat) : Bool :=
  decide (1 ≤ uop ∧ uop ≤ 0x10) || decide (0x18 ≤ uop ∧ uop ≤ 0x31) || decide (uop = 0x38) || decide (uop = 0x39)

/-- A selector that is defined. -/
def selDefined (sel : Nat) : Bool :=
  decide (sel ≤ 7) || decide (0x10 ≤ sel ∧ sel ≤ 0x25) || decide (sel = 0xFF)

/-- The format codes that a micro-operation takes (07 R199; 10 R264). -/
def microFormats (uop : Nat) : List Nat :=
  if 0x18 ≤ uop ∧ uop ≤ 0x1F then [0x0D, 0x0E, 0x0F, 0x10]
  else if 0x21 ≤ uop ∧ uop ≤ 0x29 then vecInts
  else if uop = 0x2D then vcvtCodes
  else if 0x2A ≤ uop ∧ uop ≤ 0x2C then vecFloats
  else if 0x20 ≤ uop ∧ uop ≤ 0x2F then vecAll
  else [0]

/-- The classes that an operand selector of an entry may take; none for another selector. -/
def selClasses (entry sel : Nat) : Option Nat := if sel < 4 then some (bits entry (20 + 4 * sel) 4) else none

/-- A selector used as a register of given classes: temporaries and constants pass. -/
def classIn (entry sel classes : Nat) : Bool :=
  match selClasses entry sel with
  | some c => decide (c ≠ 0) && decide (c ||| classes = classes)
  | none => true

/-- Whether a micro-operation writes its `DST`. -/
def writesDst (uop : Nat) : Bool := decide (uop ≠ 0x31 ∧ uop ≠ 0x38 ∧ uop ≠ 0x39)

/-- The source selectors that a micro-operation uses (07 R197). -/
def usedSrcs (uop word : Nat) : List Nat :=
  let a := if uop = 0x30 ∨ uop = 0x39 then [] else [bits word 16 8]
  let b := if uop = 0x01 ∨ uop = 0x1F ∨ uop = 0x20 ∨ uop = 0x30 ∨ uop = 0x31 ∨ uop = 0x39 then [] else [bits word 24 8]
  a ++ b ++ (if uop = 0x10 ∨ uop = 0x1A ∨ uop = 0x2C then [bits word 32 8] else [])

/-- A `BR` whose target lies forward and in the store (07 R199 item 3). -/
def branchOk (count at' word : Nat) : Bool :=
  decide (bits word 0 6 ≠ 0x38) || (decide (at' < bits word 52 12) && decide (bits word 52 12 < count))

/-- The checks of a microword reachable from an entry (07 R199 items 2 to 4). -/
def wordOk (entry count at' word : Nat) : Bool :=
  let uop := bits word 0 6
  let dst := bits word 8 8
  let srcs := [bits word 16 8, bits word 24 8, bits word 32 8]
  let all' := dst :: srcs
  let nops := bits entry 16 3
  let writesA := writesDst uop && (match selClasses entry dst with
    | some c => bit c 0
    | none => false)
  let dsts := if writesDst uop then [dst] else []
  microDefined uop && decide (bits word 48 4 ≤ 6) && all'.all selDefined && !bit word 7
  && (microFormats uop).contains (bits word 40 8)
  && (decide (uop ≠ 0x30 ∧ uop ≠ 0x31) || (ctlReadLevel (bits word 64 12)).isSome)
  && branchOk count at' word
  && all'.all (fun x => decide (4 ≤ x) || decide (x < nops))
  && srcs.all (fun x => (decide (x ≠ 6) || bit entry 40) && (decide (x ≠ 7) || bit entry 39))
  && !(decide (4 ≤ dst) && decide (dst ≤ 7))
  && (if 0x20 ≤ uop ∧ uop ≤ 0x2F then
        (usedSrcs uop word).all (fun x => classIn entry x 4)
        && (decide (uop ≠ 0x2E) || classIn entry (bits word 32 8) 8)
        && (if uop = 0x2F then classIn entry dst 8 else classIn entry dst 4)
      else (dsts ++ usedSrcs uop word).all (fun x => classIn entry x 3))
  && (!writesA || [0x01, 0x02, 0x03, 0x08, 0x09].contains uop)

/-- The words that may follow a word. -/
def microNext (at' word : Nat) : List Nat :=
  if bit word 6 then []
  else if bits word 0 6 = 0x38 then (if bits word 48 4 = 0 then [bits word 52 12] else [at' + 1, bits word 52 12])
  else [at' + 1]

/-- The words reachable from a start, in rising order; every path runs forward. -/
def microReach (word : Nat → Nat) (count start : Nat) : List Nat :=
  ((countFrom start (count - start)).foldl (fun (acc : List Nat × List Nat) n =>
    if acc.1.contains n then (acc.1 ++ microNext n (word n), acc.2 ++ [n]) else acc) ([start], ([] : List Nat))).2

/-- The longest path and the costliest path from each word on, from the last word back: none where a path runs past the
store (07 R199 items 5 and 6). -/
def microPaths (word : Nat → Nat) (count : Nat) : Nat → List (Option (Nat × Nat))
  | 0 => []
  | n + 1 =>
    -- entry `i` of the result stands for the word `count - 1 - i`
    let done := microPaths word count n
    let at' := count - 1 - n
    let cost := microCost (bits (word at') 0 6) (bits (word at') 40 8)
    let follow (t : Nat) : Option (Nat × Nat) := if t < count then (done[count - 1 - t]?).getD none else none
    done ++ [(microNext at' (word at')).foldl (fun (m : Option (Nat × Nat)) t =>
      match m, follow t with
      | some (a, b), some (x, y) => some (max a (x + 1), max b (y + cost))
      | _, _ => none) (some (1, cost))]

/-- Sections 08h and 09h: the first entry or microword at fault, then the first `BR` of any word with a bad target (07 R199). -/
def microBad (t w : Section) : Option Reject :=
  let count := rd w.body 0 8 % 8192
  let word (n : Nat) : Nat := rd w.body (8 + 16 * n) 16
  let paths := microPaths word count count
  let entryBad (i : Nat) : Option Reject :=
    let e := rd t.body (8 * i) 8
    let bad : Reject := { code := 0x0D, type := 8, offset := t.base + 8 * i }
    let nops := bits e 16 3
    if !bit e 12 then none
    else if !decide (bits e 0 12 < count) || decide (bits e 42 2 = 3) || decide (4 < nops) || (bit e 38 && decide (bits e 36 2 = 0))
        || !(countFrom 0 4).all (fun j => decide (j < nops) == decide (bits e (20 + 4 * j) 4 ≠ 0)) then some bad
    else
      match (microReach word count (bits e 0 12)).find? (fun n => !wordOk e count n (word n)) with
      | some n => some { code := 0x0D, type := 9, offset := w.base + 8 + 16 * n }
      | none =>
        match (paths[count - 1 - bits e 0 12]?).getD none with
        | some (steps, cost) => if steps ≤ 256 ∧ cost ≤ 480 then none else some bad
        | none => some bad
  ((countFrom 0 64).findSome? entryBad).or
    (((countFrom 0 count).find? (fun n => !branchOk count n (word n))).map (fun n => { code := 0x0D, type := 9, offset := w.base + 8 + 16 * n }))

/-- The words that some valid entry reaches. -/
def reachedWords (t w : Section) : List Nat :=
  let count := rd w.body 0 8 % 8192
  (countFrom 0 64).flatMap (fun i =>
    let e := rd t.body (8 * i) 8
    if bit e 12 then microReach (fun n => rd w.body (8 + 16 * n) 16) count (bits e 0 12) else [])

/-- The reserved bit of the microwords that no valid entry reaches (02 R38; 00 R11): 07 R199 checks it in the others. -/
def looseChecks (t w : Section) : List Check :=
  let reached := reachedWords t w
  ((countFrom 0 (rd w.body 0 8 % 8192)).filter (fun n => !reached.contains n)).map (fun n => resv w.body (8 + 16 * n) 1 7 1)

/-- The fields of section 08h and 09h themselves (07 R194; 02 R51). An entry that is not valid and not all 0 fails a check of
section 08h, and so has code 0Dh, not that of a reserved field (log entry 55). -/
def checks8 (b : List Byte) : List Check :=
  (countFrom 0 64).flatMap (fun i =>
    let e := rd b (8 * i) 8
    [(!bit e 12 && decide (e ≠ 0), 0x0D, 8 * i), resv b (8 * i) 8 13 3, resv b (8 * i) 8 19 1, range' (decide (bits e 36 2 ≠ 3)) (8 * i) 36,
     resv b (8 * i) 8 41 1, resv b (8 * i) 8 44 20])

def checks9 (b : List Byte) : List Check := [range' (decide (rd b 0 8 % 8192 ≤ 4096)) 0, resv b 0 8 13 51]

/-- The checks of a section's own fields. -/
def fieldChecks (x : Section) : List Check :=
  match x.type with
  | 0x01 => checks1 x.body
  | 0x02 => checks2 x.body
  | 0x03 => checks3 x.body
  | 0x04 => checks4 x.body
  | 0x05 => checks5 x.body
  | 0x06 => checks6 x.body
  | 0x07 => checks7 x.body
  | 0x08 => checks8 x.body
  | 0x09 => checks9 x.body
  | 0x0A => checksA x.body
  | 0x0B => checksB x.body
  | _ => checksC x.body

/-! ## Cross-section conditions (02 R45, R48, R52, R54; 16 R385) -/

/-- Net tier 1 and net tier 2 under a tier layout (01 R26, R27). -/
def netRanges (interleaved : Bool) (drawerBase : Nat) : List (Nat × Nat) :=
  (if interleaved then [(0, 0x8FDBFFFFFF)]
   else (countFrom 0 4).map (fun d => (d * 0x2400000000, d * 0x2400000000 + 0x23F6FFFFFF))) ++ [(0x10000000000, drawerBase - 1)]

/-- A range lies in net tier 1 or net tier 2, below the Drawer. -/
def inNet (nets : List (Nat × Nat)) (a n : Nat) : Bool := decide (n = 0) || nets.any (fun r => decide (r.1 ≤ a) && decide (a + n - 1 ≤ r.2))

/-- The conditions between sections; `availability` tells which arrays are available. -/
def crossChecks (ss : List Section) (available : Nat → Bool) : List (Nat × Check) :=
  let s1 := sectionOf ss 1
  let s2 := sectionOf ss 2
  let s3 := sectionOf ss 3
  let s4 := sectionOf ss 4
  let s5 := sectionOf ss 5
  let sA := sectionOf ss 10
  let sC := sectionOf ss 12
  let n := rd sC.body 0 8 % 128
  let ctxs := (countFrom 0 n).map (fun i => rd sC.body (8 + 208 * i) 1)
  let known (x : Nat) : Bool := decide (0x80 ≤ x) || ctxs.contains x
  let own := bits (rd s4.body 0 8) 0 20
  let gib := rd s5.body 8 2
  let drawer := 0x27F80000000 - gib * 0x40000000
  let nets := netRanges (bit (rd s5.body 0 8) 0) drawer
  let x := rd sA.body 8 8
  let bridle := bits (rd s4.body 8 8) 32 20
  let home := ((countFrom 0 (bits x 32 7)).map (fun j => rd sA.body (24 + 16 * j) 8)).foldl (· + ·) 0
  (countFrom 0 384).flatMap (fun i =>
    (countFrom 0 4).map (fun q => (s1.type, (!known (rd s1.body (8 * i + 2 + q) 1), 0x0B, s1.base + 8 * i + 2 + q))))
  ++ (countFrom 0 96).map (fun i => (s2.type, (!known (rd s2.body (16 * i) 1), 0x0B, s2.base + 16 * i)))
  ++ (countFrom 0 28).map (fun e => (s2.type, ((countFrom 0 64).any (fun c => bit (rd s2.body (1536 + 8 * e) 8) c && !ctxs.contains c), 0x0B, s2.base + 1536 + 8 * e)))
  ++ (countFrom 0 80).map (fun i => (s2.type, (!known (rd s2.body (1760 + i) 1), 0x0B, s2.base + 1760 + i)))
  ++ (countFrom 0 12).map (fun p =>
    let w := rd s3.body (8 * p) 8
    let same := decide (bits w 8 20 = own)
    (s3.type, ((decide (bits w 0 4 = 3) && !same) || (decide (bits w 0 4 = 1 ∨ bits w 0 4 = 2) && same), 0x0B, s3.base + 8 * p + 1)))
  ++ (if present ss 10 then
      [(sA.type, ((countFrom 0 12).any (fun p => bit (bits x 16 12) p && decide (rd s3.body (8 * p) 8 % 16 ≠ 2)), 0x0B, sA.base + 10)),
       (sA.type, (decide (bridle = 0xFFFFF) && decide (bits x 16 12 ≠ 0), 0x0B, sA.base + 10))]
      ++ (countFrom 0 (bits x 32 7)).map (fun j =>
        (sA.type, (!inNet nets (rd sA.body (16 + 16 * j) 8) (rd sA.body (24 + 16 * j) 8), 0x0B, sA.base + 16 + 16 * j)))
      ++ [(sA.type, (decide (gib * 0x40000000 < 2 * home), 0x0B, sA.base + 12))]
    else [])
  ++ (countFrom 0 n).map (fun i =>
    let o := 8 + 208 * i
    let pages := ((countFrom 0 (rd sC.body (o + 1) 1)).map (fun j =>
      rd sC.body (o + 24 + 24 * j) 8 / 2 ^ 30 - rd sC.body (o + 16 + 24 * j) 8 / 2 ^ 30 + 1)).foldl (· + ·) 0
    (sC.type, (!inNet nets (rd sC.body (o + 8) 8) (8 * pages), 0x0B, sC.base + o + 8)))
  ++ (countFrom 0 384).flatMap (fun i => (countFrom 0 4).map (fun q =>
    (s1.type, (!available i && decide (rd s1.body (8 * i + 2 + q) 1 < 0x80), 0x0E, s1.base + 8 * i + 2 + q))))

/-! ## The whole image (02 R55) -/

/-- What validation consults besides the image: the keys of the slots, the generation in ACTIVE, the arrays. -/
structure Validation where
  keys : SMap (List Byte × List Byte)
  activeGen : Nat
  unavailable : List Nat
deriving DecidableEq, Repr

/-- Step 1: framing. -/
def framingChecks (b : List Byte) : List Check :=
  let len := rd b 8 4
  let tr := len - trailerLen
  [(decide (rd b 0 4 ≠ 0x49535846), 1, 0), (decide (rd b 4 2 ≠ 1), 1, 4), (decide (rd b 6 2 ≠ 0x40), 1, 6),
   (decide (len % 8 ≠ 0 ∨ 0x400000 < len ∨ len < 64 + trailerLen ∨ b.length < len), 1, 8), (decide (rd b tr 4 ≠ 0x54535846), 1, tr),
   (decide (rd b (tr + 4) 4 ≠ 0xD40), 1, tr + 4)]

/-- Step 2: part, architecture revision, stepping. -/
def partChecks (b : List Byte) : List Check :=
  [(decide (rd b 40 2 ≠ 0x0940), 2, 40), (decide (rd b 43 1 ≠ 2), 2, 43),
   (decide (Config.stepMaj.toNat * 16 + Config.stepMin.toNat < rd b 42 1), 2, 42)]

/-- The signed message (02 R41). -/
def signedMessage (b : List Byte) : List Byte := b.take (rd b 8 4 - trailerLen + 16)

/-- Step 3: the key slot and both signatures. A `KEYSLOT` above 3 counts as an empty slot (log entry 55). -/
def signatureChecks (v : SMap (List Byte × List Byte)) (b : List Byte) : List Check :=
  let tr := rd b 8 4 - trailerLen
  let slot := rd b (tr + 8) 1
  let key := mget ([], []) v slot
  let msg := signedMessage b
  [(decide (3 < slot) || decide (key = ([], [])), 3, tr + 8), (!Config.ed25519Verify key.1 msg ((b.drop (tr + 16)).take 64), 4, tr + 16),
   (!Config.mlDsaVerify key.2 msg ((b.drop (tr + 80)).take 3309), 5, tr + 80)]

/-- Steps 5 and 6 over the sections. The spec places neither the header's reserved bytes, which are checked first here, nor the
trailer's reserved bytes and padding, which are checked after the sections' own fields; and it gives no offset for a section
that is missing, which is recorded with its type at the trailer (log entry 55). -/
def sectionsBad (v : Validation) (b : List Byte) : Option Reject :=
  let stop := rd b 8 4 - trailerLen
  match firstBad 0 0 [resv b 44 20 0 160, (decide (rd b 12 4 < 7 ∨ 12 < rd b 12 4), 7, 12)] with
  | some r => some r
  | none =>
    match parseSections b stop 14 64 0 with
    | .error r => some r
    | .ok ss =>
      if ss.length ≠ rd b 12 4 then some { code := 7, type := 0, offset := 12 }
      else
        match [1, 2, 3, 4, 5, 7, 12].find? (fun t => !present ss t) with
        | some t => some { code := 8, type := t, offset := stop }
        | none =>
          if present ss 8 ≠ present ss 9 then some { code := 8, type := if present ss 8 then 9 else 8, offset := stop }
          else
            match ss.findSome? (fun x => firstBad x.type x.base
                (fieldChecks x ++ if x.type = 9 then looseChecks (sectionOf ss 8) x else [])) with
            | some r => some r
            | none =>
              match (if present ss 8 then microBad (sectionOf ss 8) (sectionOf ss 9) else none) with
              | some r => some r
              | none =>
                match firstBad 0 0 [resv b (stop + 9) 7 0 56, resv b (stop + 3389) 3 0 24] with
                | some r => some r
                | none => ((crossChecks ss (fun i => !v.unavailable.contains i)).find? (fun x => x.2.1)).map (fun x => { code := x.2.2.1, type := x.1, offset := x.2.2.2 })

/-- Validation in the order of R55: the first failure, or none. -/
def imageBad (v : Validation) (b : List Byte) : Option Reject :=
  match firstBad 0 0 (framingChecks b ++ partChecks b ++ signatureChecks v.keys b ++ [(decide (rd b 32 8 ≤ v.activeGen), 6, 32)]) with
  | some r => some r
  | none => sectionsBad v b

/-- The bodies of the sections of an image that has been validated, by type. -/
def imageSections (b : List Byte) : SMap (List Byte) :=
  match parseSections b (rd b 8 4 - trailerLen) 14 64 0 with
  | .ok ss => ss.foldl (fun m x => mset [] m x.type x.body) []
  | .error _ => []

/-- The verification at start-up: framing and both signatures (02 R61). -/
def imageVerifies (keys : SMap (List Byte × List Byte)) (b : List Byte) : Bool :=
  (firstBad 0 0 (framingChecks b ++ signatureChecks keys b)).isNone

end Sys2Proof.Machine
end

