-- ==== Sys2Proof/Machine/Fabric.lean ====
section
/-! DEFINITION. The receiving side of the fabric ports: order and check codes, replay, training and delivery (15 R359 to
R362, R364). -/

namespace Sys2Proof.Machine

/-! ## Receiving (15 R359, R360) -/

/-- Take the acknowledgements and credits of a header. -/
def Port.takeHeader (x : Port) (f : Flit) : Port :=
  let covered := x.replay.any (fun g => decide (g.fseq = f.ackSeq))
  { x with
    replay := if covered then (x.replay.dropWhile (fun g => decide (g.fseq ≠ f.ackSeq))).drop 1 else x.replay
    failedReplays := if covered then 0 else x.failedReplays
    credits := if f.credits = 0 then x.credits else mmod 0 x.credits f.crvc (· + f.credits) }

/-- Discard a flit and ask for a replay from the first missing sequence number: always for one that fails its check code, once for
those that follow it out of order (log entry 62). -/
def State.discardFlit (s : State) (p : Fin 12) (bad : Bool) : State :=
  let x := s.port p
  if x.nackSent && !bad then s
  else
    let nack : Flit := { nullFlit with ftype := 3, vc := 2, last := true, payload := [0x01, x.rxSeq.zeroExtend 8] }
    (s.setPort p { x with nackSent := true }).sendFlit p nack

/-- Take the oldest flit of a kind out of a port's buffer; its credit goes back. -/
def State.takeFlit (s : State) (p : Fin 12) (want : Flit → Bool) : Option Flit × State :=
  let x := s.port p
  match x.rxq.find? want with
  | some f => (some f, (s.setPort p { x with rxq := x.rxq.erase f }).returnCredit p f.vc)
  | none => (none, s)

/-- The bytes that reach the receiver of a port. On a looped one they are the next of its own wire, or the bytes given where these fail
`FCRC`: a wire that damages a flit. -/
def State.arriving (s : State) (p : Fin 12) (data : List Byte) : Option (List Byte × State) :=
  let x := s.port p
  if x.st ≠ .loopback then some (data, s)
  else match x.loop with
  | [] => none
  | b :: rest => some (if flitGood data then b else data, s.setPort p { x with loop := rest })

/-- A flit arrives at a port: check code and order, which a NULL flit keeps too, so that it is discarded between a flit that failed and
its replay (log entry 62); acknowledgements and credits, then forwarding or the buffer. A NULL flit acknowledges one that stays in the
buffer. -/
def State.receiveFlit (s : State) (p : Fin 12) (f : Flit) (fcrcOk : Bool) : State :=
  let x := s.port p
  if !x.carries then s
  else if !fcrcOk ∨ f.reserved ≠ 0 then s.discardFlit p true
  else if f.fseq ≠ x.rxSeq.toNat then s.discardFlit p false
  else
    let x1 := { x.takeHeader f with rxSeq := if f.ftype = 0 then x.rxSeq else x.rxSeq + 1, nackSent := false }
    let s1 := (s.setPort p x1).pumpPort p (x.waitq.length + 1)
    if f.ftype = 0 then s1
    else if f.ftype = 3 ∨ ((f.ftype = 1 ∨ f.ftype = 2) ∧ f.dst = s.moduleId) then
      let y := s1.port p
      (s1.setPort p { y with rxq := y.rxq ++ [f] }).sendNull p 0 f.vc
    else if f.ftype = 1 ∨ f.ftype = 2 then (s1.forwardFlit p f).sendNull p 0 f.vc
    else s1.returnCredit p f.vc

/-- `FLIT_RECEIVE` (R360). -/
def execFlitReceive (port : Fin 12) (data : List Byte) (s : State) : Host.Outcome State Fault Refusal :=
  next (match s.arriving port data with
    | some (b, s1) => s1.receiveFlit port (Flit.ofBytes b) (flitGood b)
    | none => s)

/-! ## Port down, replay, training (15 R360 to R362) -/

/-- What a port had to send is gone; flits in transit leave the buffers they came into. -/
def State.dropWaiting (s : State) (p : Fin 12) : State :=
  let x := s.port p
  x.waitq.foldl (fun (s : State) f => s.leaveBuffer f) (s.setPort p { x with waitq := [] })

/-- Declare a port down (15 R361). -/
def State.portDown (s : State) (p : Fin 12) : State :=
  let x := s.port p
  let s1 := (s.setPort p { x with st := .down }).dropWaiting p
  if s.portRole p = 1 ∨ s.portRole p = 2 then (s1.report (portRec p 0)).injectStop 5 else s1

/-- Replay from a sequence number: the first time, or again where the replay has `failed`; `failedReplays` are the replays made of the
flit `nackSeq`, and the port is down when the eighth has failed (15 R361). Nothing to replay is no replay. A fail-stopped module
replays nothing: it sends only NULL flits (18 R437). -/
def State.replayFrom (s : State) (p : Fin 12) (fseq : Nat) (failed : Bool) : State :=
  let x := s.port p
  let l := x.replay.dropWhile (fun g => decide (g.fseq ≠ fseq))
  let again := decide (x.nackSeq = fseq) && decide (0 < x.failedReplays)
  let n := if again then x.failedReplays + 1 else 1
  if l = [] ∨ s.power.failStop.isSome ∨ (again ∧ !failed) then s
  else if 8 < n then s.portDown p
  else l.foldl (fun (s : State) g => s.transmit p g) (s.setPort p { x with nackSeq := fseq, failedReplays := n, replays := satAdd x.replays 1 })

/-- `LINKCTL_NACK` (R360). -/
def execLinkctlNack (port : Fin 12) (failed : Bool) (s : State) : Host.Outcome State Fault Refusal :=
  match s.takeFlit port (fun f => decide (f.ftype = 3)) with
  | (some f, s1) =>
    next (if (f.payload.headD 0) = 0x01 then s1.replayFrom port (nth 0 f.payload 1).toNat failed else s1)
  | (none, s1) => next s1

/-- `FEC_ALIGNMENT_LOSS` (R361). -/
def execFecAlignmentLoss (port : Fin 12) (s : State) : Host.Outcome State Fault Refusal :=
  next (if (s.port port).carries then s.portDown port else s)

/-- A port comes up: full credits, sequence numbers from 0, empty buffers (15 R360). What was queued since its training began waits. -/
def Port.comeUp (x : Port) (st : PortState) : Port :=
  { x with
    st := st, txSeq := 0, rxSeq := 0, nackSent := false, nackSeq := 0, failedReplays := 0, replay := [],
    credits := mset 0 (mset 0 (mset 0 [] 0 64) 1 64) 2 8, rxq := [], loop := [], turn := false }

/-- Training ends with what the peer reported; a looped port sees its own module and port number (15 R362). -/
def State.trained (s : State) (p : Fin 12) (peer0 peerPort0 : Nat) : State :=
  let x := s.port p
  if x.st ≠ .training ∨ !s.powered 9 then s
  else
    let own := decide (s.portRole p = 3)
    let peer := if own then s.moduleId else peer0
    let peerPort := if own then p.val else peerPort0
    let y := { x with peerSeen := BitVec.ofNat 20 peer, peerPSeen := BitVec.ofNat 4 peerPort }
    let match' := decide (peer = s.portPeerId p) && decide (peerPort = s.portPeerPort p)
    match s.portRole p with
    | 0 => s
    | n =>
      if match' then (s.setPort p (y.comeUp (if n = 3 then .loopback else .up))).pumpPort p (x.waitq.length + 1)
      else (s.setPort p y).report (portRec p 1)

/-- `PORT_TRAINING_COMPLETE` (R362). -/
def execPortTrainingComplete (port : Fin 12) (peer peerPort : Nat) (s : State) : Host.Outcome State Fault Refusal :=
  next (s.trained port peer peerPort)

/-- `RETRAIN_TIMEOUT` (R361). -/
def execRetrainTimeout (port : Fin 12) (s : State) : Host.Outcome State Fault Refusal :=
  next (if (s.port port).st = .training then s.portDown port else s)

/-- A port begins to train, or goes off, as its role says (02 R66, 15 R362); what it had to send is gone. -/
def State.retrainPort (s : State) (p : Fin 12) : State :=
  let x := s.port p
  (s.setPort p { x with st := if s.portRole p = 0 then .off else .training }).dropWaiting p

end Sys2Proof.Machine
end

