-- ==== Sys2Proof/Machine/Collectives.lean ====
section
/-! DEFINITION. The collectives of the CRE: COLLSEND, COLLRECV and the flits between them (15 R365 to R368). -/

namespace Sys2Proof.Machine

/-- The CRE of a compute die. -/
def creOf (d : Fin 4) : EngineId := { cd := d, kind := .cre }

def State.creState (s : State) (d : Fin 4) : CreState := mget CreState.reset s.cre d.val
def State.setCreState (s : State) (d : Fin 4) (x : CreState) : State := { s with cre := mset CreState.reset s.cre d.val x }

/-- The packed bytes of an operand. -/
def TensorDesc.packed (d : TensorDesc) : Nat := d.rows * d.rowLen

/-! ## COLLSEND (15 R366) -/

/-- The places of `n` packed bytes from an offset on: address and size in each row they touch. -/
def packedPieces (d : TensorDesc) : Nat → Nat → Nat → List (Nat × Nat)
  | 0, _, _ => []
  | fuel + 1, off, n =>
    if n = 0 ∨ d.rowLen = 0 then []
    else
      let i := off % d.rowLen
      let m := min n (d.rowLen - i)
      ((d.rowAddr (off / d.rowLen) + i) % 2 ^ 64, m) :: packedPieces d fuel (off + m) (n - m)

/-- Read pieces in order. -/
def State.readList (e : EngineId) (c : EngCmd) (k : List Byte → State → EngRes) : List (Nat × Nat) → List Byte → State → EngRes
  | [], acc, s => k acc s
  | (va, n) :: rest, acc, s => s.engRead e c false va n (fun b s1 => State.readList e c k rest (acc ++ b) s1)

/-- One flit of up to 224 bytes of the operand. -/
def sendUnit (e : EngineId) (i : Nat) (c : EngCmd) (s : State) : EngRes :=
  let d := c.desc 0
  let off := 224 * i
  let n := min 224 (d.packed - off)
  State.readList e c (fun b s1 =>
    .go c (s1.originate e.cd
      { nullFlit with
        ftype := 1, vc := 0, last := decide (d.packed ≤ off + 224), dst := fld c.words 2 0 20, dcd := fld c.words 2 20 2
        src := s1.moduleId, ctx := c.ctx.toNat, collId := fld c.words 2 32 16, rank := fld c.words 2 48 16, offset := off
        payload := b })) (packedPieces d (n + 1) off n) [] s

/-- `COLLSEND` (R366). -/
def execCollsend (e : EngineId) (bad : Option (Nat × EngineError)) (s : State) : Host.Outcome State Fault Refusal :=
  next (s.runHead e .cre 2 (fun c s =>
    s.withDescs e c [c.w 1]
      (fun ds => let d := (nth ReadDesc.null ds 0).d
                 decide (d.fmt = eFmt c.words) && decide (d.packed ≤ 2 ^ 40 - 1))
      (fun c s => let n := ((c.desc 0).packed + 223) / 224
                  engUnits bad (sendUnit e) n (n + 1) c s)))

/-! ## COLLRECV (15 R366 to R368) -/

/-- The open COLLRECV of a CRE: the command in execution, once its descriptors and ranks are read. -/
def State.openRecv (s : State) (d : Fin 4) : Option EngCmd :=
  match (s.engine (creOf d)).queue with
  | c :: _ => if cOp c.words = 3 ∧ c.phase = .started ∧ c.ops ≠ [] then some c else none
  | [] => none

/-- Whether a flit belongs to a COLLRECV: `CTX`, `COLLID`, `SRC` and `RANK`. -/
def recvMatches (c : EngCmd) (f : Flit) : Bool :=
  decide (f.ctx = c.ctx.toNat) && decide (f.collId = fld c.words 3 32 16)
  && c.ops.any (fun o => decide (o.rank = f.rank) && decide (o.src = f.src))

/-- The operand of a rank. -/
def opIndex (c : EngCmd) (f : Flit) : Nat := c.ops.findIdx (fun o => decide (o.rank = f.rank) && decide (o.src = f.src))

/-- Take the payload of a matched flit: write it into its operand's slot of `STAGE`, as far as it lies in the operand. -/
def takePayload (e : EngineId) (f : Flit) (c : EngCmd) (s : State) : EngRes :=
  let size := (c.desc 0).packed
  let i := opIndex c f
  let data := f.payload.take (size - f.offset)
  let done (s : State) : EngRes :=
    .go { c with ops := c.ops.mapIdx (fun j o =>
      if j = i then { o with got := max o.got (f.offset + data.length), last := o.last || f.last } else o) } s
  if data = [] then done s else s.engWrite e c (c.w 5 + i * size + f.offset) data done

/-- Take the flits held in the staging SRAM that match, oldest first. -/
def takeHeld (e : EngineId) : Nat → EngCmd → State → EngRes
  | 0, c, s => .go c s
  | fuel + 1, c, s =>
    let st := s.creState e.cd
    match st.held.find? (fun x => recvMatches c x.2) with
    | none => .go c s
    | some x => (takePayload e x.2 c s).bind (fun c1 s1 =>
        let st1 := s1.creState e.cd
        takeHeld e fuel c1 (s1.setCreState e.cd { st1 with held := st1.held.erase x }))

/-- The operand of a remote rank as it lies in `STAGE`: packed rows. -/
def stageDesc (c : EngCmd) (i : Nat) : TensorDesc :=
  let d := c.desc 0
  let n := d.rowLen
  { base := c.w 5 + i * d.packed, fmt := d.fmt, nt := d.nt, dims := d.dims,
    strides := [(n : Int), ((n * d.dim 1 : Nat) : Int), ((n * d.dim 1 * d.dim 2 : Nat) : Int)] }

/-- Insert an operand by ascending rank. -/
def rankInsert (x : Nat × TensorDesc) : List (Nat × TensorDesc) → List (Nat × TensorDesc)
  | [] => [x]
  | y :: ys => if x.1 ≤ y.1 then x :: y :: ys else y :: rankInsert x ys

/-- The operands in ascending rank, the local one among them (15 R367). -/
def recvOperands (c : EngCmd) : List TensorDesc :=
  let remote := c.ops.mapIdx (fun i o => (o.rank, stageDesc c i))
  let loc := if c.w 2 ≠ 0 then [(fld c.words 3 16 16, c.desc 1)] else []
  ((remote ++ loc).foldr rankInsert []).map (·.2)

/-- Read `RANKLIST` and open the command: its ranks are distinct, no other open COLLRECV of the engine has its `COLLID` and
context, and the reserved bits of the list are 0. -/
def openRanks (e : EngineId) (c : EngCmd) (s : State) (k : EngCmd → State → EngRes) : EngRes :=
  if c.ops ≠ [] then k c s
  else
    let n := fld c.words 3 0 7
    s.engRead e c true (c.w 4) (8 * n) (fun b s1 =>
      let ents := (countFrom 0 n).map (fun i => leNat ((b.drop (8 * i)).take 8))
      let ranks := ents.map (fun x => bits x 0 16) ++ (if c.w 2 ≠ 0 then [fld c.words 3 16 16] else [])
      let x := s1.engine e
      let other := (x.queue.drop 1).any (fun o => decide (cOp o.words = 3) && decide (o.phase = .started) && decide (o.ctx = c.ctx)
        && decide (fld o.words 3 32 16 = fld c.words 3 32 16))
      if decide ranks.Nodup && !other && ents.all (fun x => decide (x / 2 ^ 36 = 0)) then
        k { c with ops := ents.map (fun x => { rank := bits x 0 16, src := bits x 16 20, got := 0, last := false }) }
          (s1.setCreState e.cd { s1.creState e.cd with timedOut := false })
      else .stop c s1 (.ends 0x04))

/-- `COLLRECV` (R366, R367): opens, takes the flits held for it, waits for its operands, folds them in rank order. -/
def execCollrecv (e : EngineId) (bad : Option (Nat × EngineError)) (s : State) : Host.Outcome State Fault Refusal :=
  next (s.runHead e .cre 3 (fun c s =>
    s.withDescs e c (c.w 1 :: (if c.w 2 ≠ 0 then [c.w 2] else []))
      (fun ds => ds.all (fun x => decide (x.d.fmt = eFmt c.words) && decide (x.d.dims = (nth ReadDesc.null ds 0).d.dims)))
      (fun c s => openRanks e c s (fun c s =>
        (takeHeld e ((s.creState e.cd).held.length + 1) c s).bind (fun c1 s1 =>
          if c1.ops.all (·.last) then
            let d := c1.desc 0
            engUnits bad (foldRow e d (recvOperands c1)) d.rows (d.rows + 1) c1 s1
          else .hold c1 s1)))))

/-! ## Flits at their compute die (15 R368) -/

/-- The flits that the staging SRAM of 1 MiB holds. -/
def stagingFlits : Nat := 4096

/-- Deliver a flit at a CRE. The Bool says that it has been taken, and its buffer space is free again. -/
def State.deliverColl (s : State) (d : Fin 4) (port : Option (Fin 12)) (f : Flit) : Bool × State :=
  let e := creOf d
  let x := s.engine e
  let st := s.creState d
  match s.openRecv d with
  | some c =>
    if recvMatches c f then
      if !s.engineWorks e ∨ x.parked ∨ x.ringParked then (false, s)
      else match takePayload e f c s with
      | .go c1 s1 => (true, s1.modHead e (fun _ => c1))
      | .hold c1 s1 => (true, s1.modHead e (fun _ => c1))
      | .stop c1 s1 why => (false, s1.stopHead e c1 why)
    else if st.held.length < stagingFlits then (true, s.setCreState d { st with held := st.held ++ [(port, f)] })
    else (false, s)
  | none =>
    if st.held.length < stagingFlits then (true, s.setCreState d { st with held := st.held ++ [(port, f)] })
    else (false, s)

/-- `COLL_FLIT` (R368): the oldest flit for the compute die in a port's buffer, or of the module's own senders. -/
def execCollFlit (cd : Fin 4) (port : Option (Fin 12)) (s : State) : Host.Outcome State Fault Refusal :=
  if !s.cdUp cd then next s
  else match port with
  | some p =>
    let x := s.port p
    match x.rxq.find? (fun f => decide (f.ftype = 1) && decide (f.dcd = cd.val)) with
    | none => next s
    | some f =>
      let (taken, s1) := s.deliverColl cd port f
      if taken then
        let y := s1.port p
        next ((s1.setPort p { y with rxq := y.rxq.erase f }).returnCredit p f.vc)
      else next s1
  | none =>
    match (s.creState cd).localq with
    | [] => next s
    | f :: _ =>
      let (taken, s1) := s.deliverColl cd none f
      if taken then let st := s1.creState cd
                    next (s1.setCreState cd { st with localq := st.localq.drop 1 })
      else next s1

/-- `NOMATCH_TIMEOUT` (R368): the oldest flit held without a match is dropped and counted at the port on which it came, or, of the
module's own sender, at the first port of the compute die (log entry 63). -/
def execNomatchTimeout (cd : Fin 4) (s : State) : Host.Outcome State Fault Refusal :=
  let st := s.creState cd
  let matched (f : Flit) : Bool := match s.openRecv cd with
    | some c => recvMatches c f
    | none => false
  match st.held.find? (fun x => !matched x.2) with
  | none => next s
  | some x =>
    let s1 := s.setCreState cd { st with held := st.held.erase x }
    let p := x.1.getD (Fin.ofNat 12 (3 * cd.val))
    let y := s1.port p
    next (s1.setPort p { y with noMatch := satAdd y.noMatch 1 })

end Sys2Proof.Machine
end

