-- ==== Sys2Proof/Machine/Tether.lean ====
section
/-! DEFINITION. The Tether: tokens in and out, the stop, notices, heartbeats and small reduces (15 R370 to R383). Barriers
and flips are in Machine/Epochs.lean. -/

namespace Sys2Proof.Machine

/-! ## Tokens in (15 R371 to R373) -/

/-- A token that fails `TCRC` is discarded and counted (15 R372, R383). -/
def State.dropToken (s : State) (p : Fin 8) : State :=
  let x := s.tport p
  let s1 := s.setTport p { x with crcErr := satAdd x.crcErr 1 }
  { s1 with tether := { s1.tether with tcrcErr := satAdd s1.tether.tcrcErr 1 } }

/-- What a token carries: type, subtype, argument, and the value of its extension block. -/
structure TokenBody where
  kind : Nat
  sub : Nat
  arg : Nat
  ext : Option Nat

/-- The first block of a token that a port receives, with its `TCRC`. -/
def TokenIn.block (t : TokenIn) (b : TokenBody) : Nat :=
  (token (tokenBlock b.kind b.sub b.ext.isSome t.origin.toNat b.arg t.tseq.toNat) b.ext).headD 0

/-- A token arrives at a used port. The Tether runs in the always-on domain (15 R370). The first block of a token with an extension
block is held until the next block that is no STOP, and the two are the token; another block than its own makes one that fails `TCRC`
(R373; log entry 45). -/
def State.receiveToken (s : State) (t : TokenIn) (b : TokenBody) (act : State → State) : State :=
  let x := s.tport t.port
  if !s.powered 0 ∨ s.tdir t.port.val = 0 then s
  else if b.kind = 1 then (if t.crcOk then act s else s.dropToken t.port)
  else match x.held with
  | none =>
    if t.half ∧ b.ext.isSome then s.setTport t.port { x with held := some (TokenIn.block t b) }
    else if t.crcOk then act s else s.dropToken t.port
  | some h =>
    let s1 := s.setTport t.port { x with held := none }
    if b.ext.isSome ∧ !t.half ∧ h = TokenIn.block t b ∧ t.crcOk then act s1 else s1.dropToken t.port

/-- A token arrives from below: at a down port. -/
def State.receiveUp (s : State) (t : TokenIn) (b : TokenBody) (act : State → State) : State :=
  s.receiveToken t b (fun s => if s.tdir t.port.val = 2 then act s else s)

/-- A token arrives from above: at the up port. -/
def State.receiveDown (s : State) (t : TokenIn) (b : TokenBody) (act : State → State) : State :=
  s.receiveToken t b (fun s => if s.tdir t.port.val = 1 then act s else s)

/-- The bodies of the tokens that a port receives (15 R372). -/
def noticeBody (code data : Nat) (subject : Nat) : TokenBody := { kind := 5, sub := 0, arg := code + 256 * data, ext := some subject }
def flipBody (sub : Nat) : TokenBody := { kind := 2, sub := sub, arg := 0, ext := none }
def barrierBody (sub : Nat) (id : BitVec 16) : TokenBody := { kind := 3, sub := sub, arg := id.toNat, ext := none }

/-- Send a token with a given origin and sequence number. -/
def State.sendToken (s : State) (ports : List Nat) (kind sub origin arg tseq : Nat) (ext : Option Nat) : State :=
  s.sendOn ports (token (tokenBlock kind sub ext.isSome origin arg tseq) ext)

/-- Send a token of the module's own. -/
def State.sendOwn (s : State) (ports : List Nat) (kind sub arg : Nat) (ext : Option Nat) : State :=
  s.nextTseq.sendToken ports kind sub s.moduleId arg s.tether.tseq.toNat ext

/-- Pass a token on with its origin and sequence number. -/
def State.passOn (s : State) (t : TokenIn) (ports : List Nat) (kind sub arg : Nat) (ext : Option Nat) : State :=
  s.sendToken ports kind sub t.origin.toNat arg t.tseq.toNat ext

/-- The ports on which a token that is flooded goes out: every used port but the one it arrived on (15 R373). -/
def State.floodPorts (s : State) (t : TokenIn) : List Nat := without t.port.val s.usedTports

/-! ## The stop (15 R372, R381) -/

/-- `STOP` (R381): a token of a new origin and sequence number, or a stop that the module's own software decides. -/
def execStop (src : TetherFrom) (cause : Byte) (s : State) : Host.Outcome State Fault Refusal :=
  match src with
  | .own => next (s.injectStop cause.toNat)
  | .port t =>
    next (s.receiveToken t { kind := 1, sub := 0, arg := cause.toNat, ext := none } (fun s =>
      if (t.origin, t.tseq) ∈ s.tether.stopsTaken then s
      else
        let s1 := { s with tether := { s.tether with stopsTaken := s.tether.stopsTaken ++ [(t.origin, t.tseq)] } }
        (s1.floodStop (some t.port.val) t.origin.toNat t.tseq.toNat cause.toNat).stopHere t.origin.toNat cause.toNat))

/-- `TCTL_STOP` (R383): cause 06h. -/
def execTctlStop (s : State) : Host.Outcome State Fault Refusal := next (s.injectStop 6)

/-! ## Notices (15 R376, R383) -/

/-- Queue a notice at the module itself, with its interrupts; a full queue of 64 loses it. -/
def State.deliverNotice (s : State) (code data : Nat) (origin subject : BitVec 20) : State :=
  let t := s.tether
  if 64 ≤ t.notices.length then { s with tether := { t with noticeLost := true } }
  else
    let n : Notice := { code := BitVec.ofNat 8 code, data := BitVec.ofNat 8 data, origin := origin, subject := subject }
    let s1 := { s with tether := { t with notices := t.notices ++ [n] } }
    let s2 := if t.nqIrq then s1.hicSource 0xE8 else s1
    (countFrom 0 96).foldl (fun (s : State) i =>
      if (mget 0 t.deliv (i / 24)).getLsbD (i % 24) then s.setIpend (Fin.ofNat 4 (i / 24)) (Fin.ofNat 24 (i % 24)) 4 else s) s2

/-- The modules that this one manages (02 R46). -/
def State.managed (s : State) : List Nat :=
  (countFrom 0 (bits (s.secNat 4 80 8) 32 7)).map (fun i => bits (s.secNat 4 (88 + 4 * i) 4) 0 20)

/-- A slow notice of an origin stands, or stands no more. -/
def State.setSlow (s : State) (origin : BitVec 20) (factor : Option Byte) : State :=
  let others := s.tether.slow.filter (fun x => decide (x.origin ≠ origin))
  { s with tether := { s.tether with slow := others ++ (factor.map (fun f => { origin := origin, factor := f })).toList } }

/-- Whether a notice for a subject has gone up less than 1 ms ago: 25,000 KCLK of the always-on count. -/
def Tether.sentLately (t : Tether) (subject : BitVec 20) (now : Word) : Bool :=
  t.sentUp.any (fun x => decide (x.1 = subject) && decide ((now - x.2).toNat < 25000))

/-- A notice for a subject goes up now. -/
def Tether.noteSent (t : Tether) (subject : BitVec 20) (now : Word) : Tether :=
  { t with sentUp := t.sentUp.filter (fun x => decide (x.1 ≠ subject)) ++ [(subject, now)] }

/-- A fault notice at this module on its way up: delivered by the manager of its origin, which sends up the first of each
subject in a millisecond in its own name; the top Spool delivers every one. A lost heartbeat ends the slow notice of its subject. -/
def State.faultUp (s0 : State) (origin subject : BitVec 20) (tseq cause : Nat) : State :=
  let s := if cause = 1 then s0.setSlow subject none else s0
  match s.upPort with
  | none => if s.tetherRole = 2 then s.deliverNotice 1 cause origin subject else s
  | some u =>
    if s.managed.contains origin.toNat then
      let s1 := (s.deliverNotice 1 cause origin subject).sampleCounter
      let now := s1.power.counter
      if s1.tether.sentLately subject now then s1
      else
        { s1 with tether := s1.tether.noteSent subject now }.sendOwn [u] 5 0 (1 + 256 * cause) (some subject.toNat)
    else s.sendToken [u] 5 0 origin.toNat (1 + 256 * cause) tseq (some subject.toNat)

/-- The module sends a fault notice of its own. -/
def State.raiseFault (s : State) (cause : Nat) (subject : BitVec 20) : State :=
  s.nextTseq.faultUp (BitVec.ofNat 20 s.moduleId) subject s.tether.tseq.toNat cause

/-- `NOTICE_FAULT` (R376). -/
def execNoticeFault (t : TokenIn) (subject : BitVec 20) (cause : Byte) (s : State) : Host.Outcome State Fault Refusal :=
  next (s.receiveUp t (noticeBody 1 cause.toNat subject.toNat) (fun s => s.faultUp t.origin subject t.tseq.toNat cause.toNat))

/-- `TCTL_NOTE` (R383): cause 05h, for `SUBJECT`. -/
def execTctlNote (s : State) : Host.Outcome State Fault Refusal := next (s.raiseFault 5 s.tether.subject)

/-- `TSTAT.FACTOR`: the largest factor that stands (15 R369). -/
def State.slowFactor (s : State) : Nat := s.tether.slow.foldl (fun m x => max m x.factor.toNat) 1

/-- `SLOWFACTOR` of section 0Bh; 2 where the section is absent (02 R53). -/
def State.ownSlowFactor (s : State) : Nat := if s.hasSec 11 then bits (s.secNat 11 0 8) 16 4 else 2

/-- The module's own thermal-slow or clear notice: flooded, recorded and delivered like any other (14 R356). -/
def State.sendSlow (s : State) (slow : Bool) : State :=
  let f := s.ownSlowFactor
  let o := BitVec.ofNat 20 s.moduleId
  let s1 := s.sendOwn s.usedTports 5 0 (if slow then 2 + 256 * f else 3) (some 0)
  (s1.setSlow o (if slow then some (BitVec.ofNat 8 f) else none)).deliverNotice (if slow then 2 else 3) (if slow then f else 0) o 0

/-- `NOTICE_THERMAL_SLOW` (R376). -/
def execNoticeThermalSlow (t : TokenIn) (factor : Byte) (s : State) : Host.Outcome State Fault Refusal :=
  next (s.receiveToken t (noticeBody 2 factor.toNat 0) (fun s =>
    ((s.passOn t (s.floodPorts t) 5 0 (2 + 256 * factor.toNat) (some 0)).setSlow t.origin (some factor)).deliverNotice 2 factor.toNat t.origin 0))

/-- `NOTICE_CLEAR` (R376). -/
def execNoticeClear (t : TokenIn) (s : State) : Host.Outcome State Fault Refusal :=
  next (s.receiveToken t (noticeBody 3 0 0) (fun s =>
    ((s.passOn t (s.floodPorts t) 5 0 3 (some 0)).setSlow t.origin none).deliverNotice 3 0 t.origin 0))

/-- A read of `TNOTQ`: its value, and the state without the notice that it pops. -/
def State.popNotice (s : State) : Word × State :=
  let t := s.tether
  let lost := 2 * b2n t.noticeLost
  match t.notices with
  | [] => (BitVec.ofNat 64 lost, { s with tether := { t with noticeLost := false } })
  | n :: rest =>
    (BitVec.ofNat 64 (1 + lost + 2 ^ 8 * n.code.toNat + 2 ^ 16 * n.data.toNat + 2 ^ 24 * n.origin.toNat + 2 ^ 44 * n.subject.toNat),
     { s with tether := { t with noticeLost := false, notices := rest } })

/-- `TNOTQ_READ` (R383). -/
def execTnotqRead (s : State) : Host.Outcome State Fault Refusal :=
  let (w, s1) := s.popNotice
  next { s1 with busOut := leBytes 8 w.toNat }

/-- `COLLECTIVE_TIMEOUT` (R369): once for a COLLRECV; the subject is the lowest-ranked sender whose operand is incomplete. -/
def execCollectiveTimeout (e : EngineId) (s : State) : Host.Outcome State Fault Refusal :=
  let st := s.creState e.cd
  match s.openRecv e.cd with
  | none => next s
  | some c =>
    let open' := c.ops.filter (fun o => !o.last)
    match open' with
    | [] => next s
    | o :: os =>
      if e.kind ≠ .cre ∨ st.timedOut ∨ s.frozen then next s
      else
        let low := os.foldl (fun m x => if x.rank < m.rank then x else m) o
        next ((s.setCreState e.cd { st with timedOut := true }).raiseFault 2 (BitVec.ofNat 20 low.src))

/-! ## Heartbeats and lock (15 R377, R383; 16 R400) -/

/-- `HEARTBEAT` (R377): the first at a port is compared with `TPEER` (R383). -/
def execHeartbeat (t : TokenIn) (s : State) : Host.Outcome State Fault Refusal :=
  next (s.receiveToken t { kind := 6, sub := 0, arg := 0, ext := none } (fun s =>
    let x := s.tport t.port
    let wrong := decide (t.origin.toNat ≠ s.tpeer t.port.val)
    let s1 := s.setTport t.port { x with seen := true, peerSeen := t.origin, mismatch := x.mismatch || (!x.seen && wrong) }
    if !x.seen && wrong then s1.report (mkRec 0 (0xA010 + t.port.val) 0x13 1 0 1) else s1))

/-- `TETHER_HEARTBEAT_TIMER` (R377): a HEARTBEAT on each used port. -/
def execTetherHeartbeatTimer (s : State) : Host.Outcome State Fault Refusal :=
  if !s.powered 0 then next s
  else next (s.sendOwn s.usedTports 6 0 0 none)

/-- `TETHER_BLOCK_LOCK` (16 R400): block lock and the heartbeats are back. -/
def execTetherBlockLock (p : Fin 8) (s : State) : Host.Outcome State Fault Refusal :=
  if s.powered 0 then next (s.setTport p { s.tport p with lock := true, gone := false, held := none }) else next s

/-- A neighbour has been lost (R377): the stop first, then the fault notice. -/
def State.neighbourLost (s : State) (p : Fin 8) : State :=
  let x := s.tport p
  let peer := if x.seen then x.peerSeen else BitVec.ofNat 20 (s.tpeer p.val)
  ((s.setTport p { x with lost := true, gone := true }).injectStop 4).raiseFault 1 peer

/-! ## Small reduces (15 R380) -/

/-- A module whose own arrival or operand is not awaited: a spare, fail-stopped, or starting up (15 R378, R380; 16 R400; 18 R427). -/
def State.ownCounts (s : State) : Bool := s.spare || s.power.failStop.isSome || decide (s.power.step < 5)

/-- The ports that must still contribute: down ports whose neighbour is not lost (16 R400). -/
def State.awaitedPorts (s : State) : List Nat := s.downPorts.filter (fun p => !(mget TPort.reset s.tether.ports p).gone)

/-- The neutral element of an operation (15 R380). -/
def redNeutral (op : Nat) : Word :=
  match op with
  | 1 => 0x8000000000000000
  | 2 => 0x7FFFFFFFFFFFFFFF
  | 3 => BitVec.allOnes 64
  | 5 => 0x7FF8000000000000
  | 6 => 0x7FF8000000000000
  | _ => 0

/-- The combination of two operands (15 R380). -/
def redCombine (op : Nat) (a b : Word) : Word :=
  match op with
  | 0 => a + b
  | 1 => if a.slt b then b else a
  | 2 => if a.slt b then a else b
  | 3 => a &&& b
  | 4 => a ||| b
  | _ => match floatFmt 0x10 with
    | some f => BitVec.ofNat 64 (f.encode ((f.decode a.toNat).pick (decide (op = 5)) (f.decode b.toNat)))
    | none => 0

/-- The operands in the order own, then TP0 to TP7. -/
def RedSlot.ordered (r : RedSlot) (own : Option Word) : List Word :=
  own.toList ++ (countFrom 0 8).filterMap (fun p => (r.operands.find? (fun x => decide (x.1 = p))).map (·.2))

/-- The slot whose number is given. -/
def State.redSlot (s : State) (slot : Nat) : Option RedSlot := s.tether.reds.find? (fun r => decide (r.slot = slot))

/-- Put a slot in place of the one with its number. -/
def State.setRed (s : State) (r : RedSlot) : State :=
  { s with tether := { s.tether with reds := s.tether.reds.filter (fun x => decide (x.slot ≠ r.slot)) ++ [r] } }

/-- A result arrives or is reached: stored, reported with the origin of the token that carries it, and the slot freed. -/
def State.redResult (s : State) (origin : BitVec 20) (slot : Nat) (x : Word) : State :=
  let t := { s.tether with
    reds := s.tether.reds.filter (fun r => decide (r.slot ≠ slot)), redRes := mset 0 s.tether.redRes slot x }
  { s with tether := t }.deliverNotice 5 slot origin 0

/-- `ARG` of a REDUCE token. -/
def RedSlot.arg (r : RedSlot) : Nat := r.id.toNat + 2 ^ 11 * r.op.toNat + 2 ^ 14 * r.slot

/-- Send the combination up, or complete at the top, once every contribution is in. -/
def State.settleReduce (s : State) (slot : Nat) : State :=
  match s.redSlot slot with
  | none => s
  | some r =>
    let own := if s.ownCounts then some (redNeutral r.op.toNat) else (r.operands.find? (fun x => decide (x.1 = 8))).map (·.2)
    if own.isNone ∨ r.sentUp ∨ s.awaitedPorts.any (fun p => !(r.operands.map (·.1)).contains p) then s
    else
      let xs := r.ordered own
      let v := (xs.drop 1).foldl (redCombine r.op.toNat) (xs.headD 0)
      match s.upPort with
      | some u => (s.setRed { r with sentUp := true }).sendOwn [u] 4 0 r.arg (some v.toNat)
      | none => (s.sendOwn s.downPorts 4 1 r.arg (some v.toNat)).redResult (BitVec.ofNat 20 s.moduleId) slot v

/-- A contribution to a slot, from a port or (8) of the module itself. One for an open slot that does not fit it, or
repeats a contributor, is ignored and sets `BARERR` (15 R383); one of the reserved operation opens no slot (log entry 45). -/
def State.contribute (s : State) (from' slot : Nat) (op : BitVec 3) (id : BitVec 11) (x : Word) : State :=
  let r := (s.redSlot slot).getD { slot := slot, op := op, id := id, operands := [], sentUp := false }
  if op = 7 ∧ (s.redSlot slot).isNone then s
  else if r.op ≠ op ∨ r.id ≠ id ∨ r.sentUp ∨ (r.operands.map (·.1)).contains from' then
    { s with tether := { s.tether with barErr := true } }
  else (s.setRed { r with operands := r.operands ++ [(from', x)] }).settleReduce slot

/-- `TREDCTL` (R383). -/
def execTredctl (value : Word) (s : State) : Host.Outcome State Fault Refusal :=
  next (if s.powered 0 then s.contribute 8 (value.extractLsb' 0 2).toNat (value.extractLsb' 2 3) (value.extractLsb' 5 11) s.tether.tred else s)

/-- The body of a REDUCE token. -/
def reduceBody (sub : Nat) (slot : Fin 4) (op : BitVec 3) (id : BitVec 11) (x : Word) : TokenBody :=
  { kind := 4, sub := sub, arg := RedSlot.arg { slot := slot.val, op := op, id := id, operands := [], sentUp := false }, ext := some x.toNat }

/-- `REDUCE_UP` (R380). -/
def execReduceUp (t : TokenIn) (slot : Fin 4) (op : BitVec 3) (id : BitVec 11) (x : Word) (s : State) :
    Host.Outcome State Fault Refusal :=
  next (s.receiveUp t (reduceBody 0 slot op id x) (fun s => s.contribute t.port.val slot.val op id x))

/-- `REDUCE_RESULT` (R380). -/
def execReduceResult (t : TokenIn) (slot : Fin 4) (op : BitVec 3) (id : BitVec 11) (x : Word) (s : State) :
    Host.Outcome State Fault Refusal :=
  next (s.receiveDown t (reduceBody 1 slot op id x) (fun s =>
    let r : RedSlot := { slot := slot.val, op := op, id := id, operands := [], sentUp := false }
    (s.passOn t s.downPorts 4 1 r.arg (some x.toNat)).redResult t.origin slot.val x))

end Sys2Proof.Machine
end

