-- ==== Sys2Proof/Machine/Calibration.lean ====
section
/-! DEFINITION. The calibration store: its two directory copies, byte by byte, the data of its entries, and the order of an
overwrite (02 R67 to R70). -/

namespace Sys2Proof.Machine

/-- An entry of a directory (02 R67). -/
structure CalEntry where
  type : Nat
  inst : Nat
  origin : Nat
  off : Nat
  len : Nat
  crc : Nat
  writes : Nat
  stamp : Nat
deriving DecidableEq, Repr

/-! ## A directory copy -/

/-- The 32 bytes of an entry. -/
def CalEntry.bytes (e : CalEntry) : List Byte :=
  leBytes 2 e.type ++ leBytes 2 e.inst ++ leBytes 1 e.origin ++ leBytes 3 0 ++ leBytes 4 e.off ++ leBytes 4 e.len ++ leBytes 4 e.crc
    ++ leBytes 4 e.writes ++ leBytes 8 e.stamp

/-- The entry at an offset of a directory copy. -/
def calEntryAt (b : List Byte) (o : Nat) : CalEntry :=
  { type := rd b o 2, inst := rd b (o + 2) 2, origin := rd b (o + 4) 1, off := rd b (o + 8) 4, len := rd b (o + 12) 4
    crc := rd b (o + 16) 4, writes := rd b (o + 20) 4, stamp := rd b (o + 24) 8 }

/-- `ENTRIES` and `SEQ` of a directory copy. -/
def calCount (b : List Byte) : Nat := rd b 6 2
def calSeq (b : List Byte) : Nat := rd b 8 4

/-- `DIRCRC` of a copy: over the header, with `DIRCRC` taken as 0, and all entries. -/
def calDirCrc (b : List Byte) : Nat := crc32c ((splice b 12 (leBytes 4 0)).take (32 + 32 * calCount b))

/-- A copy is valid when its `MAGIC` matches and its `DIRCRC` checks; it holds at most 1,024 entries. -/
def calDirValid (b : List Byte) : Bool :=
  decide (rd b 0 4 = 0x53435846) && decide (calCount b ≤ 1024) && decide (32 + 32 * calCount b ≤ b.length) && decide (calDirCrc b = rd b 12 4)

/-- A directory copy of a sequence number, a serial number and entries. -/
def calDirOf (seq : Nat) (serial : List Byte) (es : List CalEntry) : List Byte :=
  let b := leBytes 4 0x53435846 ++ leBytes 2 1 ++ leBytes 2 es.length ++ leBytes 4 seq ++ leBytes 4 0 ++ fitTo 0 16 serial ++ es.flatMap CalEntry.bytes
  splice b 12 (leBytes 4 (calDirCrc b))

/-! ## The store -/

/-- Whether the copy at 1_0000h governs: it is valid, and the other is not or has the smaller `SEQ`. -/
def Calib.governsB (c : Calib) : Bool := calDirValid c.dirB && (!calDirValid c.dirA || decide (calSeq c.dirA < calSeq c.dirB))

/-- The copy that governs; empty where neither is valid. -/
def Calib.dir (c : Calib) : List Byte := if c.governsB then c.dirB else if calDirValid c.dirA then c.dirA else []

def Calib.seq (c : Calib) : Nat := calSeq c.dir

/-- `SERIAL` of the directory. -/
def Calib.serial (c : Calib) : List Byte := if c.dir = [] then Config.serial else (c.dir.drop 16).take 16

/-- The entries of the directory. -/
def Calib.entries (c : Calib) : List CalEntry := (countFrom 0 (calCount c.dir)).map (fun i => calEntryAt c.dir (32 + 32 * i))

/-- The entry with a type and an instance. -/
def Calib.find (c : Calib) (type inst : Nat) : Option CalEntry := c.entries.find? (fun e => decide (e.type = type ∧ e.inst = inst))

/-- The data of an entry; bytes that nothing has written read as erased. -/
def Calib.dataOf (c : Calib) (e : CalEntry) : List Byte := fitTo 0xFF e.len (mget [] c.data e.off)

/-- The data of a type and an instance, where the entry is there and its `CRC` checks (02 R68). -/
def Calib.good (c : Calib) (type inst : Nat) : Option (List Byte) :=
  match c.find type inst with
  | some e => if crc32c (c.dataOf e) = e.crc then some (c.dataOf e) else none
  | none => none

/-- Round up to 4 KiB. -/
def calPages (n : Nat) : Nat := (n + 4095) / 4096 * 4096

/-- The room of data of a length: whole pages, one for data of no byte, so that no two entries have one `OFFSET` (log entry 54). -/
def calRoom (n : Nat) : Nat := calPages (max 1 n)

/-- Free space for data of a length: the lowest 4 KiB boundary from 2_0000h on where it meets no entry's data and ends
within the 64 MiB (02 R67, R69; log entry 54). -/
def calFree (es : List CalEntry) (n : Nat) : Option Nat :=
  let fits (o : Nat) : Bool := decide (o + n ≤ 0x4000000) && es.all (fun e => decide (o + calRoom n ≤ e.off) || decide (e.off + calRoom e.len ≤ o))
  let at' := (0x20000 :: es.map (fun e => max 0x20000 (calPages (e.off + max 1 e.len)))).filter fits
  at'.foldl (fun (m : Option Nat) o => some (min (m.getD o) o)) none

/-- Write an entry: the new data to free space, a directory copy with `SEQ` + 1 over the older copy, the former data erased
(02 R69). Nothing changes where there is no room. -/
def Calib.put (c : Calib) (type inst origin writes stamp : Nat) (data : List Byte) : Option Calib :=
  let es := c.entries
  let old := c.find type inst
  match calFree es data.length with
  | none => none
  | some o =>
    if old.isNone ∧ 1024 ≤ es.length then none
    else
      let e : CalEntry := { type := type, inst := inst, origin := origin, off := o, len := data.length, crc := crc32c data, writes := writes, stamp := stamp }
      let es1 := if old.isSome then es.map (fun x => if x.type = type ∧ x.inst = inst then e else x) else es ++ [e]
      let b := calDirOf (c.seq + 1) c.serial es1
      let d := mset [] c.data o data
      let d1 := match old with
        | some x => merase x.off d
        | none => d
      some (if c.governsB then { c with dirA := b, data := d1 } else { c with dirB := b, data := d1 })

/-- Write an entry where there is room. -/
def Calib.tryPut (c : Calib) (type inst origin writes stamp : Nat) (data : List Byte) : Calib := (c.put type inst origin writes stamp data).getD c

/-- What of the set read at start-up is missing or bad (02 R68). -/
def State.calBad (s : State) (type inst : Nat) : Bool := (s.calRun.good type inst).isNone

end Sys2Proof.Machine
end

