-- ==== Sys2Proof/Machine/Tiers.lean ====
section
/-! DEFINITION. The memory tiers: ECC outcomes, poison, seals, the seal engine, row remapping, granule retirement, page
moves, the links to the memory, and acknowledgement of machine-check records (01 R21; 14 R327 to R353; 18 R433). -/

namespace Sys2Proof.Machine

/-! ## Places in a tier (14 R328, R331, R340) -/

/-- The block and tile index of a DRAM address, seal regions among them. -/
def State.dramTile (s : State) (a : Nat) : Option (MemBlockId × Nat) :=
  if a < 0x9000000000 then
    let (d, off) := tier1Place s.interleaved a
    some (.mb (Fin.ofNat 4 d), off / 4096)
  else if 0x10000000000 ≤ a ∧ a < 0x28000000000 then some (.hd, tier2Tile a)
  else none

/-- The tile of the DRAM that serves a tile: one of a page that a move has redirected lies in its slot (14 R352). -/
def State.dramPlace (s : State) (b : MemBlockId) (t : Nat) : Nat :=
  match (s.block b).redirects.find? (fun r => decide (r.page = t / 0x40000)) with
  | some r => s.poolPage b r.slot * 0x40000 + t % 0x40000
  | none => t

/-- The tile that a tile of the DRAM serves. -/
def State.logicalTile (s : State) (b : MemBlockId) (t : Nat) : Nat :=
  match (s.block b).redirects.find? (fun r => decide (s.poolPage b r.slot = t / 0x40000)) with
  | some r => r.page * 0x40000 + t % 0x40000
  | none => t

/-- The number of tiles of a block. -/
def blockTiles : MemBlockId → Nat
  | .mb _ => 0x2400000
  | .hd => 0x18000000

/-- A tile lies in a seal region. -/
def sealTile : MemBlockId → Nat → Bool
  | .mb _, t => decide (0x23F7000 ≤ t)
  | .hd, t => decide (0x17FA0000 ≤ t)

/-- Where the seal of a tile is stored (14 R334): four bytes in the seal region of its tier. -/
def State.sealAddr (s : State) : MemBlockId → Nat → Nat
  | .mb d, t => tier1Addr s.interleaved d.val (0x23F7000000 + 4 * t)
  | .hd, t => 0x27FA0000000 + 4 * t

/-- The number of a stack or channel in `State.dram`. -/
def stackKey : MemBlockId → Nat → Nat
  | .mb d, st => d.val * 4 + st
  | .hd, c => 16 + c

/-- The granule of a tile: stack * 589,824 + G in an MB, channel * 2^24 + g in tier 2 (R328, R331). -/
def tileGranule : MemBlockId → Nat → Nat
  | .mb _, t => t % 4 * 589824 + t / 4 / 16
  | .hd, t => t % 12 * 2 ^ 24 + t / 12 / 16

/-- The lowest tile of a granule. -/
def granuleTile : MemBlockId → Nat → Nat
  | .mb _, g => g % 589824 * 64 + g / 589824
  | .hd, g => 192 * (g % 2 ^ 24) + g / 2 ^ 24

/-- A row of a stack as a number: channel, pseudo-channel, bank, row (R328). -/
def rowKey (t line : Nat) : Nat :=
  let g := t / 4 / 16
  ((line * 2 + t / 4 % 2) * 48 + g % 48) * 12288 + g / 48

def rowBank (r : Nat) : Nat := r / 12288

/-- The granule of a row of a stack. -/
def rowGranule (stack r : Nat) : Nat := stack * 589824 + r % 12288 * 48 + r / 12288 % 48

/-- The tile that holds line `l` of a row of a stack (R328). -/
def rowTile (stack r l : Nat) : Nat := 4 * (16 * (r % 12288 * 48 + r / 12288 % 48) + 2 * l + r / 12288 / 48 % 2) + stack

/-- The channel of a row of a stack, which is the number of its lines in their tiles. -/
def rowChannel (r : Nat) : Nat := r / 12288 / 48 / 2

/-! ## The field-repair log (14 R348, 02 R67 to R70) -/

/-- The calibration instance of a block's log. -/
def logInstance : MemBlockId → Nat
  | .mb d => d.val
  | .hd => 4

/-- Append an entry to a log; a full one raises a record and takes nothing. A log that is missing or bad counts as empty
(02 R68). -/
def State.logRepair (s0 : State) (b : MemBlockId) (w0 : Nat) : State :=
  let s := s0.sampleCounter
  let i := logInstance b
  let log := (s.calib.good 8 i).getD []
  if 8192 * 16 ≤ log.length then
    s.report (mkRec (blockDie b) 0x9000 0x12 1 0 i)
  else
    let entry := leBytes 8 w0 ++ leBytes 4 s.power.startUps ++ leBytes 4 (s.power.counter.toNat / 25000000)
    let old := s.calib.find 8 i
    { s with calib := s.calib.tryPut 8 i 2 ((old.map (·.writes)).getD 0) ((old.map (·.stamp)).getD 0) (log ++ entry) }

/-- A log word of a row: kind, stack, channel, pseudo-channel, bank, row, spare. -/
def rowLogWord (kind stack r spare : Nat) : Nat :=
  let cp := r / 12288 / 48
  kind + 16 * stack + 256 * (cp / 2) + 2 ^ 13 * (cp % 2) + 2 ^ 14 * (r / 12288 % 48) + 2 ^ 20 * (r % 12288) + 2 ^ 34 * spare

/-- A log word of a tier 2 row: kind, tier 2 channel, LPDDR5X channel by channel-local offset [9:7] (14 R331), granule. DESIGN CHOICE
(log entry 60): `BANK` holds the 6 low bits of the granule, `ROW` the 14 bits above them, and `SPARE`, which these entries do not use, the
21st bit. -/
def tier2LogWord (kind g chan : Nat) : Nat :=
  kind + 16 * (g / 2 ^ 24) + 256 * chan + 2 ^ 14 * (g % 64) + 2 ^ 20 * (g / 64 % 2 ^ 14) + 2 ^ 34 * (g / 2 ^ 20 % 2)

/-- The granule that a tier 2 log word names (log entry 60). -/
def tier2Granule (w : Nat) : Nat := bits w 4 4 * 2 ^ 24 + bits w 34 1 * 2 ^ 20 + bits w 20 14 * 64 + bits w 14 6

/-! ## Poison (14 R332, R337, R338) -/

/-- Entries of the poison table. -/
def MemBlock.poisonUsed (k : MemBlock) : Nat := k.poison.length + k.retired.length

def poisonCapacity : MemBlockId → Nat
  | .mb _ => 1024
  | .hd => 4096

/-- The record of a block's controller. -/
def tierRec (b : MemBlockId) (t cls sev detail : Nat) (pa : Nat) : McRec :=
  { mkRec (blockDie b) (0x9000 + tileStack b t) cls sev 0 detail with paddr := pa }

/-- A full poison table fail-stops the module. -/
def State.poisonFull (s : State) (b : MemBlockId) (t : Nat) : State := s.report (tierRec b t 0x10 3 0 (s.tileAddr b t))

/-- A tile enters the poison table; `src` is what found it, `cls` and `detail` those of its record. -/
def State.poisonDram (s : State) (b : MemBlockId) (t src cls detail pa : Nat) : State :=
  let k := s.block b
  let old := mget PoisonTile.reset k.poison t
  if !old.present ∧ poisonCapacity b ≤ k.poisonUsed then s.poisonFull b t
  else
    (s.bump.setBlock b { k with
      poison := mset PoisonTile.reset k.poison t { present := true, written := 0, stamp := s.fresh }
      poisNew := satAdd k.poisNew 1, lastTile := BitVec.ofNat 32 t, lastSrc := BitVec.ofNat 4 src }).report (tierRec b t cls 1 detail pa)

/-! ## Retirement (14 R350) -/

/-- Retire a granule: poison table, the log with the word of its failing row, `RETQ`, record. -/
def State.retireGranule (s : State) (b : MemBlockId) (g word : Nat) : State :=
  let k := s.block b
  let t := granuleTile b g
  if k.retired.contains g then s
  else if poisonCapacity b ≤ k.poisonUsed then s.poisonFull b t
  else
    let s1 := s.setBlock b { k with
      retired := k.retired ++ [g]
      retq := if k.retq.length < 16 then k.retq ++ [g] else k.retq, retLost := k.retLost || decide (16 ≤ k.retq.length) }
    (s1.logRepair b word).report (tierRec b t 0x11 1 0 (s.tileAddr b t))

/-- A read of `RETQ`: the value, and the state without the record that it pops. -/
def State.popRetq (s : State) (b : MemBlockId) : Word × State :=
  let k := s.block b
  let lost := 4 * b2n k.retLost
  match k.retq with
  | [] => (BitVec.ofNat 64 lost, s.setBlock b { k with retLost := false })
  | g :: rest =>
    let t := granuleTile b g
    (BitVec.ofNat 64 (1 + 2 * b2n (sealTile b t) + lost + s.tileAddr b t / 4096 * 4096), s.setBlock b { k with retq := rest, retLost := false })

/-- `RETQ_READ` (R350). -/
def execRetqRead (b : MemBlockId) (s : State) : Host.Outcome State Fault Refusal :=
  let (w, s1) := s.popRetq b
  next { s1 with busOut := leBytes 8 w.toNat }

/-! ## Reads of the DRAM (14 R332, R344) -/

/-- Count a corrected read in a tracker of 256 rows; a new row replaces the entry with the lowest count. -/
def trackRow (l : List (Nat × Nat)) (r : Nat) : List (Nat × Nat) × Nat :=
  match l.find? (fun x => decide (x.1 = r)) with
  | some x => (l.map (fun y => if y.1 = r then (r, y.2 + 1) else y), x.2 + 1)
  | none =>
    if l.length < 256 then (l ++ [(r, 1)], 1)
    else
      let low := l.foldl (fun m y => min m y.2) (l.headD (0, 0)).2
      match l.find? (fun y => decide (y.2 = low)) with
      | some y => (l.erase y ++ [(r, 1)], 1)
      | none => (l, 1)

/-- The row that holds a line of a tile of the DRAM asks for a remap; in tier 2 its granule retires at once (R331, R344, R350). -/
def State.askRemap (s : State) (b : MemBlockId) (t line : Nat) : State :=
  match b with
  | .hd => s.retireGranule b (tileGranule b t) (tier2LogWord 3 (tileGranule b t) (line % 8))
  | .mb _ =>
    let k := s.block b
    let q : RemapReq := { stack := t % 4, row := rowKey t line }
    if k.autoDis ∨ k.remaps.any (fun x => decide (x.stack = q.stack ∧ x.row = q.row)) then s
    else s.setBlock b { k with remaps := k.remaps ++ [q] }

/-- One DRAM read of a line of a tile with an outcome. Counts, remaps and retirement concern the row that serves it, a slot's where
the page has been moved; poison concerns the tile. -/
def State.dramOutcome (s : State) (b : MemBlockId) (t line : Nat) (o : DramOutcome) : State :=
  let pa := s.tileAddr b t + 128 * line
  let at' := s.dramPlace b t
  match o with
  | .clean => s
  | .corrected multi =>
    let k := s.block b
    let s1 := (s.setBlock b { k with eccCe := satAdd k.eccCe 1 }).report (tierRec b t 0x01 0 0 pa)
    let n := stackKey b (tileStack b at')
    match b with
    | .hd => if multi then s1.askRemap b at' line else s1
    | .mb _ =>
      let x := s1.stack n
      let (l, c) := trackRow x.tracker (rowKey at' line)
      let s2 := s1.setStack n { x with tracker := l }
      if multi ∨ k.remapThresh.toNat ≤ c then s2.askRemap b at' line else s2
  | .uncorrectable => (s.poisonDram b t 6 0x02 0 pa).askRemap b at' line

/-- `DRAM_READ` (R332). -/
def execDramRead (addr : BitVec 52) (outcome : DramOutcome) (s : State) : Host.Outcome State Fault Refusal :=
  match s.dramTile addr.toNat with
  | some (b, t) => next (s.dramOutcome b t (addr.toNat % 4096 / 128) outcome)
  | none => next s

/-- `DRAM_LINE_WRITE` (R335): a line write reaches its controller; the seal follows the contents. -/
def execDramLineWrite (addr : BitVec 52) (data : List Byte) (s : State) : Host.Outcome State Fault Refusal :=
  let line := lineOf addr.toNat
  if (s.kindAt addr.toNat).normal ∧ data.length = 128 ∧ !s.isDirty line then next (s.dramWrite line data true) else next s

/-- `SEAL_CACHE_EVICT` (R335). -/
def execSealCacheEvict (b : MemBlockId) (tile : Nat) (s : State) : Host.Outcome State Fault Refusal :=
  let k := s.block b
  next (s.setBlock b { k with sealCache := k.sealCache.filter (fun x => decide (x.1 ≠ tile)) })

/-! ## Seal-verifying reads (14 R336, R337) -/

/-- `SEALLAST.SRC` of a reader; the copier has no code: a free value (log entry 47). -/
def readerSrc (free : Nat) : SealReader → Nat
  | .feeder _ => 1
  | .engine _ => 2
  | .mover _ => 3
  | .sealEngine _ => 4
  | .copier => free % 16

/-- What the comparison finds, for a source: a retry that clears is counted, a mismatch that persists poisons the tile. -/
def State.sealOutcome (s : State) (b : MemBlockId) (t src : Nat) (o : SealOutcome) : State :=
  let pa := s.tileAddr b t
  match o with
  | .agrees => s
  | .clears =>
    let k := s.block b
    (s.setBlock b { k with retryOk := satAdd k.retryOk 1 }).report (tierRec b t 0x03 0 0 pa)
  | .persists => s.poisonDram b t src 0x04 src pa

/-- The access of a mover that met a seal mismatch of the tile at `pa` (12 R295): the first line in the tile that the rest of the row
in execution reads, with its physical address; the line at `DONE` where the row reads none of it. -/
def State.sealPlace (s : State) (m : MoverId) (pa : Nat) : Nat × Nat :=
  let x := s.mover m
  let from' := (dSrc x.desc x.row + x.done.toNat) % 2 ^ 64
  let found := (rangePieces from' (dLen x.desc - x.done.toNat)).filterMap (fun p =>
    match (s.agentLocate (moverEtu m) (s.moverCtx m) .read [(p.1, 1)]).1 with
    | .ok l => let a := (l.headD (0, 0)).1
               if a / 4096 = pa / 4096 then some (p.1 - p.1 % 128, a - a % 128) else none
    | .error _ => none)
  found.headD (from' - from' % 128, pa)

/-- What a consumer does with a mismatch that persists (R337). -/
def State.sealFails (s : State) (who : SealReader) (pa : Nat) : State :=
  match who with
  | .feeder p => let l := s.lead p
                 if (s.quad l).bound ∧ !(s.quad l).fault then s.partFails l 1 none else s
  | .engine e =>
    match (s.engine e).queue with
    | c :: _ =>
      if !s.engineWorks e ∨ (s.engine e).ringParked ∨ c.phase = .issued ∨ c.phase = .ended then s
      else
        let (c1, s1) := s.startHead e c
        (s1.modHead e (fun _ => c1)).endHead e 0x0B
    | [] => s
  | .mover m =>
    let x := s.mover m
    if x.st = .run ∧ x.desc ≠ [] then
      let (va, at') := s.sealPlace m pa
      s.haltMover m 5 false va (some at')
    else s
  | .sealEngine b =>
    let k := s.block b
    match k.seCmd with
    | some c => if c.op = 2 then s.setBlock b { k with seMismatch := satAdd k.seMismatch 1 } else s
    | none => s
  | .copier => s

/-- Whether a reader verifies the seals of what it reads (14 R336): a mover does with `SEALCHK` = 1 alone, the copier while an epoch is
copied and in a rollback (16 R389, R402). -/
def State.verifies (s : State) : SealReader → Bool
  | .mover m => bit (dW (s.mover m).desc 0) 4
  | .copier => decide (s.snap.phase = .copy ∨ s.snap.phase = .stopped)
  | _ => true

/-- `SEAL_VERIFYING_READ` (R336): the tile is cleaned (01 R32), read and compared. -/
def execSealVerifyingRead (addr : BitVec 52) (who : SealReader) (cmp : SealOutcome) (s : State) : Host.Outcome State Fault Refusal :=
  let a := addr.toNat
  if !(s.kindAt a).normal ∨ !s.verifies who then next s
  else match s.tileOf a with
  | none => next s
  | some (b, t) =>
    let s1 := (s.cleanTile (s.tileAddr b t)).bump.sealOutcome b t (readerSrc (Config.freeWord s.fresh).toNat who) cmp
    next (if cmp = .persists then s1.sealFails who (s.tileAddr b t) else s1)

/-- `PATROL` (R339): the next tile of the tier; at the end of a period the trackers are cleared (R344). -/
def execPatrol (b : MemBlockId) (line : Fin 32) (outcome : DramOutcome) (cmp : SealOutcome) (s : State) : Host.Outcome State Fault Refusal :=
  let t := (s.block b).patrol
  let s1 := s.dramOutcome b t line.val outcome
  let s2 := if sealTile b t then s1 else s1.sealOutcome b t 5 cmp
  let t' := (t + 1) % blockTiles b
  let s3 := s2.setBlock b { s2.block b with patrol := t' }
  next (if t' = 0 then
      (countFrom 0 12).foldl (fun (s : State) i =>
        let n := stackKey b (match b with
          | .mb _ => i % 4
          | .hd => i)
        s.setStack n { s.stack n with tracker := [] }) s3
    else s3)

/-! ## Row remapping (14 R343 to R346) -/

/-- The spare that a row is mapped to. -/
def StackState.spareOf (x : StackState) (r : Nat) : Option Nat :=
  let v := mget 8 x.cam r
  if v = 8 then none else some v

/-- The lowest free spare of a bank. -/
def StackState.freeSpare (x : StackState) (bank : Nat) : Option Nat :=
  (countFrom 0 8).find? (fun i =>
    !x.badSpares.contains (bank * 8 + i) && !x.cam.any (fun e => decide (rowBank e.1 = bank) && decide (e.2 = i)))

/-- The banks without a free spare; a bank is a number of channel, pseudo-channel and bank. -/
def StackState.exhausted (x : StackState) : List Nat :=
  ((x.cam.map (fun (e : Nat × Nat) => rowBank e.1) ++ x.badSpares.map (· / 8)).eraseDups).filter (fun k => (x.freeSpare k).isNone)

/-- Lines of a failing row that are uncorrectable are copied as read, and their tiles enter the poison table (R345 step 2). -/
def State.copyRow (s : State) (b : MemBlockId) (q : RemapReq) (bad : List (Fin 8)) : State :=
  bad.foldl (fun (s : State) l =>
    let t := s.logicalTile b (rowTile q.stack q.row l.val)
    s.poisonDram b t 6 0x02 0 (s.tileAddr b t + 128 * rowChannel q.row)) s

/-- `REMAPLAST` of a remap (14 R347). -/
def remapLast (row spare : Nat) (repeated uncorr : Bool) : BitVec 64 :=
  BitVec.ofNat 64 (rowChannel row + 2 ^ 5 * (row / 12288 / 48 % 2) + 2 ^ 6 * (row / 12288 % 48) + 2 ^ 12 * (row % 12288) + 2 ^ 26 * spare
    + 2 ^ 29 * b2n repeated + 2 ^ 30 * b2n uncorr)

/-- The oldest waiting remap of a block: its row is copied to a free spare, the CAM entry is set, and the log entries are asked for;
without a free spare, the granule retires (14 R345, R346). -/
def State.remapHead (s : State) (d : Fin 4) (q : RemapReq) (bad : List (Fin 8)) : State :=
  let b : MemBlockId := .mb d
  let n := stackKey b q.stack
  let x := s.stack n
  let old := x.spareOf q.row
  let x1 := match old with
    | some i => { x with badSpares := addNew (rowBank q.row * 8 + i) x.badSpares }
    | none => x
  match x1.freeSpare (rowBank q.row) with
  | none => s.retireGranule b (rowGranule q.stack q.row) (rowLogWord 3 q.stack q.row 0)
  | some i =>
    let s1 := (s.copyRow b q bad).setStack n { x1 with
      cam := mset 8 x1.cam q.row i, newRemap := satAdd x1.newRemap 1, lastRow := remapLast q.row i old.isSome (decide (bad ≠ [])) }
    s1.setBlock b { s1.block b with
      unlogged := (old.toList.map (fun j => rowLogWord 2 q.stack q.row j)) ++ [rowLogWord 1 q.stack q.row i] }

/-- One stage of the row remapping of a block (14 R345): first the log entries of a remap that has been made (step 5), else the
oldest waiting remap (steps 1 to 4). A stop abandons a remap that waits; while `AUTODIS` = 1 none is made. Between the two stages a
loss of power leaves the remap unlogged. -/
def State.remapRow (s : State) (b : MemBlockId) (bad : List (Fin 8)) : State :=
  let k := s.block b
  match b, k.unlogged, k.remaps with
  | .hd, _, _ => s
  | .mb _, w :: ws, _ => (w :: ws).foldl (fun (s : State) w => s.logRepair b w) (s.setBlock b { k with unlogged := [] })
  | .mb _, [], [] => s
  | .mb d, [], q :: rest =>
    if s.frozen ∨ s.power.failStop.isSome then s.setBlock b { k with remaps := rest }
    else if k.autoDis then s
    else (s.setBlock b { k with remaps := rest }).remapHead d q bad

/-- `ROW_REMAP` (R345): `bad` are the lines of the row that are uncorrectable while it is copied. -/
def execRowRemap (b : MemBlockId) (bad : List (Fin 8)) (s : State) : Host.Outcome State Fault Refusal := next (s.remapRow b bad)

/-! ## Reload at start-up (14 R349) -/

/-- Apply one entry of a block's log. -/
def State.applyRepair (s : State) (b : MemBlockId) (w : Nat) : State :=
  let st := bits w 4 4
  let n := stackKey b st
  let x := s.stack n
  let k := s.block b
  let row := ((bits w 8 5 * 2 + bits w 13 1) * 48 + bits w 14 6) * 12288 + bits w 20 14
  let g := match b with
    | .mb _ => rowGranule st row
    | .hd => tier2Granule w
  match bits w 0 4 with
  | 1 => match b with
    | .mb _ => s.setStack n { x with cam := mset 8 x.cam row (bits w 34 3) }
    | .hd => s
  | 2 => match b with
    | .mb _ => s.setStack n { x with badSpares := addNew (rowBank row * 8 + bits w 34 3) x.badSpares }
    | .hd => s
  | 3 => s.setBlock b { k with retired := addNew g k.retired }
  | 4 => s.setBlock b { k with redirects := k.redirects.filter (fun r => decide (r.page ≠ bits w 37 11)) ++ [{ page := bits w 37 11, slot := bits w 48 2 }] }
  | 5 => match b with
    | .mb _ => s.setStack n { x with cam := mset 8 x.cam row 8 }
    | .hd => s.setBlock b { k with retired := without g k.retired }
  | _ => s

/-- The 16-byte entries of a log. -/
def logWords : Nat → List Byte → List Nat
  | 0, _ => []
  | fuel + 1, l => if l.length < 16 then [] else leNat (l.take 8) :: logWords fuel (l.drop 16)

/-- Reload the repairs of a block from its log; a log that is missing or bad counts as empty (02 R68). -/
def State.reloadRepairs (s : State) (b : MemBlockId) : State :=
  let log := (s.calib.good 8 (logInstance b)).getD []
  (logWords (log.length / 16) log).foldl (fun (s : State) w => s.applyRepair b w) s

/-! ## The seal engine (14 R342, R352, R353) -/

/-- A range of physical memory lies in net tier 1 or net tier 2 (01 R26; 02 R48). -/
def State.netRange (s : State) (a n : Nat) : Bool :=
  (s.kindAt a).normal && (s.kindAt (a + n - 1)).normal && (s.permitted false).any (fun r => decide (r.1 ≤ a) && decide (a + n - 1 ≤ r.2))
  && !s.slotInUse a && !s.slotInUse (a + n - 1)

/-- The die whose directory serves a block. -/
def blockEtu : MemBlockId → EtuId
  | .mb d => .cd d
  | .hd => .hd

/-- The fill class of the writes of a seal engine: that of the movers of its die (log entry 25). -/
def blockClass : MemBlockId → FillClass
  | .mb _ => 3
  | .hd => 1

/-- A command begins to run: it reports at its completion. -/
def State.seStart (s : State) (b : MemBlockId) (value : Word) (op result done : Nat) : State :=
  let k := s.block b
  s.setBlock b { k with seBusy := true, seMismatch := 0, seCmd := some { op := op, irq := value.getLsbD 8, result := BitVec.ofNat 8 result, done := done } }

/-- The tile range of a command: its first tile and count, or none where it does not lie in the tier. -/
def MemBlock.range (k : MemBlock) (b : MemBlockId) : Option (Nat × Nat) :=
  let f := k.seStart.toNat % 2 ^ 32
  let n := k.seCount.toNat % 2 ^ 17
  if 1 ≤ n ∧ n ≤ 65536 ∧ f + n ≤ blockTiles b then some (f, n) else none

/-- A line of a seal region is delivered with the poison bit. -/
def State.sealPoison (s : State) (b : MemBlockId) (a : Nat) : Bool :=
  match s.dramTile a with
  | some (_, t) => let e := mget PoisonTile.reset (s.block b).poison t
                   e.present && !e.written.getLsbD (lineOf a % 32)
  | none => false

/-- A line of a seal region that is delivered with the poison bit: what tells its poisoning from others. -/
def State.sealStamp (s : State) (b : MemBlockId) (a : Nat) : Option Nat :=
  if s.sealPoison b a then (s.dramTile a).map (fun x => (mget PoisonTile.reset (s.block b).poison x.2).stamp) else none

/-- The stored seal of a tile: the CRC-32C of the contents; 0 in a seal region. That of a poisoned tile differs from it by a free value that
stays while the tile is poisoned; one whose own line is poisoned is free (log entry 27). -/
def State.sealOf (s : State) (b : MemBlockId) (t : Nat) : Nat :=
  if sealTile b t then 0
  else match s.sealStamp b (s.sealAddr b t) with
  | some n => (Config.freeWord (n + 2 ^ 64 * (t + 1))).toNat % 2 ^ 32
  | none =>
    let e := mget PoisonTile.reset (s.block b).poison t
    let crc := crc32c (memReads s.mem (s.tileAddr b t) 4096)
    if e.present then crc ^^^ (Config.freeWord e.stamp).toNat % 2 ^ 32 else crc

/-- Write an output of the seal engine to `BUF`, where it is a legal buffer; the answer is the result code. -/
def State.seWrite (s : State) (b : MemBlockId) (data : List Byte) : Nat × State :=
  let buf := (s.block b).seBuf.toNat % 2 ^ 52
  if buf % 16 ≠ 0 then (1, s)
  else if data ≠ [] ∧ !s.netRange buf data.length then (3, s)
  else (0, s.writeMem (blockEtu b) (blockClass b) buf data)

/-- `READSEAL`. -/
def State.readSeal (s : State) (b : MemBlockId) (value : Word) : State :=
  let k := s.block b
  if k.seBusy then s
  else match k.range b with
  | none => s.seStart b value 1 1 0
  | some (f, n) =>
    let (r, s1) := s.seWrite b ((countFrom f n).flatMap (fun t => leBytes 4 (s.sealOf b t)))
    s1.bump.seStart b value 1 r (if r = 0 then n else 0)

/-- `READSEAL` (R342). -/
def execReadseal (b : MemBlockId) (value : Word) (s : State) : Host.Outcome State Fault Refusal := next (s.readSeal b value)

/-- `VERIFY`: its reads follow as seal-verifying reads of the seal engine. -/
def State.sealVerify (s : State) (b : MemBlockId) (value : Word) : State :=
  let k := s.block b
  if k.seBusy then s
  else match k.range b with
  | none => s.seStart b value 2 1 0
  | some (f, n) =>
    ((countFrom f n).foldl (fun (s : State) t => if sealTile b t then s else s.cleanTile (s.tileAddr b t)) s).seStart b value 2 0 n

/-- `VERIFY` (R342). -/
def execVerify (b : MemBlockId) (value : Word) (s : State) : Host.Outcome State Fault Refusal := next (s.sealVerify b value)

/-- `LISTPOISON`. -/
def State.listPoison (s : State) (b : MemBlockId) (value : Word) : State :=
  let k := s.block b
  if k.seBusy then s
  else
    let ents := k.poison.map (fun x => leBytes 8 x.1) ++ k.retired.map (fun g => leBytes 8 (granuleTile b g + 2 ^ 32))
    let (r, s1) := s.seWrite b ents.flatten
    s1.seStart b value 3 r (if r = 0 then ents.length else 0)

/-- `LISTPOISON` (R342). -/
def execListpoison (b : MemBlockId) (value : Word) (s : State) : Host.Outcome State Fault Refusal := next (s.listPoison b value)

/-- A tile is resealed: its entry leaves the poison table. What the lines hold that nothing has written since is whatever
the failing DRAM holds: free bytes (log entry 42). -/
def State.resealTile (s : State) (b : MemBlockId) (t : Nat) : State :=
  let k := s.block b
  let e := mget PoisonTile.reset k.poison t
  if !e.present then s
  else
    let s1 := (countFrom 0 32).foldl (fun (s : State) l =>
      if e.written.getLsbD l then s
      else { s with
        mem := memWrites s.mem (s.tileAddr b t + 128 * l) ((countFrom (128 * l) 128).map (Config.freeByte s.fresh)) }) s
    (s1.setBlock b { k with poison := mset PoisonTile.reset k.poison t PoisonTile.reset }).bump

/-- `RESEAL`: in maintenance mode alone. -/
def State.reseal (s : State) (b : MemBlockId) (value : Word) : State :=
  let k := s.block b
  if k.seBusy then s
  else if !(s.etu (blockEtu b)).maint then s.seStart b value 4 2 0
  else match k.range b with
  | none => s.seStart b value 4 1 0
  | some (f, n) => ((countFrom f n).foldl (fun (s : State) t => s.resealTile b t) s).seStart b value 4 0 n

/-- `RESEAL` (R342). -/
def execReseal (b : MemBlockId) (value : Word) (s : State) : Host.Outcome State Fault Refusal := next (s.reseal b value)

/-- `SEAL_ENGINE_COMMAND_COMPLETE` (R342): the running command reports. -/
def execSealEngineCommandComplete (b : MemBlockId) (s : State) : Host.Outcome State Fault Refusal :=
  let k := s.block b
  match k.seCmd with
  | none => next s
  | some c =>
    let s1 := s.setBlock b { k with seBusy := false, seCmd := none, seResult := c.result, seDone := BitVec.ofNat 32 c.done }
    next (if c.irq then s1.hicSource (0xE0 + blockKey b) else s1)

/-- A command that ends at once with a result and does nothing else, with its completion message (14 R342). -/
def State.seRefuse (s : State) (b : MemBlockId) (value : Word) (code : Nat) : State :=
  let s1 := s.setBlock b { s.block b with seResult := BitVec.ofNat 8 code }
  if value.getLsbD 8 then s1.hicSource (0xE0 + blockKey b) else s1

/-- The source pages of a block. -/
def blockPages : MemBlockId → Nat
  | .mb _ => 144
  | .hd => 1536

/-- `MOVE` (R352): checks, then the redirection at once; the copy goes on behind it. -/
def State.startMove (s : State) (b : MemBlockId) (value : Word) : State :=
  let k := s.block b
  if k.seBusy then s
  else
    let page := bits k.seStart.toNat 0 11
    let slot := bits k.seStart.toNat 11 2
    let refuse (code : Nat) : State := s.seRefuse b value code
    if k.moving.isSome then refuse 5
    else if blockPages b ≤ page ∨ (countFrom 0 4).any (fun i => decide (s.poolPage b i = page)) ∨ bits k.seStart.toNat 13 19 ≠ 0 then refuse 1
    else if k.redirects.any (fun r => decide (r.slot = slot)) then refuse 4
    else s.setBlock b { k with
      redirects := k.redirects.filter (fun r => decide (r.page ≠ page)) ++ [{ page := page, slot := slot }]
      moving := some (page, slot, value.getLsbD 8), seResult := 0, seDone := 0 }

/-- `MOVE` (R352). -/
def execMove (b : MemBlockId) (value : Word) (s : State) : Host.Outcome State Fault Refusal := next (s.startMove b value)

/-- `PAGE_MOVE_COMPLETE` (R352): the log entry of kind 4h, and the report. -/
def execPageMoveComplete (b : MemBlockId) (s : State) : Host.Outcome State Fault Refusal :=
  let k := s.block b
  match k.moving with
  | none => next s
  | some (page, slot, irq) =>
    let s1 := (s.setBlock b { k with moving := none, seResult := 0, seDone := 0x40000 }).logRepair b (4 + 2 ^ 37 * page + 2 ^ 48 * slot)
    next (if irq then s1.hicSource (0xE0 + blockKey b) else s1)

/-! ## Links (01 R21, 14 R333) -/

/-- The CD that follows in the ring order CD0, CD1, CD3, CD2 (01 R18, R19). -/
def ringNext (d : Fin 4) : Fin 4 := match d with
  | 0 => 1
  | 1 => 3
  | 3 => 2
  | 2 => 0

/-- The number of a link, and the die and unit of its two ends (18 R431): HD and a CD, a CD and its successor in the ring, a CD
and its MB. -/
def linkIds : LinkId → Nat × (Nat × Nat) × (Nat × Nat)
  | .hd d => (d.val, (0, 0x8000), (d.val + 1, 0x8000))
  | .ring d => (4 + d.val, (d.val + 1, 0x8001), ((ringNext d).val + 1, 0x8002))
  | .bond d => (8 + d.val, (d.val + 1, 0x8003), (d.val + 5, 0x8003))

/-- The end of a link that receives the flits of a direction, and reports on them: the spec does not say which of the two dies
does (log entry 42). -/
def linkEnd (l : LinkId) (fwd : Bool) : Nat × Nat := if fwd then (linkIds l).2.2 else (linkIds l).2.1

/-- `DIE_LINK_FLIT_RECEIVE` (R21; 14 R333): the next flit that a direction awaits arrives. One that fails its CRC is replayed
and counted; when the eighth consecutive replay of it fails too, the link is down and the module fail-stops. -/
def execDieLinkFlitReceive (l : LinkId) (fwd crcOk : Bool) (s : State) : Host.Outcome State Fault Refusal :=
  let n := (linkIds l).1
  let (die, unit) := linkEnd l fwd
  let x := mget LinkState.reset s.links n
  let failed := if fwd then x.fwd else x.back
  let count (k : Nat) : LinkState := if fwd then { x with fwd := k } else { x with back := k }
  if x.down then next s
  else if crcOk then next { s with links := mset LinkState.reset s.links n (count 0) }
  else if 8 ≤ failed then
    next ({ s with links := mset LinkState.reset s.links n { x with down := true } }.report (mkRec die unit 0x0F 3 0 0))
  else next ({ s with links := mset LinkState.reset s.links n (count (failed + 1)) }.report (mkRec die unit 0x0E 0 0 0))

/-! ## Acknowledgement (18 R433) -/

/-- The record with a sequence number leaves its slot. -/
def State.mcAck (s : State) (die : Nat) (value : Word) : State :=
  let q := s.mcq die
  s.setMcq die { q with slots := q.slots.filter (fun x => decide (x.2.seq ≠ value.extractLsb' 0 16)) }

/-- `MCACK` (R433). -/
def execMcack (die : DieId) (value : Word) (s : State) : Host.Outcome State Fault Refusal := next (s.mcAck die.val value)

end Sys2Proof.Machine
end

