-- ==== Sys2Proof/Machine/Image.lean ====
section
/-! DEFINITION. The image store: loading and validating an image, the flip of one module, and how the sections of an image
are applied (02 R57 to R66). -/

namespace Sys2Proof.Machine

/-! ## The slots (02 R57 to R60) -/

/-- The bytes in ACTIVE, and in SHADOW. -/
def Image.active (i : Image) : List Byte := if i.activeIsB then i.slotB else i.slotA
def Image.shadow (i : Image) : List Byte := if i.activeIsB then i.slotA else i.slotB

/-- Whether an image is in force: ACTIVE is not empty and `NOACTIVE` is 0 (02 R62). -/
def Image.inForce (i : Image) : Bool := decide (i.active ≠ []) && !i.noActive
def State.imageInForce (s : State) : Bool := s.image.inForce

/-- Replace the bytes in SHADOW. -/
def Image.setShadow (i : Image) (b : List Byte) : Image := if i.activeIsB then { i with slotA := b } else { i with slotB := b }

/-- `GENERATION` of a slot; 0 when it is empty. -/
def slotGen (b : List Byte) : Nat := rd b 32 8

/-- The largest image: 4 MiB. -/
def slotSize : Nat := 0x400000

/-- Write bytes into a slot; bytes between that nothing has written read as erased (log entry 46). -/
def slotWrite (b : List Byte) (off : Nat) (data : List Byte) : List Byte := splice (fitTo 0xFF (max off b.length) b) off data

/-- A write into SHADOW by a path: 0 load window, 1 management. none: refused. The first erases the slot (02 R59, R60). -/
def Image.write (i : Image) (mgmt : Bool) (off : Nat) (data : List Byte) : Option Image :=
  if slotSize < off + data.length then none
  else match i.shd with
  | .loading => if i.loadPath = mgmt then some (i.setShadow (slotWrite i.shadow off data)) else none
  | .empty => some (({ i with shd := .loading, loadPath := mgmt }).setShadow (slotWrite [] off data))
  | .invalid => some (({ i with shd := .loading, loadPath := mgmt }).setShadow (slotWrite [] off data))
  | .retired => some (({ i with shd := .loading, loadPath := mgmt }).setShadow (slotWrite [] off data))
  | _ => none

/-- A write into the load window. -/
def State.loadWindow (s : State) (off : Nat) (data : List Byte) : State :=
  match s.image.write false off data with
  | some i => { s with image := i }
  | none => s

/-- `LOAD_WINDOW_WRITE` (R59). -/
def execLoadWindowWrite (offset : Nat) (data : List Byte) (s : State) : Host.Outcome State Fault Refusal := next (s.loadWindow offset data)

/-- The actions of `SICTL` (02 R58): VALIDATE, ARM, DISARM, CLEAR. An action that the state does not permit is ignored. While no
image is in force no flip can occur, so an image that a reset left VALID cannot be armed (R62; log entry 65). An image that
start-up has selected in SHADOW and that is cleared is selected no more (R61). -/
def Image.validate (i : Image) : Image := if i.shd = .loading then { i with shd := .validating } else i
def Image.arm (i : Image) : Image := if i.shd = .valid ∧ i.inForce then { i with shd := .armed } else i
def Image.disarm (i : Image) : Image := if i.shd = .armed ∧ !i.committed then { i with shd := .valid } else i
def Image.clear (i : Image) : Image :=
  if i.shd = .armed then i
  else ({ i with shd := .empty, selected := if i.selected = some true then some false else i.selected }).setShadow []

/-- `SICTL_VALIDATE` (R58). -/
def execSictlValidate (s : State) : Host.Outcome State Fault Refusal := next { s with image := s.image.validate }
/-- `SICTL_ARM` (R63). -/
def execSictlArm (s : State) : Host.Outcome State Fault Refusal := next { s with image := s.image.arm }
/-- `SICTL_DISARM` (R58). -/
def execSictlDisarm (s : State) : Host.Outcome State Fault Refusal := next { s with image := s.image.disarm }
/-- `SICTL_CLEAR` (R58). -/
def execSictlClear (s : State) : Host.Outcome State Fault Refusal := next { s with image := s.image.clear }

/-- The repair map of an array, from the calibration set read at start-up, and whether the array is available (03 R92, R98).
Of a map that fails its CRC or is malformed, `REPCOUNT` and `ARRREP` show what it holds; of a missing one they show 0 (log
entry 55). -/
def State.repairMap (s : State) (i : Nat) : ArrayCfg :=
  match s.calRun.find 7 i with
  | none => { ArrayCfg.reset with mapBad := true }
  | some e =>
    let data := s.calRun.dataOf e
    let w := leNat data
    let top := bits w 0 7
    let bot := bits w 8 7
    let bad := s.calBad 7 i || decide (data.length ≠ 8) || decide (w / 2 ^ 18 ≠ 0) || (bit w 7 && decide (32 < top))
      || (bit w 15 && decide (bot < 33 ∨ 65 < bot))
    let count := b2n (bit w 7 && decide (top ≠ 32)) + b2n (bit w 15 && decide (bot ≠ 65))
    { layout := 0, avail := !bad && !bit w 16 && !bit w 17, mapBad := bad, repCount := BitVec.ofNat 2 count, rep := BitVec.ofNat 32 w }

/-- What validation consults (02 R55). -/
def State.validation (s : State) : Validation :=
  { keys := s.image.keys, activeGen := slotGen s.image.active
    unavailable := (countFrom 0 384).filter (fun i => !(s.repairMap i).avail) }

/-- The reset-class sections of an image equal those in force, which are those of ACTIVE: a flip changes none (02 R59, R62,
R63). -/
def State.resetClassSame (s : State) (secs : SMap (List Byte)) : Bool :=
  let old := imageSections s.image.active
  s.imageInForce && decide (mget [] secs 5 = mget [] old 5) && decide (mget [] secs 7 = mget [] old 7)

/-- The end of a validation (02 R59, R62). -/
def State.validated (s : State) : State :=
  let i := s.image
  if i.shd ≠ .validating then s
  else match imageBad s.validation i.shadow with
  | some r =>
    { s with image := { i with shd := .invalid, rejCode := BitVec.ofNat 8 r.code, rejType := BitVec.ofNat 8 r.type, rejOffset := BitVec.ofNat 24 r.offset } }
  | none =>
    { s with image := { i with
        shd := if s.resetClassSame (imageSections i.shadow) then .valid else .resetPending, rejCode := 0, rejType := 0, rejOffset := 0 } }

/-- `IMAGE_VALIDATION_COMPLETE` (R55). -/
def execImageValidationComplete (s : State) : Host.Outcome State Fault Refusal := next s.validated

/-! ## Applying sections (02 R43, R54, R66) -/

/-- A quadrant after an activation, or after a flip that changes its array's entry: queue and B buffers are empty (05 R151). The
count restarts where the partition has changed or the module activates (R126); `QREJ` and the frozen-cycle counters keep their
values. -/
def Quad.rebound (q : Quad) (restart : Bool) : Quad :=
  { q with
    bact := BBuf.empty, bshd := BBuf.empty, queue := [], fetching := [], recs := [], aParked := false, bParked := false
    drainParked := false, recParked := false, fault := false, cause := 0
    nextSeq := if restart then 1 else q.nextSeq, restarted := restart || q.restarted, retSeq := if restart then q.accSeq else q.retSeq }

/-- Bind the partitions of an array from its entry: tiles zeroed, queues and B buffers empty (05 R151; 03 R100). At a start-up
every count restarts (`restart`) and the rings are reset (`rings`); a rollback restarts the counts and keeps the rings, which
R151 resets at start-up (log entry 56). At a flip, a partition of the same quadrants and context keeps its
count, and the ring of a quadrant that was a lead keeps both registers, `QCPLIDX` too, of which R151 does not speak; that of a
quadrant that becomes a lead starts from its reset values (05 R126, R133; log entry 56). -/
def State.bindArray (s : State) (i : Nat) (restart rings : Bool) : State :=
  let d : Fin 4 := Fin.ofNat 4 (i / 96)
  let cl : Fin 24 := Fin.ofNat 24 (i / 4)
  let a : Fin 4 := Fin.ofNat 4 i
  let old := (s.array d cl a).layout.toNat
  let lay := s.secNat 1 (8 * i) 1 % 16
  let cfg := { s.array d cl a with layout := BitVec.ofNat 4 lay }
  let s1 := { s with arrays := mset ArrayCfg.reset s.arrays i cfg }
  let s2 := (countFrom 0 4).foldl (fun (s : State) q =>
    let p : PartId := { cd := d, cl := cl, arr := a, q := Fin.ofNat 4 q }
    let x := s.quad p
    let c := s.secNat 1 (8 * i + 2 + q) 1
    let isLead := decide (leadQuad lay q = q)
    let bound := isLead && cfg.avail && decide (c < 0x80) && s.imageInForce
    let pmask := if isLead then (partQuads lay q).foldl (fun (m : BitVec 4) x => m ||| (BitVec.ofNat 4 1 <<< x)) 0 else 0
    let same := bound && x.bound && decide (x.pmask = pmask) && decide (x.ctx = BitVec.ofNat 6 c)
    s.setQuad p { x.rebound (restart || !same) with
      ring := if rings || decide (leadQuad old q ≠ q) then RingState.reset else x.ring
      bound := bound, ctx := BitVec.ofNat 6 c, pmask := pmask }) s1
  (countFrom 0 4).foldl (fun (s : State) t => s.setTile { cd := d, cl := cl, t := Fin.ofNat 16 (4 * a.val + t) } Tile.reset) s2

/-- The entry of a context in a section 0Ch: its bytes, empty where it has none. -/
def ctxEntry (body : List Byte) (ctx : Nat) : List Byte :=
  match (countFrom 0 (rd body 0 8 % 128)).find? (fun i => decide (rd body (8 + 208 * i) 1 = ctx)) with
  | some i => (body.drop (8 + 208 * i)).take 208
  | none => []

/-- Load the segment registers of an ETU from a section 0Ch. -/
def Etu.loadSegments (e : Etu) (body : List Byte) : Etu :=
  (countFrom 0 64).foldl (fun (e : Etu) c =>
    let b := ctxEntry body c
    let n := rd b 1 1
    { e with
      ctxs := mset CtxTable.reset e.ctxs c { segCount := BitVec.ofNat 4 n, base := BitVec.ofNat 40 (rd b 8 8 / 4096) }
      segs := (countFrom 0 8).foldl (fun m j =>
        mset Segment.reset m (c * 8 + j)
          (if j < n then
            { base := BitVec.ofNat 64 (rd b (16 + 24 * j) 8), limit := BitVec.ofNat 64 (rd b (24 + 24 * j) 8)
              r := bit (rd b (32 + 24 * j) 1) 0, w := bit (rd b (32 + 24 * j) 1) 1, x := bit (rd b (32 + 24 * j) 1) 2 }
           else Segment.reset)) e.segs }) e

/-- Put a section in force. -/
def State.setSec (s : State) (type : Nat) (body : List Byte) : State :=
  { s with image := { s.image with secs := mset [] s.image.secs type body } }

/-- Zero the commons and the tile stores, with valid ECC (11 R270). -/
def State.zeroSram (s : State) : State := { s with mem := s.mem.filter (fun c => !(s.kindAt c.1).sram), badSram := [] }

/-! ## The flip of one module (02 R64 to R66) -/

/-- The movers by number. -/
def allMovers : List MoverId :=
  ((countFrom 0 96).flatMap (fun n => [MoverId.cluster (Fin.ofNat 4 (n / 24)) (Fin.ofNat 24 n) 0, .cluster (Fin.ofNat 4 (n / 24)) (Fin.ofNat 24 n) 1]))
  ++ (countFrom 0 64).map (fun n => .bulk (Fin.ofNat 4 (n / 16)) (Fin.ofNat 16 n)) ++ (countFrom 0 16).map (fun n => .host (Fin.ofNat 16 n))

/-- Quiescence (02 R64): queues, sequencers with their stores, engines, movers, fault batches. A descriptor owned by hardware is
one of a channel that is not idle, and a sequencer that is in RESET or DFAULT counts as halted (log entry 55). -/
def State.quiescent (s : State) : Bool :=
  s.quads.all (fun x => decide (x.2.queue = []) && decide (x.2.fetching = []))
  && s.cores.all (fun x => decide (96 ≤ x.1) || (decide (x.2.st ≠ .run) && decide (x.2.sbuf = [])))
  && s.engines.all (fun x => decide (x.2.queue = []) && decide (x.2.fetching = []))
  && s.movers.all (fun x => decide (x.2.st = .idle))
  && s.etus.all (fun x => decide (x.2.outstanding = none))

/-- The completion of a flip reaches a committed module: it starts to apply (02 R65). -/
def State.flipCompletes (s : State) : State :=
  if s.image.committed then { s with image := { s.image with applying := true } } else s

/-- An abandoned flip returns an ARMED image to VALID (02 R65). -/
def State.flipAbandoned (s : State) : State :=
  if s.image.shd = .armed ∧ !s.image.applying then
    let held := s.image.hold
    let s1 := { s with image := { s.image with shd := .valid, flipAbort := true, hold := false, committed := false } }
    if held then allMovers.foldl (fun (s : State) m => s.rekick m) s1 else s1
  else s

/-- Section 04h with the Bridle fields of another: they wait for the next epoch barrier (02 R66). -/
def withBridle (new old : List Byte) : List Byte :=
  if old = [] then new
  else
    let w := rd new 8 8
    let o := rd old 8 8
    splice new 8 (leBytes 8 (bits w 0 16 + 2 ^ 16 * bits o 16 36))

/-- The effects of a flip on the sections (02 R66). -/
def State.applyFlip (s0 : State) : State :=
  let new := imageSections s0.image.shadow
  let sec (t : Nat) : List Byte := mget [] new t
  let old (t : Nat) : List Byte := s0.sec t
  let wait (t : Nat) : SMap (Option (List Byte)) → SMap (Option (List Byte)) := fun m =>
    if sec t = old t then mset none m t none else mset none m t (some (sec t))
  let s1 := [1, 2, 3, 6, 8, 9, 11, 12].foldl (fun (s : State) t => s.setSec t (sec t)) s0
  let s2 := s1.setSec 4 (withBridle (sec 4) (old 4))
  let s3 := { s2 with image := { s2.image with secsNext := wait 4 (wait 10 s2.image.secsNext) } }
  let s4 := (countFrom 0 384).foldl (fun (s : State) i =>
    if rd (old 1) (8 * i) 8 = rd (sec 1) (8 * i) 8 then s else s.bindArray i false false) s3
  let s5 := (countFrom 0 12).foldl (fun (s : State) p =>
    if rd (old 3) (8 * p) 8 = rd (sec 3) (8 * p) 8 then s else s.retrainPort (Fin.ofNat 12 p)) s4
  let s6 := if old 3 = sec 3 then s5 else { s5 with snap := { s5.snap with rovl := [] } }
  let gone (c : Nat) : Bool := decide (ctxEntry (old 12) c ≠ ctxEntry (sec 12) c)
  { s6 with
    etus := (countFrom 0 5).foldl (fun m i => mmod Etu.reset m i (fun e =>
      { e.loadSegments (sec 12) with tlb := e.tlb.filter (fun t => !gone t.ctx.toNat) })) s6.etus }

/-- The slots swap, the sections are applied, `HOLD` clears, and sequencers with changed entries start (02 R65, R66). -/
def State.flipApplied (s : State) : State :=
  if !s.image.applying ∨ !s.imageInForce then s
  else
    let changed := (countFrom 0 96).filter (fun n =>
      decide ((((mget [] (imageSections s.image.shadow) 2).drop (16 * n)).take 16) ≠ ((s.sec 2).drop (16 * n)).take 16))
    let s1 := s.applyFlip
    let s2 := { s1 with image := { s1.image with
      activeIsB := !s1.image.activeIsB, selSeq := s1.image.selSeq + 1, shd := .retired, hold := false, committed := false, applying := false } }
    let s3 := changed.foldl (fun (s : State) n =>
      let d : Fin 4 := Fin.ofNat 4 (n / 24)
      let cl : Fin 24 := Fin.ofNat 24 n
      let s' := s.resetSequencer d cl
      if bit (s'.cflags n) 0 then s'.releaseCore d cl else s') s2
    allMovers.foldl (fun (s : State) m => s.rekick m) s3

/-- `FLIP_APPLY_DONE` (R66). -/
def execFlipApplyDone (s : State) : Host.Outcome State Fault Refusal := next s.flipApplied

/-- The sections that waited for an epoch barrier take effect (02 R66). -/
def State.epochSections (s : State) : State :=
  let s1 := s.image.secsNext.foldl (fun (s : State) x =>
    match x.2 with
    | some body => s.setSec x.1 body
    | none => s) s
  { s1 with image := { s1.image with secsNext := [] } }

end Sys2Proof.Machine
end

