-- ==== Sys2Proof/Machine/Snapshot.lean ====
section
/-! DEFINITION. Snapshots, Bridles, the Cabinet and recovery: what an epoch does within one module (16 R384 to R407). The
barriers that start its steps are in Machine/Epochs.lean. -/

namespace Sys2Proof.Machine

/-! ## Manifests (16 R392) -/

/-- Write a field of a manifest. -/
def State.putManifest (s : State) (at' off : Nat) (data : List Byte) : State := s.writeMem .hd 4 (at' + off) data

/-! ## Pairing (16 R395; 02 R47) -/

/-- What the module says of itself. -/
def State.pairInfo (s : State) : PairInfo :=
  let w := s.bridleWord
  { id := s.moduleId, feed := bits w 0 16, bridleFeed := bits w 16 16, bridleId := bits w 32 20, home := s.homeSize / 65536, drawerGib := s.secNat 5 8 2 }

/-- The payload of a pairing flit; its layout is the model's (log entry 47). -/
def PairInfo.bytes (p : PairInfo) : List Byte :=
  [p.id, p.feed, p.bridleFeed, p.bridleId, p.home, p.drawerGib].flatMap (leBytes 4)

def PairInfo.ofBytes (b : List Byte) : PairInfo :=
  { id := rd b 0 4, feed := rd b 4 4, bridleFeed := rd b 8 4, bridleId := rd b 12 4, home := rd b 16 4, drawerGib := rd b 20 4 }

/-- What one side finds of the other (02 R47; 16 R385): 0 all conditions hold, else the reason. -/
def pairReason (a b : PairInfo) : Nat :=
  if b.bridleId ≠ a.id then 2
  else if b.feed ≠ a.bridleFeed ∨ b.feed = a.feed then 3
  else if a.drawerGib * 8192 < a.home + b.home then 4
  else 0

/-- Pairing fails for a reason: one fault notice for each change of it. -/
def State.pairFails (s : State) (reason : Nat) : State :=
  if s.snap.pairFail.toNat = reason then s
  else (s.modSnap (fun x => { x with pairFail := BitVec.ofNat 4 reason })).raiseFault 4 (BitVec.ofNat 20 s.bridleId)

/-- A module that seeks its partner. -/
def State.seeksPair (s : State) : Bool := s.hasSec 10 && decide (s.bridleId ≠ 0xFFFFF) && !s.snap.paired

/-- What the conditions of the pair give with the partner's flit, once it has come: 0 all hold, else the reason. -/
def State.pairCheck (s : State) : Option Nat :=
  s.snap.peer.map (fun b => if pairReason s.pairInfo b ≠ 0 then pairReason s.pairInfo b else pairReason b s.pairInfo)

/-- The pair forms once the partner's flit has come, the own one has gone out, which the link delivers (15 R360), and every condition
holds (R395). -/
def State.tryPair (s : State) : State :=
  if !s.seeksPair then s
  else match s.pairCheck with
  | some 0 => if s.snap.pairSent then s.modSnap (fun x => { x with paired := true, pairFail := 0 }) else s
  | some r => s.pairFails r
  | none => s

/-- A module that seeks its partner sends a pairing flit on each port of `BRIDLEPORTS` (R395). -/
def State.sendPairing (s : State) : State :=
  if s.seeksPair then
    let up := s.bridlePorts.any (fun p => (s.port p).carries)
    ((countFrom 0 s.bridlePorts.length).foldl (fun (s : State) i => s.sendBridle s.bridleId 2 0 i 0 0 true s.pairInfo.bytes) s).modSnap
      (fun x => { x with pairSent := x.pairSent || up })
  else s

/-- `BRIDLE_PAIRING_TIMER` (R395): a partner that has not answered is a failed pairing. -/
def execBridlePairingTimer (s : State) : Host.Outcome State Fault Refusal :=
  next (if s.seeksPair ∧ s.sendPairing.snap.peer.isNone then s.sendPairing.pairFails 1 else s.sendPairing.tryPair)

/-! ## The clean and the cut (16 R386, R387) -/

/-- A Cabinet drain reads the half that the next epoch will use. -/
def State.drainBlocks (s : State) : Bool := s.snap.draining && decide (s.snap.drainEpoch.toNat % 2 = (s.snap.epoch.toNat + 1) % 2)

/-- The position record of the coming epoch stands as it is (R394): `POSLEN` bytes at most. -/
def State.keepPosition (s : State) : State :=
  let n := s.snap.epoch.toNat + 1
  let m := manifestAt n
  s.modSnap (fun x => { x with
    positions := mset none x.positions (n % 32) (some (s.readMem (m + 0x100000) (min (s.readNat (m + 24) 4) 0x700000))) })

/-- `SNAPCTL.ARRIVE`: a commit of the previous epoch that is not complete, or a Cabinet drain of the half that the new epoch will use, makes
it wait in phase CLEAN, with `OVERRUN` (R386). DEDUCED (log entry 47): R407 names phase RUN alone, yet an arrival may wait for a commit,
so that it is taken in COPY and COMMITWAIT too. -/
def State.arriveCut (s : State) : State :=
  match s.snap.phase with
  | .run => s.keepPosition.modSnap (fun x => { x with phase := .clean, overrun := x.overrun || s.drainBlocks })
  | .copy => if s.snap.arriving then s else s.keepPosition.modSnap (fun x => { x with arriving := true, overrun := true })
  | .commitWait => if s.snap.arriving then s else s.keepPosition.modSnap (fun x => { x with arriving := true, overrun := true })
  | _ => s

/-- `SNAPCTL_ARRIVE` (R386). -/
def execSnapctlArrive (s : State) : Host.Outcome State Fault Refusal := next s.arriveCut

/-- What the clean still waits for: a drain of the half, a grant under way or a hold window on a line of the set. -/
def State.cleanBlocked (s : State) : Bool :=
  s.drainBlocks
  || s.lines.any (fun x => s.inCut (x.1 % 2 ^ 48) && (x.2.granted.isSome || x.2.hold))
  || s.dies.any (fun x => s.inCut (x.1 % 2 ^ 48) && x.2.openFor.isSome)
  || s.module.any (fun x => s.inCut x.1 && x.2.openFor.isSome)

/-- Clean the set: every dirty line written back, every copy left in S. -/
def State.cleanSet (s : State) : State :=
  let s1 := ((s.dirty.map (·.1)).filter s.inCut).foldl (fun (s : State) l => s.maintain .clean l) s
  { s1 with
    lines := mmap CacheLine.reset (fun k x => if s.inCut (k % 2 ^ 48) ∧ x.st ≠ .i then { x with st := .s } else x) s1.lines }

/-- The granules of the set in ascending offset of the home slot. -/
def State.setGranules (s : State) : List Nat := s.snapRanges.flatMap (fun r => countFrom (r.1 / 65536) (r.2 / 65536))

/-- The manifest header at the cut (16 R392): all but `POSLEN`, which software writes. A die without power has no RAND streams. -/
def State.manifestHeader (s : State) (n : Nat) : State :=
  let head := leBytes 4 0x464D5846 ++ leBytes 2 1 ++ leBytes 2 s.snapRanges.length ++ leBytes 4 n ++ leBytes 4 s.moduleId
    ++ leBytes 8 (slotGen s.image.active)
  let rest := leBytes 4 1 ++ fitTo 0 32 s.snap.prevDigest ++ List.replicate 4032 0
  let s0 := (countFrom 0 4).foldl (fun (s : State) d =>
    if s.cdUp (Fin.ofNat 4 d) then s else s.putManifest (manifestAt n) (0x2000 + 48 * 4096 * d) (List.replicate (48 * 4096) 0)) s
  let s1 := (s0.putManifest (manifestAt n) 0 head).putManifest (manifestAt n) 28 rest
  s1.putManifest (manifestAt n) 0x1000 (s.snapRanges.flatMap (fun r => leBytes 8 r.1 ++ leBytes 8 r.2 ++ List.replicate 32 0))

/-- The conditions of the pair are checked again against new values (16 R391). -/
def State.recheckPair (s : State) : State :=
  match s.snap.paired, s.pairCheck with
  | true, some (r + 1) => (s.modSnap (fun x => { x with paired := false })).pairFails (r + 1)
  | _, _ => s

/-- The completion of a cut barrier reaches the module (16 R387): flipped sections first (02 R66), then the cut of a module
that holds its set. -/
def State.takeCut (s0 : State) : State :=
  let s := s0.epochSections
  let same := decide (s.bridleWord = s0.bridleWord)
  let s1 := s.modSnap (fun x => { x with
    paired := x.paired && same, pairSent := x.pairSent && same, peer := if same then x.peer else none
    pairFail := if same then x.pairFail else 0 }) |>.recheckPair
  if !s1.hasSec 10 then (s1.modSnap (fun x => { x with phase := if x.phase = .run ∨ x.phase = .hold then .off else x.phase })).releaseHeld
  else if s1.snap.phase = .off then s1.modSnap (fun x => { x with phase := .run })
  else if s1.snap.phase ≠ .hold then s1
  else
    let n := s1.snap.epoch + 1
    let s2 := s1.modSnap (fun x => { x with
      phase := .copy, epoch := n, uncopied := s1.setGranules, demand := [], unsent := [], copied := 0, streamed := 0, rcvd := 0
      poisoned := false, streaming := x.paired, manifestDone := false, sent := 0, streamAcked := false, wardBytes := 0, wardDone := false
      captureDue := (countFrom 0 4).filter (fun d => s1.cdUp (Fin.ofNat 4 d)) })
    (s2.manifestHeader n.toNat).releaseHeld

/-! ## The RAND capture (11 R285, 16 R392) -/

/-- The 48 bytes of a stream in a manifest. -/
def randRecord (r : RandStream) : List Byte :=
  if r.owned then leBytes 16 r.key.toNat ++ leBytes 16 r.ctr.toNat ++ leBytes 1 r.owner.toNat ++ [1] ++ List.replicate 14 0
  else List.replicate 48 0

/-- `RAND_CAPTURE` (R285): at a command boundary of the die's RAND, once after each cut. -/
def execRandCapture (d : Fin 4) (s : State) : Host.Outcome State Fault Refusal :=
  let e : EngineId := ⟨d, .rand⟩
  if !s.snap.captureDue.contains d.val ∨ (s.engine e).queue.any (fun c => decide (c.phase = .started)) then next s
  else
    let data := (countFrom 0 4096).flatMap (fun n => randRecord (s.rand d n))
    let s1 := s.putManifest (manifestAt s.snap.epoch.toNat) (0x2000 + 48 * 4096 * d.val) data
    next ({ s1 with randLate := addNew d.val s1.randLate }.modSnap (fun x => { x with captureDue := without d.val x.captureDue }))

/-! ## Digests (16 R393) -/

/-- The seals of a stretch of tiles as little-endian bytes. -/
def State.sealBytes (s : State) (base tiles : Nat) : List Byte :=
  (countFrom 0 tiles).flatMap (fun i => match s.tileOf (base + 4096 * i) with
    | some (b, t) => leBytes 4 (s.sealOf b t)
    | none => [])

/-- `RDIGEST` of a stretch. -/
def State.rangeDigest (s : State) (base size : Nat) : List Byte := sha256 (s.sealBytes base (size / 4096))

/-- The RDIGESTs of a slot, given the sizes of its ranges in order. -/
def State.slotDigests (s : State) : Nat → List Nat → List (List Byte)
  | _, [] => []
  | base, n :: rest => s.rangeDigest base n :: s.slotDigests (base + n) rest

/-- `MDIGEST` of a manifest (16 R393). -/
def State.manifestDigest (s : State) (at' : Nat) : List Byte :=
  let b := s.manifestBytes at'
  let part (off n : Nat) : List Byte := (b.drop off).take n
  sha256 (part 32 32 ++ part 0 28 ++ part 0x1000 (48 * rd b 6 2) ++ part 0x2000 (48 * 16384) ++ part 0x100000 (rd b 24 4))

/-- The range entries of a manifest: base, size, digest. -/
def State.manifestRanges (s : State) (at' : Nat) : List (Nat × Nat × List Byte) :=
  (countFrom 0 (s.readNat (at' + 6) 2)).map (fun j =>
    let e := at' + 0x1000 + 48 * j
    (s.readNat e 8, s.readNat (e + 8) 8, s.readMem (e + 16) 32))

/-- The ranges of an epoch, as its manifest in the own ring has them: its half keeps its layout (16 R391). Those in force where the ring
does not hold that manifest. -/
def State.rangesAt (s : State) (n : Nat) : List (Nat × Nat) :=
  let m := manifestAt n
  if s.readNat m 4 = 0x464D5846 ∧ s.readNat (m + 8) 4 = n then (s.manifestRanges m).map (fun x => (x.1, x.2.1)) else s.snapRanges

/-- The home size of an epoch. -/
def State.homeSizeAt (s : State) (n : Nat) : Nat := ((s.rangesAt n).map (·.2)).foldl (· + ·) 0

/-- Whether the ranges of a manifest, laid out from an address on, agree with their digests. -/
def State.rangesAgree (s : State) (at' base : Nat) : Bool :=
  let rs := s.manifestRanges at'
  decide (s.slotDigests base (rs.map (·.2.1)) = rs.map (·.2.2))

/-- Whether they and the manifest itself agree with their digests. -/
def State.digestsAgree (s : State) (at' base : Nat) : Bool :=
  s.rangesAgree at' base && decide (s.manifestDigest at' = s.readMem (at' + 64) 32)

/-! ## The copy (16 R388 to R390) -/

/-- The manifest is complete: range digests, `FLAGS`, `MDIGEST`; then it is streamed. -/
def State.finishManifest (s : State) : State :=
  let n := s.snap.epoch.toNat
  let m := manifestAt n
  let ds := s.slotDigests (s.halfBase n) (s.snapRanges.map (·.2))
  let s1 := ds.zipIdx.foldl (fun (s : State) x => s.putManifest m (0x1000 + 48 * x.2 + 16) x.1) s
  let s2 := s1.flagManifest m 1
  let d := s2.manifestDigest m
  let s4 := (s2.putManifest m 64 d).modSnap (fun x => { x with manifestDone := true, prevDigest := d })
  if s4.snap.streaming then
    (s4.sendManifest s4.bridleId n m s4.snap.sent).modSnap (fun x => { x with sent := x.sent + manifestSize })
  else s4

/-- `BACKGROUND_COPY` (R389): the next uncopied granule, or, once none is left and the RAND captures are in, the manifest. Demand copies
come before it (R388). -/
def execBackgroundCopy (s : State) : Host.Outcome State Fault Refusal :=
  if s.snap.phase ≠ .copy ∨ s.snap.demand ≠ [] then next s
  else match s.snap.uncopied with
  | g :: _ => next (s.granuleCopied g)
  | [] => if s.snap.manifestDone ∨ s.snap.captureDue ≠ [] then next s.streamPlaced else next s.streamPlaced.finishManifest

/-- `DEMAND_COPY_COMPLETE` (R388): the oldest demand is served, and what waits for the granule goes on. -/
def execDemandCopyComplete (granule : Nat) (s : State) : Host.Outcome State Fault Refusal :=
  next (if s.snap.phase = .copy ∧ s.snap.demand.head? = some granule then s.granuleCopied granule else s)

/-- The conditions of the commit (16 R390). -/
def State.commitReady (s : State) : Bool :=
  decide (s.snap.phase = .copy) && s.snap.manifestDone && (!s.snap.streaming || (s.snap.streamAcked && s.snap.wardDone))

/-- A drain into the Cabinet starts (16 R398). -/
def State.startDrain (s : State) : State :=
  if s.snap.draining ∨ s.snap.committed = 0xFFFFFFFF then s
  else s.modSnap (fun x => { x with draining := true, drainEpoch := x.committed, drainDue := false })

/-- The completion of a commit barrier reaches the module (16 R390, R398). -/
def State.takeCommit (s : State) : State :=
  if s.snap.phase ≠ .commitWait then s
  else
    let s1 := (s.flagManifest (manifestAt s.snap.epoch.toNat) 2).modSnap (fun x => { x with
      committed := x.epoch, phase := if x.arriving then .clean else .run, arriving := false })
    if s1.snap.drainDue then s1.startDrain else s1

/-! ## The Cabinet (16 R398, R399) -/

/-- `SNAPCTL.DRAIN`, in RUN. -/
def State.askDrain (s : State) : State := if s.snap.phase = .run then s.startDrain else s

/-- `SNAPCTL_DRAIN` (R398). -/
def execSnapctlDrain (s : State) : Host.Outcome State Fault Refusal := next s.askDrain

/-- `CABINET_DRAIN_TIMER` (R398): `CABINETMIN` minutes have passed; the next commit starts a drain. -/
def execCabinetDrainTimer (s : State) : Host.Outcome State Fault Refusal :=
  next (if s.hasSec 10 ∧ s.secNat 10 8 2 ≠ 0 then s.modSnap (fun x => { x with drainDue := true }) else s)

/-- The bytes of a drain record: header of 4 KiB, chunks, the manifest with `FLAGS` bit 3 set. The order of the header's
fields is the model's (log entry 47). -/
def State.drainRecord (s : State) (n : Nat) : List Byte :=
  let chunks := (countFrom 0 (s.homeSizeAt n / 65536)).map (fun i => compressChunk (memReads s.mem (s.halfBase n + 65536 * i) 65536))
  let m := s.manifestBytes (manifestAt n)
  let body := chunks.flatten ++ splice m 28 (leBytes 4 (rd m 28 4 ||| 8))
  let head (crc : Nat) : List Byte :=
    fitTo 0 4096 (leBytes 4 0x44435846 ++ leBytes 4 n ++ leBytes 4 s.moduleId ++ leBytes 4 chunks.length ++ leBytes 4 crc)
  head (crc32c (head 0 ++ body)) ++ body

/-- Erase the oldest records while space is needed, never one of the two newest complete ones. -/
def trimCabinet : Nat → List Drained → List Drained
  | 0, l => l
  | fuel + 1, l =>
    match l with
    | [] => []
    | d :: rest =>
      let kept := (rest.filter (·.complete)).length
      if 2 ^ 45 < (l.map (·.data.length)).foldl (· + ·) 0 ∧ (2 ≤ kept ∨ !d.complete) then trimCabinet fuel rest else l

/-- What the Cabinet holds after an interruption: a drain cut short leaves its own record incomplete (16 R399). -/
def Snap.cutCabinet (x : Snap) : List Drained :=
  if x.draining then x.cabinet ++ [{ epoch := x.drainEpoch, complete := false, data := [] }] else x.cabinet

/-- `CABINET_DRAIN_COMPLETE` (R398): with the Cabinet and tier 2 powered. -/
def execCabinetDrainComplete (s : State) : Host.Outcome State Fault Refusal :=
  if !s.snap.draining ∨ !s.powered 1 ∨ !s.powered 8 then next s
  else
    let n := s.snap.drainEpoch
    let l := s.snap.cabinet ++ [{ epoch := n, complete := true, data := s.drainRecord n.toNat }]
    next (s.modSnap (fun x => { x with draining := false, drained := n, cabinet := trimCabinet l.length l }))

/-! ## Pairing flits in (16 R395) -/

/-- Take a BRIDLE flit of a kind out of a port's buffer. -/
def State.takeBridle (s : State) (p : Fin 12) (kind : Nat) : Option Flit × State :=
  s.takeFlit p (fun f => decide (f.ftype = 2) && decide (f.ctx = kind))

/-- `BRIDLE_PAIRING` (R395): the partner's flit is in. -/
def execBridlePairing (port : Fin 12) (s : State) : Host.Outcome State Fault Refusal :=
  match s.takeBridle port 2 with
  | (none, s1) => next s1
  | (some f, s1) =>
    if !s1.seeksPair ∨ f.src ≠ s1.bridleId then next s1
    else
      next (s1.modSnap (fun x => { x with peer := some (PairInfo.ofBytes f.payload) })).tryPair

/-! ## The Bridle stream in (16 R396, R403) -/

/-- Where received slot data and manifests go: the ward of the epoch under way, or the module's own ranges while it is
restored from a partner's ward. -/
inductive Intake where
  | ward
  | restore
  /-- data of an epoch that this module has not cut yet: they wait in the port's buffer. -/
  | early
  | none
deriving DecidableEq, Repr

/-- The intake that a flit's epoch means now. -/
def State.intake (s : State) (f : Flit) : Intake :=
  let x := s.snap
  if x.phase = .stopped ∧ (x.takeover ∨ x.restoreErr) then (if f.collId = x.rollEpoch.toNat % 65536 then .restore else .none)
  else if f.src ≠ s.bridleId ∨ !x.paired then .none
  else if f.collId = (x.epoch.toNat + 1) % 65536 then .early
  else if (x.phase = .copy ∨ x.phase = .commitWait) ∧ x.streaming ∧ f.collId = x.epoch.toNat % 65536 then .ward
  else .none

/-- Write bytes straight into DRAM, over any cached copy. -/
def State.dramPut (s : State) (a : Nat) (data : List Byte) : State :=
  (linePieces (data.length + 1) a data).foldl (fun (s : State) x =>
    let s1 := ({ s with dirty := merase x.1 s.dirty }.invalidate x.1 (fun _ => false)).tidy x.1
    s1.dramWrite x.1 (splice (memReads s1.mem (x.1 * 128) 128) x.2.1 x.2.2) true) s

/-- `BRIDLE_SLOT_DATA` (R396). -/
def execBridleSlotData (port : Fin 12) (s : State) : Host.Outcome State Fault Refusal :=
  match s.takeBridle port 0 with
  | (none, s1) => next s1
  | (some f, s1) =>
    let count (s : State) : State := s.modSnap (fun x => { x with
      wardBytes := x.wardBytes + f.payload.length, rcvd := if (f.offset + f.payload.length) % 65536 = 0 then x.rcvd + 1 else x.rcvd })
    match s1.intake f with
    | .early => next s
    | .none => next s1
    | .ward => next (count (s1.dramPut (s1.halfBase s1.snap.epoch.toNat + s1.homeSize + f.offset) f.payload))
    | .restore =>
      match homeAddress f.offset s1.snapRanges with
      | some a => next (count (s1.dramPut a f.payload))
      | none => next (count s1)

/-- `BRIDLE_MANIFEST` (R396). -/
def execBridleManifest (port : Fin 12) (s : State) : Host.Outcome State Fault Refusal :=
  match s.takeBridle port 1 with
  | (none, s1) => next s1
  | (some f, s1) =>
    let count (s : State) : State := s.modSnap (fun x => { x with wardBytes := x.wardBytes + f.payload.length })
    match s1.intake f with
    | .early => next s
    | .none => next s1
    | .ward => next (count (s1.putManifest (wardManifestAt s1.snap.epoch.toNat) f.offset f.payload))
    | .restore =>
      let n := s1.snap.rollEpoch.toNat
      next (count ((s1.modSnap (fun x => { x with positions := mset none x.positions (n % 32) none })).putManifest (manifestAt n) f.offset f.payload))

/-- `BRIDLE_END_OF_STREAM` (R396): the answer to the own stream acknowledges it in full; the partner's ends its stream, which
is answered with the count written once its digests agree. One that overtakes data waits. -/
def execBridleEndOfStream (port : Fin 12) (answer : Bool) (s : State) : Host.Outcome State Fault Refusal :=
  match s.takeBridle port 3 with
  | (none, s1) => next s1
  | (some f, s1) =>
    let n := rd f.payload 0 8
    let reply (s : State) : State := s.sendBridle f.src 3 f.collId 0 0 0 true (leBytes 8 s.snap.wardBytes)
    if answer then
      next (if s1.snap.streaming ∧ f.collId = s1.snap.epoch.toNat % 65536 ∧ n = s1.snap.sent ∧ s1.snap.manifestDone then
        s1.modSnap (fun x => { x with streamAcked := true, streamed := BitVec.ofNat 24 ((n - manifestSize) / 65536) })
      else s1)
    else
      match s1.intake f with
      | .early => next s
      | .none => next s1
      | .ward =>
        if s1.snap.wardBytes ≠ n then next s
        else if s1.digestsAgree (wardManifestAt s1.snap.epoch.toNat) (s1.halfBase s1.snap.epoch.toNat + s1.homeSize) then
          next (reply (s1.modSnap (fun x => { x with wardDone := true })))
        else next (s1.raiseFault 6 (BitVec.ofNat 20 s1.bridleId))
      | .restore =>
        if s1.snap.wardBytes ≠ n then next s
        else next ((reply s1).modSnap (fun x => { x with restoring := true, wardBytes := 0 }))

/-! ## Rollback and restore (16 R400 to R405) -/

/-- Drop the collective flits that a port holds; their credits go back. -/
def State.dropFlits (s : State) (p : Fin 12) : State :=
  let x := s.port p
  let gone := x.rxq.filter (fun f => decide (f.ftype = 1))
  let unsent := x.waitq.filter (fun f => decide (f.ftype = 1))
  unsent.foldl (fun (s : State) f => s.leaveBuffer f) <| gone.foldl (fun (s : State) f => s.returnCredit p f.vc)
    (s.setPort p { x with rxq := x.rxq.filter (fun f => decide (f.ftype ≠ 1)), waitq := x.waitq.filter (fun f => decide (f.ftype ≠ 1)) })

/-- Step 1: requesters, arrays, SRAM, engines, queues and slots as after activation; ports that went down retrain (15 R361). -/
def State.rollbackUnits (s : State) : State :=
  let s1 := (countFrom 0 384).foldl (fun (s : State) i => s.bindArray i true false) s.rollbackEtus
  let s2 := { s1.zeroSram with
    engines := []
    cre := []
    cores := mmap Core.reset (fun k c => if k < 96 then { c with sbuf := [], wait := none, tensor := none } else c) s1.cores
    tether := { s1.tether with bars := [], heldArrivals := [], reds := [] }
    snap := { s1.snap with heldReq := [], heldWrites := [], heldMsi := [], demand := [], uncopied := [], unsent := [], wardBytes := 0, restoring := false } }
  (countFrom 0 12).foldl (fun (s : State) p =>
    let s' := s.dropFlits (Fin.ofNat 12 p)
    if (s'.port (Fin.ofNat 12 p)).st = .down then s'.retrainPort (Fin.ofNat 12 p) else s') s2

/-- Step 2: every cached copy of every line of the set, or of the ranges of the target, goes, dirty data with it. -/
def State.dropSet (s : State) (rs : List (Nat × Nat)) : State :=
  let hit (l : Nat) : Bool := s.inSet l || (homeOffset (l * 128) 0 rs).isSome
  { s with
    dirty := s.dirty.filter (fun x => !hit x.1)
    lines := s.lines.filter (fun x => !hit (x.1 % 2 ^ 48))
    dies := s.dies.filter (fun x => !hit (x.1 % 2 ^ 48))
    module := s.module.filter (fun x => !hit x.1)
    reqq := mmap [] (fun _ q => q.filter (fun l => !hit l.1)) s.reqq
    snoopq := mmap [] (fun _ q => q.filter (fun x => !hit x.1)) s.snoopq
    cores := mmap Core.reset (fun _ c => match c.resv with
      | some l => if hit l then { c with resv := none } else c
      | none => c) s.cores }

/-- Copy a slot into the ranges. -/
def State.copyBack (s : State) : Nat → List (Nat × Nat) → State
  | _, [] => s
  | base, (b, n) :: rest => (s.copyTiles base b (n / 4096)).2.copyBack (base + n) rest

/-- `SNAPCTL.ROLLBACK`: steps 1 to 3 up to the comparison of the digests. -/
def State.rollBack (s : State) : State :=
  if s.snap.phase ≠ .stopped ∨ s.snap.rolling then s
  else
    let c := s.snap.rollEpoch.toNat
    let rs := s.rangesAt c
    ((s.rollbackUnits.dropSet rs).copyBack (s.halfBase c) rs).modSnap (fun x => { x with rolling := true })

/-- `SNAPCTL_ROLLBACK` (R402). -/
def execSnapctlRollback (s : State) : Host.Outcome State Fault Refusal := next s.rollBack

/-- Restore the RAND streams of a manifest; all others are free (16 R402 step 4). -/
def State.restoreRand (s : State) (at' : Nat) : State :=
  let one (n : Nat) : RandStream :=
    let e := at' + 0x2000 + 48 * n
    if s.readNat (e + 33) 1 % 2 = 1 then
      { owned := true, owner := BitVec.ofNat 6 (s.readNat (e + 32) 1), key := BitVec.ofNat 128 (s.readNat e 16), ctr := BitVec.ofNat 128 (s.readNat (e + 16) 16) }
    else RandStream.reset
  { s with rands := (countFrom 0 16384).foldl (fun m n => mset RandStream.reset m n (one n)) [] }

/-- Steps 4 and 5: RAND streams, `STOPSEEN`, the epoch, the phase; every sequencer is left in RESET (17 R411), and
maintenance mode ends (12 R300). The next manifest follows that of the target, or 0 where the module has written none (R393). Pairs
form anew (log entry 47). -/
def State.enterRolled (s : State) (c : BitVec 32) : State :=
  let s1 := (countFrom 0 96).foldl (fun (s : State) n => s.resetSequencer (Fin.ofNat 4 (n / 24)) (Fin.ofNat 24 n)) (s.restoreRand (manifestAt c.toNat))
  { s1 with
    etus := (countFrom 0 5).foldl (fun m i => mmod Etu.reset m i (fun e => { e with maint := s1.mgmt.testHold })) s1.etus
    tether := { s1.tether with stopSeen := false, stopped := false, stopsTaken := [] }
    snap := { s1.snap with prevDigest := if s1.snap.prevDigest = [] then [] else s1.readMem (manifestAt c.toNat + 64) 32,
                           phase := .rolled, epoch := c, rolling := false, restoring := false, paired := false, pairSent := false,
                           peer := none, streaming := false } }

/-- `ROLLBACK_COMPLETE` (R402): the range digests of the slot decide. -/
def execRollbackComplete (s : State) : Host.Outcome State Fault Refusal :=
  let c := s.snap.rollEpoch
  if s.snap.phase ≠ .stopped ∨ !s.snap.rolling then next s
  else if s.rangesAgree (manifestAt c.toNat) (s.halfBase c.toNat) then next (s.enterRolled c)
  else next (s.modSnap (fun x => { x with rolling := false, restoreErr := true }))

/-- `SNAPCTL.RESUME`, in ROLLED. -/
def State.resumeRun (s : State) : State := if s.snap.phase = .rolled then s.modSnap (fun x => { x with phase := .run }) else s

/-- `SNAPCTL_RESUME` (R405). -/
def execSnapctlResume (s : State) : Host.Outcome State Fault Refusal := next s.resumeRun

/-- `SNAPCTL.SENDWARD`: the ward slot of `XFERCTL.EPOCH`, then its manifest, where a half and the ward ring hold that epoch: its half
is overwritten from the second cut after it on. -/
def State.sendWard (s : State) : State :=
  let n := s.snap.xferEpoch.toNat
  let m := wardManifestAt n
  if (s.snap.phase ≠ .stopped ∧ s.snap.phase ≠ .rolled) ∨ s.readNat m 4 ≠ 0x464D5846 ∨ s.readNat (m + 8) 4 ≠ n
      ∨ n + 1 < s.snap.epoch.toNat then s
  else
    let size := ((s.manifestRanges m).map (·.2.1)).foldl (· + ·) 0
    let dst := s.snap.xferDest.toNat
    let slot := s.halfBase n + s.homeSizeAt n
    let s1 := (countFrom 0 (size / 65536)).foldl (fun (s : State) g => s.sendGranule dst n slot (65536 * g)) s
    s1.sendManifest dst n m size

/-- `SNAPCTL_SENDWARD` (R403). -/
def execSnapctlSendward (s : State) : Host.Outcome State Fault Refusal := next s.sendWard

/-- A write of `TAKEOVER` (R403, R407): `ASSUMEDID` on a spare before `ENABLE`; setting `ENABLE` takes the target epoch. -/
def State.writeTakeover (s : State) (value : Word) : State :=
  if !s.spare then s
  else
    let s1 := s.modSnap (fun x => { x with assumedId := value.extractLsb' 0 20 })
    if value.getLsbD 20 then s1.modSnap (fun x => { x with takeover := true, epoch := x.rollEpoch }) else s1

/-- `TAKEOVER` (R403). -/
def execTakeover (value : Word) (s : State) : Host.Outcome State Fault Refusal := next (s.writeTakeover value)

/-- `RESTORE_COMPLETE` (R403): the ranges must be the manifest's, and the digests agree. -/
def execRestoreComplete (s : State) : Host.Outcome State Fault Refusal :=
  if s.snap.phase ≠ .stopped ∨ !s.snap.restoring then next s
  else
    let c := s.snap.rollEpoch
    let m := manifestAt c.toNat
    let rs := s.manifestRanges m
    let ok := decide (rs.map (fun r => (r.1, r.2.1)) = s.snapRanges) && decide (s.snapRanges.map (fun r => s.rangeDigest r.1 r.2) = rs.map (·.2.2))
      && decide (s.manifestDigest m = s.readMem (m + 64) 32)
    next (if ok then s.enterRolled c else s.modSnap (fun x => { x with restoring := false, restoreErr := true }))

end Sys2Proof.Machine
end

