-- ==== Sys2Proof/Machine/Epochs.lean ====
section
/-! DEFINITION. The barriers of the Tether, the epochs that they cut and commit, and the flip barrier (15 R378, R379; 16 R386,
R390; 02 R64, R65). -/

namespace Sys2Proof.Machine

/-! ## Barriers (15 R378) -/

/-- The barrier IDs of the cut of epoch `n` and of its commit (16 R384). -/
def cutId (n : Nat) : Nat := 0x8000 + 2 * (n % 0x4000)
def commitId (n : Nat) : Nat := cutId n + 1

/-- The open slot of a barrier. -/
def State.barSlot (s : State) (id : BitVec 16) : Option BarSlot := s.tether.bars.find? (fun b => decide (b.id = id))

/-- Put a slot in place of the one with its number. -/
def State.setBar (s : State) (b : BarSlot) : State :=
  { s with tether := { s.tether with bars := s.tether.bars.filter (fun x => decide (x.slot ≠ b.slot)) ++ [b] } }

/-- The lowest slot of the 16 that holds no open barrier. -/
def State.freeBar (s : State) : Option Nat := (countFrom 0 16).find? (fun i => !(s.tether.bars.map (·.slot)).contains i)

/-- What the completion of an epoch barrier does beside the notice: a cut (an even ID) or a commit. -/
def State.epochBarrier (s : State) (id : Nat) : State :=
  if id < 0x8000 then s
  else if id % 2 = 0 then
    if s.snap.phase = .hold ∧ id ≠ cutId (s.snap.epoch.toNat + 1) then s else s.takeCut
  else if id = commitId s.snap.epoch.toNat then s.takeCommit
  else s

/-- A completion reaches the module: notice 04h with the slot and the origin of the token that carries it, and the slot is free. -/
def State.barrierDone (s : State) (origin : BitVec 20) (id : BitVec 16) : State :=
  let s1 := match s.barSlot id with
    | some b =>
      { s with tether := { s.tether with bars := s.tether.bars.filter (fun x => decide (x.slot ≠ b.slot)) } }.deliverNotice 4 b.slot origin 0
    | none => s
  s1.epochBarrier id.toNat

/-- Whether the module's own arrival at a barrier is in, or not awaited (15 R378; 16 R384, R400). -/
def State.ownArrived (s : State) (b : BarSlot) : Bool :=
  b.own || s.ownCounts || (decide (0x8000 ≤ b.id.toNat) && !s.hasSec 10)

/-- Send the arrival up, or complete at the top, once every arrival is in. -/
def State.settleBarrier (s : State) (id : BitVec 16) : State :=
  match s.barSlot id with
  | none => s
  | some b =>
    if !s.ownArrived b ∨ b.sentUp ∨ s.awaitedPorts.any (fun p => !b.ports.contains p) then s
    else match s.upPort with
      | some u => (s.setBar { b with sentUp := true }).sendOwn [u] 3 0 id.toNat none
      | none => (s.sendOwn s.downPorts 3 1 id.toNat none).barrierDone (BitVec.ofNat 20 s.moduleId) id

/-- An arrival at a barrier from a down port, or (8) of the module itself. A repeated one from a port sets `BARERR`. An
arrival for a 17th barrier is held. -/
def State.arriveBarrier (s : State) (from' : Nat) (id : BitVec 16) : State :=
  match s.barSlot id with
  | some b =>
    if from' = 8 then (s.setBar { b with own := true }).settleBarrier id
    else if b.ports.contains from' then { s with tether := { s.tether with barErr := true } }
    else (s.setBar { b with ports := b.ports ++ [from'] }).settleBarrier id
  | none =>
    match s.freeBar with
    | none => { s with tether := { s.tether with heldArrivals := s.tether.heldArrivals ++ [(from', id)] } }
    | some i =>
      (s.setBar { slot := i, id := id, own := decide (from' = 8), ports := if from' = 8 then [] else [from'], sentUp := false }).settleBarrier id

/-- Held arrivals are taken once a slot is free. -/
def State.takeHeldArrivals (s : State) : State :=
  let l := s.tether.heldArrivals
  l.foldl (fun (s : State) x => s.arriveBarrier x.1 x.2) { s with tether := { s.tether with heldArrivals := [] } }

/-- `TBAR` (R383). -/
def execTbar (value : Word) (s : State) : Host.Outcome State Fault Refusal :=
  next (if s.powered 0 then (s.arriveBarrier 8 (value.setWidth 16)).takeHeldArrivals else s)

/-- `BARRIER_ARRIVE` (R378). -/
def execBarrierArrive (t : TokenIn) (id : BitVec 16) (s : State) : Host.Outcome State Fault Refusal :=
  next (s.receiveUp t (barrierBody 0 id) (fun s => (s.arriveBarrier t.port.val id).takeHeldArrivals))

/-- `BARRIER_COMPLETE` (R378): passed on down. -/
def execBarrierComplete (t : TokenIn) (id : BitVec 16) (s : State) : Host.Outcome State Fault Refusal :=
  next (s.receiveDown t (barrierBody 1 id) (fun s => ((s.passOn t s.downPorts 3 1 id.toNat none).barrierDone t.origin id).takeHeldArrivals))

/-! ## The arrivals of an epoch (16 R386, R390) -/

/-- `SNAPSHOT_CLEAN_COMPLETE` (R386): the set is clean; HOLD, and the arrival at the cut. -/
def execSnapshotCleanComplete (s : State) : Host.Outcome State Fault Refusal :=
  if s.snap.phase ≠ .clean ∨ s.cleanBlocked then next s
  else
    let s1 := s.cleanSet.modSnap (fun x => { x with phase := .hold })
    next ((s1.arriveBarrier 8 (BitVec.ofNat 16 (cutId (s.snap.epoch.toNat + 1)))).takeHeldArrivals)

/-- `COMMIT_ARRIVE` (R390). -/
def execCommitArrive (s : State) : Host.Outcome State Fault Refusal :=
  if !s.commitReady then next s
  else
    let s1 := s.modSnap (fun x => { x with phase := .commitWait })
    next ((s1.arriveBarrier 8 (BitVec.ofNat 16 (commitId s.snap.epoch.toNat))).takeHeldArrivals)

/-! ## The flip barrier (15 R379; 02 R64, R65) -/

/-- The flip barrier is over. -/
def State.closeFlip (s : State) : State :=
  { s with tether := { s.tether with flipOwn := false, flipPorts := [], flipSent := false, flipOpened := false, flipTimer := false } }

/-- Send the arrival up, or complete at the top once the flip is open. -/
def State.settleFlip (s : State) : State :=
  let t := s.tether
  if !(t.flipOwn || s.ownCounts) ∨ t.flipSent ∨ s.awaitedPorts.any (fun p => !t.flipPorts.contains p) then s
  else match s.upPort with
    | some u => { s with tether := { t with flipSent := true } }.sendOwn [u] 2 0 0 none
    | none => if t.flipOpened then (s.sendOwn s.downPorts 2 1 0 none).closeFlip.flipCompletes else s

/-- `FLIP_QUIESCENT` (R64): the armed module has become quiescent; it holds, arrives, and is committed. -/
def execFlipQuiescent (s : State) : Host.Outcome State Fault Refusal :=
  if s.image.shd ≠ .armed ∨ s.image.committed ∨ !s.quiescent ∨ !s.imageInForce then next s
  else
    next { s with
      image := { s.image with hold := true, committed := true }
      tether := { s.tether with flipOwn := true } }.settleFlip

/-- `FLIP_ARRIVE` (R379). A port counts once. -/
def execFlipArrive (t : TokenIn) (s : State) : Host.Outcome State Fault Refusal :=
  next (s.receiveUp t (flipBody 0) (fun s =>
    if s.tether.flipPorts.contains t.port.val then { s with tether := { s.tether with barErr := true } }
    else { s with tether := { s.tether with flipPorts := s.tether.flipPorts ++ [t.port.val] } }.settleFlip))

/-- `FLIP_OPEN` (R379): by the software of the top Spool, which starts the timer, or from above. -/
def execFlipOpen (src : TetherFrom) (s : State) : Host.Outcome State Fault Refusal :=
  match src with
  | .own =>
    if !s.powered 0 ∨ s.tetherRole ≠ 2 ∨ s.tether.flipOpened then next s
    else next ({ s with tether := { s.tether with flipOpened := true, flipTimer := true } }.sendOwn s.downPorts 2 2 0 none).settleFlip
  | .port t =>
    next (s.receiveDown t (flipBody 2) (fun s =>
      ({ s with tether := { s.tether with flipOpened := true } }.passOn t s.downPorts 2 2 0 none).settleFlip))

/-- `FLIP_COMPLETE` (R379). -/
def execFlipComplete (t : TokenIn) (s : State) : Host.Outcome State Fault Refusal :=
  next (s.receiveDown t (flipBody 1) (fun s => (s.passOn t s.downPorts 2 1 0 none).closeFlip.flipCompletes))

/-- `FLIP_ABANDON` (R379). -/
def execFlipAbandon (t : TokenIn) (s : State) : Host.Outcome State Fault Refusal :=
  next (s.receiveDown t (flipBody 3) (fun s => (s.passOn t s.downPorts 2 3 0 none).closeFlip.flipAbandoned))

/-- `FLIP_ABANDON_TIMEOUT` (R65): 10 s after the open, at the top Spool, without completion. -/
def execFlipAbandonTimeout (s : State) : Host.Outcome State Fault Refusal :=
  if !s.powered 0 ∨ s.tetherRole ≠ 2 ∨ !s.tether.flipTimer then next s
  else next (s.sendOwn s.downPorts 2 3 0 none).closeFlip.flipAbandoned

/-! ## A neighbour lost (15 R377; 16 R400) -/

/-- Everything that waits for arrivals looks again. -/
def State.settleAll (s : State) : State :=
  let s1 := s.tether.bars.foldl (fun (s : State) b => s.settleBarrier b.id) s
  let s2 := s1.tether.reds.foldl (fun (s : State) r => s.settleReduce r.slot) s1
  s2.settleFlip.takeHeldArrivals

/-- Time in which no command is waiting: a module that fail-stopped while it was stopped counts as arrived (16 R400), and every Tether
port transmits (15 R373; log entry 1). -/
def State.idle (s : State) : State := (if s.power.failStop.isSome then s.settleAll else s).tetherTick

/-- `HEARTBEAT_LOST` (R377): once for a used port, until it regains lock and heartbeats. -/
def execHeartbeatLost (p : Fin 8) (s : State) : Host.Outcome State Fault Refusal :=
  if !s.powered 0 ∨ s.tdir p.val = 0 ∨ (s.tport p).gone then next s else next (s.neighbourLost p).settleAll

end Sys2Proof.Machine
end

