-- ==== Sys2Proof/Machine/Power.lean ====
section
/-! DEFINITION. Power, start-up, resets and the samples of sensors and inputs (18 R422 to R429; 14 R355; 19 R446 to R449; 02 R60,
R61). The resets that a management message asks for are in Machine/Mgmt.lean. -/

namespace Sys2Proof.Machine

/-! ## What a loss of power and a reset leave (18 R429; 02 R60) -/

/-- SHADOW across a reset (02 R60). `FLIPABORT`, `REJCODE`, `REJTYPE` and `REJOFFSET` keep their values where R60 sets none: R58
gives them reset values and does not say which resets restore them, and a loss of power alone does so here (DESIGN CHOICE, log
entry 65). -/
def Image.acrossReset (i : Image) : Image :=
  let i1 := match i.shd with
    | .loading => { i with shd := .invalid, rejCode := 0x0F, rejType := 0, rejOffset := 0 }
    | .armed => { i with shd := .valid, flipAbort := true }
    | _ => i
  { i1 with hold := false, committed := false, applying := false, loadPath := false, selected := none }

/-- What a module reset leaves: the always-on domain and the Cabinet. Of the sections, 04h stays in force for the Tether
(log entry 48). -/
def State.alwaysOn (s : State) : State :=
  { State.reset with
    pending := s.pending, fresh := s.fresh, out := s.out, busOut := s.busOut
    image := { s.image.acrossReset with secs := mset [] [] 4 (s.sec 4), secsNext := [] }
    calib := s.calib, calRun := s.calRun, fuses := s.fuses, tether := s.tether, mgmt := s.mgmt, power := s.power, fatalLog := s.fatalLog, fatalNew := s.fatalNew
    snap := { Snap.reset with cabinet := s.snap.cutCabinet } }

/-- The domains of a bit list. -/
def domainBits (l : List Nat) : BitVec 10 := l.foldl (fun (m : BitVec 10) i => m ||| (BitVec.ofNat 10 1 <<< i)) 0

/-- The always-on domain, and the Cabinet where it is on. -/
def State.keptDomains (s : State) : BitVec 10 := s.power.domains &&& domainBits [0, 1]

/-- Power every domain down but the always-on one and, unless `all`, the Cabinet: their contents are lost. -/
def State.powerDown (s : State) (all : Bool) : State :=
  let s1 := s.alwaysOn
  { s1 with power := { s.power with poweredDown := true, domains := if all then domainBits [0] else s.keptDomains } }

/-- `FAIL_STOP_POWER_DOWN` (R437). -/
def execFailStopPowerDown (s : State) : Host.Outcome State Fault Refusal :=
  next (if s.power.failStop.isSome ∧ !s.power.poweredDown then s.powerDown false else s)

/-- What survives without power: the flash of the image store, calibration store and Cabinet, the key slots, the firmware
slots and floors, the start-up count (log entry 48). Of `SISTAT`, `SHDSTATE` is in the image store; the other fields take
their reset values before R60 sets any (02 R58, R60). -/
def State.unpowered (s : State) : State :=
  let s1 := { s with image := { s.image with flipAbort := false, rejCode := 0, rejType := 0, rejOffset := 0 } }.alwaysOn
  let fw (f : Firmware) : Firmware := { f with running := none }
  { s1 with
    image := { s1.image with secs := [], noActive := false }
    calRun := Calib.unread
    tether := Tether.reset
    mgmt := { Mgmt.reset with keys := s.mgmt.keys, fwMgmt := fw s.mgmt.fwMgmt, fwHost := fw s.mgmt.fwHost, floor := s.mgmt.floor, ppr := s.mgmt.ppr }
    power := { Power.reset with domains := 0, startUps := s.power.startUps }
    fatalLog := [], fatalNew := 0 }

/-- `POWER_LOSS` (R426): below 40 V. The outputs are high-impedance from here on (19 R446). -/
def execPowerLoss (s : State) : Host.Outcome State Fault Refusal :=
  next (if s.powered 0 then (if s.power.failstopLow then s.unpowered.emit (.pin 0 true) else s.unpowered) else s)

/-- `POWER_ON` (R429): the input rises through 40 V. -/
def execPowerOn (s : State) : Host.Outcome State Fault Refusal :=
  next (if s.powered 0 then s else { s with power := { s.power with domains := domainBits [0] } })

/-! ## Selection of an image (02 R61) -/

/-- Select and verify an image; SHADOW only where the start-up permits it. The Tether takes its position from it, and the fabric ports
train by it (18 R427). A SHADOW that fails here records the code of the check that failed; one that fails again at step 5 leaves the
record as it is: the spec says of neither what `REJCODE` becomes (log entry 55). An ACTIVE that fails here is `unfit`: step 5 ends with
`NOACTIVE` (18 R428). -/
def State.selectImage (s : State) (shadow : Bool) : State :=
  let i := s.image
  let try' := shadow && decide (i.shd = .resetPending)
  let bad := firstBad 0 0 (framingChecks i.shadow ++ signatureChecks i.keys i.shadow)
  let image := if try' ∧ bad.isNone then { i with selected := some true, unfit := false }
    else { (if try' then
        { i with
          shd := .invalid, rejCode := BitVec.ofNat 8 ((bad.map (·.code)).getD 0), rejType := 0
          rejOffset := BitVec.ofNat 24 ((bad.map (·.offset)).getD 0) }
      else i) with selected := some false, unfit := !imageVerifies i.keys i.active }
  let secs := if try' ∧ bad.isNone then imageSections i.shadow else if image.unfit then [] else imageSections i.active
  { s with image := { image with trains := mget [] secs 3 } }.setSec 4 (mget [] secs 4)

/-! ## Power states of a compute die (18 R423 to R425; 02 R50, R68) -/

/-- The slowest of what bounds the state of a die: `PMAX`, `PREQ`, the thermal and the power limit, missing clock trims. -/
def State.cdTarget (s : State) (d : Fin 4) : BitVec 2 :=
  let x := s.cdPwr d
  let pmax := bits (s.secNat 7 0 1) (2 * d.val) 2
  let n := max (max pmax x.preq.toNat) (max (max x.tlim.toNat x.powLim.toNat) (if x.trimBad then 2 else 0))
  BitVec.ofNat 2 (min n 2)

/-- A die whose bounds have changed begins to change its frequency (03 R87). -/
def State.retarget (s0 : State) (d : Fin 4) : State :=
  let t := s0.cdTarget d
  let s := if t = (s0.cdPwr d).pstate then s0 else s0.sampleDryOf (fun n => decide (n / 384 = d.val))
  let x := s.cdPwr d
  s.setCdPwr d { x with target := if t = x.pstate then none else some t }

/-- `PSTEP_COMPLETE` (R87). A die in Idle keeps the state that it holds (R423). -/
def execPstepComplete (d : Fin 4) (s : State) : Host.Outcome State Fault Refusal :=
  let x := s.cdPwr d
  next (match x.target with
    | some t => if s.cdUp d && !x.idle then s.setCdPwr d { x with pstate := t, target := none } else s
    | none => s)

/-- A write of `CDPWR`: `PREQ`, of which 3h is ignored (R425). -/
def State.requestState (s : State) (d : Fin 4) (p : BitVec 2) : State :=
  if p = 3 then s else (s.setCdPwr d { s.cdPwr d with preq := p }).retarget d

/-- The thermal thresholds of section 0Bh with its defaults (02 R53). -/
def State.thermalStep (s : State) (lo def' len : Nat) : Nat := if s.hasSec 11 then bits (s.secNat 11 0 8) lo len else def'

/-- The thermal limit after a sample: thresholds with hysteresis (R424). -/
def State.thermalLimit (s : State) (now : Nat) (early t : Nat) : Nat :=
  let h := s.thermalStep 40 3 4
  let t1 := s.thermalStep 24 95 8 - early
  let t2 := s.thermalStep 32 100 8 - early
  if t2 ≤ t ∨ (2 ≤ now ∧ t2 ≤ t + h) then 2 else if t1 ≤ t ∨ (1 ≤ now ∧ t1 ≤ t + h) then 1 else 0

/-- `CD_THERMAL_SAMPLE` (R424). -/
def execCdThermalSample (d : Fin 4) (sample : Option Byte) (s : State) : Host.Outcome State Fault Refusal :=
  let x := s.cdPwr d
  if !s.cdUp d then next s
  else match sample with
  | none =>
    if x.sensorFailed then next s
    else
      let s1 := s.setCdPwr d { x with sensorFailed := true, tlim := 2, stepCnt := if x.tlim = 2 then x.stepCnt else satAdd x.stepCnt 1 }
      next ((s1.retarget d).report (mkRec (d.val + 1) 0xC002 0x14 1 0 0))
  | some b =>
    let n := if x.sensorFailed then 2 else s.thermalLimit x.tlim.toNat x.early.toNat b.toNat
    let y := { x with
      jtemp := b, jmax := if x.jmax.toNat < b.toNat then b else x.jmax, tlim := BitVec.ofNat 2 n
      stepCnt := if x.tlim.toNat < n then satAdd x.stepCnt 1 else x.stepCnt }
    let s1 := (s.setCdPwr d y).retarget d
    next (if 110 ≤ b.toNat + x.early.toNat then s1.report (mkRec (d.val + 1) 0xC002 0x15 3 0 b.toNat) else s1)

/-- `CD_IDLE_ENTRY` (R423): every sequencer of the die is HALTED, RESET or in WAIT, every partition IDLE or UNBOUND, every engine and
mover IDLE. -/
def execCdIdleEntry (d : Fin 4) (s : State) : Host.Outcome State Fault Refusal :=
  let mine (n per : Nat) : Bool := decide (n / per = d.val)
  let rest := s.cores.all (fun x => decide (96 ≤ x.1) || !mine x.1 24 || decide (x.2.st = .halted ∨ x.2.st = .reset)
    || (decide (x.2.st = .run) && decide (x.2.wait = some .interrupt)))
    && s.quads.all (fun x => !mine x.1 384 || (decide (x.2.queue = []) && !x.2.fault))
    && s.engines.all (fun x => !mine x.1 7 || decide (x.2.st = .idle))
    && s.movers.all (fun x => decide (x.2.st = .idle) || (if x.1 < 192 then !mine x.1 48 else !mine (x.1 - 192) 16))
  next (if s.cdUp d ∧ rest ∧ !s.frozen then s.setCdPwr d { s.cdPwr d with idle := true } else s)

/-- `POWER_WINDOW` (R425): 10 ms windows; ten in a row below 4,560 W end the limit. -/
def execPowerWindow (watts : BitVec 16) (s : State) : Host.Outcome State Fault Refusal :=
  if !s.powered 0 then next s
  else
    let s1 := { s with power := { s.power with pin := watts } }
    let each (f : CdPwr → BitVec 2 → CdPwr) (s : State) : State := (countFrom 0 4).foldl (fun (s : State) i =>
      let d : Fin 4 := Fin.ofNat 4 i
      if s.cdUp d then (s.setCdPwr d (f (s.cdPwr d) (s.cdTarget d))).retarget d else s) s
    if 4800 < watts.toNat then
      next (each (fun x t => { x with
          plim := true, powLim := BitVec.ofNat 2 (min 2 (t.toNat + 1)), stepCnt := if x.plim then x.stepCnt else satAdd x.stepCnt 1 })
        { s1 with power := { s1.power with goodWindows := 0 } })
    else if watts.toNat < 4560 then
      if 9 ≤ s.power.goodWindows then next (each (fun x _ => { x with plim := false, powLim := 0 }) { s1 with power := { s1.power with goodWindows := 0 } })
      else next { s1 with power := { s1.power with goodWindows := s.power.goodWindows + 1 } }
    else next { s1 with power := { s1.power with goodWindows := 0 } }

/-! ## Thermal samples of the memories (14 R355, R356) -/

/-- The level after a sample (R355). -/
def stackLevel (now t : Nat) : Nat :=
  if 105 ≤ t ∨ now = 3 then 3
  else if 95 ≤ t ∨ (2 ≤ now ∧ 92 ≤ t) then 2
  else if 85 ≤ t ∨ (1 ≤ now ∧ 82 ≤ t) then 1
  else 0

/-- Whether a stack or module is throttled. -/
def State.anyThrottled (s : State) : Bool := s.dram.any (fun x => decide (2 ≤ x.2.level.toNat))

/-- The die, the unit, the power domain of a sensor, and the degrees by which it acts early (18 R431; 02 R68). -/
def State.sensor (s : State) : MemSensor → Nat × Nat × Nat × Nat
  | .stack d k => (5 + d.val, 0xC010 + k.val, 4 + d.val, if s.calBad 2 (5 + d.val) then 5 else 0)
  | .module m => (0, 0xC010 + m.val, 8, if s.calBad 2 0 then 5 else 0)

/-- `STACK_THERMAL_SAMPLE` (R355). -/
def execStackThermalSample (t : MemSensor) (sample : Option Byte) (s : State) : Host.Outcome State Fault Refusal :=
  let (die, unit, dom, early) := s.sensor t
  let n := sensorKey t
  let x := s.stack n
  if !s.powered dom then next s
  else
    let level := match sample with
      | none => max x.level.toNat 2
      | some b => stackLevel (if x.sensFail then max x.level.toNat 2 else x.level.toNat) (b.toNat + early)
    let level' := if x.sensFail then max level 2 else level
    let y := { x with
      level := BitVec.ofNat 2 level', sensFail := x.sensFail || sample.isNone
      temp := sample.getD x.temp, tmax := if x.tmax.toNat < (sample.getD 0).toNat then sample.getD 0 else x.tmax
      thrCnt := if x.level.toNat < 2 ∧ 2 ≤ level' then satAdd x.thrCnt 1 else x.thrCnt }
    let s1 := s.setStack n y
    let s2 := if sample.isNone ∧ !x.sensFail then s1.report (mkRec die unit 0x14 1 0 0) else s1
    let s3 := if level' = 3 ∧ x.level ≠ 3 then s2.report (mkRec die unit 0x15 3 0 (sample.getD 0).toNat) else s2
    next (if s.anyThrottled = s1.anyThrottled then s3 else s3.sendSlow s1.anyThrottled)

/-! ## Input and reference clocks (18 R426; 19 R446, R449) -/

/-- The warning starts: a STOP with cause 03h and source 0EAh (R426). -/
def State.warn (s : State) : State :=
  let p := s.power
  { s with power := { p with pfw := true, pfwSeen := true, pfwCnt := satAdd p.pfwCnt 1 } }.injectStop 3 |>.hicSource 0xEA

/-- The brownout: fail-stop with class 17h, and every domain but the always-on one loses power (R426). -/
def State.brownout (s : State) : State :=
  let s1 := s.report (mkRec 0 0xC000 0x17 3 0 0)
  { s1.powerDown true with power := { (s1.powerDown true).power with brownHold := true } }

/-- `INPUT_VOLTAGE_SAMPLE` (R426): one microsecond after the last. -/
def execInputVoltageSample (vin : BitVec 16) (header : Bool) (s : State) : Host.Outcome State Fault Refusal :=
  if !s.powered 0 then next s
  else
    let p := s.power
    let v := vin.toNat
    let p1 := { p with
      vin := vin
      low48 := if v < 4800 then p.low48 + 1 else 0, low44 := if v < 4400 then p.low44 + 1 else 0
      high50 := if 5000 < v then p.high50 + 1 else 0, lowHeader := if header then p.lowHeader + 1 else 0 }
    let s1 := { s with power := p1 }
    let s2 := if !p.pfw ∧ (10 ≤ p1.low48 ∨ 2 ≤ p1.lowHeader) then s1.warn
      else if p.pfw ∧ 4900 < v ∧ !header then { s1 with power := { p1 with pfw := false } }
      else s1
    let s3 := if p1.low44 = 10 then s2.brownout else s2
    next (if s3.power.brownHold ∧ 10000 ≤ p1.high50 then
      { s3 with power := { s3.power with brownHold := false, domains := s3.power.domains ||| domainBits [1] } }
    else s3)

/-- `REF_CLOCK_CHECK` (R449). -/
def execRefClockCheck (ok156 ok100 : Bool) (s : State) : Host.Outcome State Fault Refusal :=
  if !s.powered 0 ∨ s.power.step < 1 then next s
  else
    let s1 := if ok156 ∨ s.power.lost156 then s
      else { s with power := { s.power with lost156 := true } }.report (mkRec 0 0xC004 0x1B 3 0 0)
    next (if ok100 ∨ s.power.lost100 then s1
      else ({ s1 with power := { s1.power with lost100 := true } }.pcieDown).report (mkRec 0 0xC003 0x19 1 0 0))

/-- `REGULATOR_FAULT` (R432). -/
def execRegulatorFault (rail : Byte) (s : State) : Host.Outcome State Fault Refusal :=
  next (if s.powered 0 ∧ 3 ≤ s.power.step then s.report (mkRec 0 0xC001 0x16 3 0 rail.toNat) else s)

/-! ## Start-up (18 R427, R428) -/

/-- A step of start-up may begin: the one before it is complete, no FATAL record has stopped it, the ROM is not in control, and no
warning holds it (R428, R447); the first once the input has held above 50.0 V for 10 ms (R427, 19 R440). -/
def State.stepMay (s : State) (n : Nat) : Bool :=
  s.powered 0 && decide (s.power.step + 1 = n) && s.power.failStop.isNone && !s.mgmt.rom && (decide (n < 3) || !s.power.pfw)
  && (decide (n ≠ 1) || decide (10000 ≤ s.power.high50))

def State.setStep (s : State) (n : Nat) : State := { s with power := { s.power with step := n } }

/-- `START_UP_STEP1` (R427): the counter starts at 0, the outputs are driven (19 R446), and the security engine creates the attestation
keys of this start-up (17 R420), whose bytes are free values. -/
def execStartUpStep1 (s : State) : Host.Outcome State Fault Refusal :=
  if !s.stepMay 1 then next s
  else
    let s1 := { s with
      fresh := s.fresh + 1, mgmt := { s.mgmt with attest := (countFrom 0 64).map (Config.freeByte s.fresh) }
      power := { s.power with step := 1, startUps := s.power.startUps + 1, counter := 0 } }
    next ((s1.emit (.pin 1 false)).driveFailstop)

/-- A slot of a firmware. -/
def Firmware.slot (f : Firmware) (b : Bool) : List Byte := if b then f.slotB else f.slotA

/-- The ROM's rule for a firmware image: the dual signature, and a security version at least the fused floor (17 R421). -/
def Firmware.okSlot (f : Firmware) (floor : Nat) (b : Bool) : Bool := Config.fwVerifies (f.slot b) && decide (floor ≤ Config.fwVersion (f.slot b))

/-- The slot that runs: the preferred one, else the other. -/
def Firmware.choose (f : Firmware) (floor : Nat) : Option Bool := [f.preferB, !f.preferB].find? (f.okSlot floor)

/-- Ports whose equalisation is missing train adaptively from defaults (02 R68, type 0004h): the instances `lo` to `lo + n - 1`, of which 0
to 11 are F0 to F11, 12 to 19 TP0 to TP7, and 20 PCIe (log entry 54). -/
def State.adapt (s : State) (lo n : Nat) : State :=
  { s with power := { s.power with adaptive := (countFrom lo n).foldl (fun m i =>
      if s.calBad 4 i then m ||| (BitVec.ofNat 21 1 <<< i) else m &&& ~~~(BitVec.ofNat 21 1 <<< i)) s.power.adaptive } }

/-- `START_UP_STEP2` (R427, R428). -/
def execStartUpStep2 (locked : BitVec 8) (s : State) : Host.Outcome State Fault Refusal :=
  if !s.stepMay 2 then next s
  else match s.mgmt.fwMgmt.choose s.mgmt.floor with
  | none => next { s with mgmt := { s.mgmt with rom := true } }
  | some b =>
    let s1 := { s with mgmt := { s.mgmt with rom := false, fwMgmt := { s.mgmt.fwMgmt with running := some b } } }.driveFailstop
    let s2 := ({ s1 with calRun := s1.calib }.adapt 12 8).validated.selectImage true
    next ((countFrom 0 8).foldl (fun (s : State) p =>
      if s.tdir p ≠ 0 ∧ locked.getLsbD p then s.setTport (Fin.ofNat 8 p) { s.tport (Fin.ofNat 8 p) with lock := true } else s) s2 |>.setStep 2)

/-- Hard post-package repair of what the log lists for a block; whether a repair succeeds is a free value (14 R349). -/
def State.ppr (s : State) (b : MemBlockId) : State :=
  let words := match b with
    | .mb d => (countFrom 0 4).flatMap (fun st => (s.stack (stackKey (.mb d) st)).cam.map (fun (x : Nat × Nat) => rowLogWord 5 st x.1 x.2))
    | .hd =>
      let log := (s.calRun.good 8 4).getD []
      ((logWords (log.length / 16) log).filter (fun w =>
        decide (bits w 0 4 = 3) && (s.block .hd).retired.contains (tier2Granule w))).map (fun w => w + 2)
  words.foldl (fun (s : State) w =>
    if (Config.freeWord s.fresh).getLsbD 0 then (s.bump.logRepair b w).applyRepair b w else s.bump) s

/-- The training results that are missing are found anew and written; their bytes are not given (02 R68). -/
def State.retrainHbm (s : State) : State :=
  (countFrom 0 16).foldl (fun (s : State) i =>
    if s.calBad 6 i then
      let old : Option CalEntry := s.calib.find 6 i
      { s with calib := s.calib.tryPut 6 i 2 ((old.map CalEntry.writes).getD 0) ((old.map CalEntry.stamp).getD 0) (leBytes 8 (Config.freeWord s.fresh).toNat) }.bump
    else s) s

/-- The calibration instance of a link's lane repair (02 R68; log entry 54). -/
def linkInstance (l : LinkId) : Nat := (linkIds l).1

/-- `START_UP_STEP3` (R427; 01 R17; 02 R68; 14 R349; 03 R92). A rail whose trim is missing or bad stops start-up. `lanes` are the
links that have a bad lane, each with whether the stored repair values route around it: without a stored repair, or with one
that does not, the link fails training and the module fail-stops. The fabric ports begin to train. -/
def execStartUpStep3 (lanes : List (LinkId × Bool)) (s0 : State) : Host.Outcome State Fault Refusal :=
  let s := { s0 with calRun := s0.calib }
  if !s0.stepMay 3 then next s0
  else match Config.rails.find? (s.calBad 3) with
  | some r => next (s.report (mkRec 0 0xC001 0x16 3 0 r))
  | none =>
    let on := domainBits ([0, 2, 4, 5, 6, 7, 8, 9] ++ (if s.power.brownHold then [] else [1]))
    let s1 := { s with power := { s.power with domains := on ||| s.keptDomains } }
    match lanes.find? (fun x => s.calBad 5 (linkInstance x.1) || !x.2) with
    | some x => next (s1.report (mkRec (linkEnd x.1 true).1 (linkEnd x.1 true).2 0x0F 3 0 0))
    | none =>
      let blocks : List MemBlockId := [.mb 0, .mb 1, .mb 2, .mb 3, .hd]
      let s2 := blocks.foldl (fun (s : State) b =>
        let s' := s.reloadRepairs b
        if s.mgmt.ppr.contains (logInstance b) then s'.ppr b else s') s1
      let s3 := { s2 with mgmt := { s2.mgmt with ppr := [] } }.retrainHbm
      let s4 := { s3 with power := { s3.power with hdAtP2 := s.calBad 1 0 },
                          arrays := (countFrom 0 384).foldl (fun m i => mset ArrayCfg.reset m i (s3.repairMap i)) s3.arrays }
      let s5 := (countFrom 0 4).foldl (fun (s : State) i =>
        s.setCdPwr (Fin.ofNat 4 i) { CdPwr.reset with trimBad := s.calBad 1 (i + 1), early := if s.calBad 2 (i + 1) then 5 else 0 }) s4
      next ((countFrom 0 12).foldl (fun (s : State) p => s.retrainPort (Fin.ofNat 12 p)) (((s5.adapt 0 12).adapt 20 1)) |>.setStep 3)

/-- Maintenance mode of every ETU. -/
def State.setMaint (s : State) (on : Bool) : State :=
  { s with etus := (countFrom 0 5).foldl (fun m i => mmod Etu.reset m i (fun e => { e with maint := on })) s.etus }

/-- `START_UP_STEP4` (R427, R428): the Hazia cores start; the address at which they do is not given (log entry 48). Host firmware sets
whether the 100 MHz input is independent of the downstream device, under SRIS (19 R448). -/
def execStartUpStep4 (sris : Bool) (s : State) : Host.Outcome State Fault Refusal :=
  if !s.stepMay 4 then next s
  else match s.mgmt.fwHost.choose s.mgmt.floor with
  | none => next s
  | some b =>
    let cores := (countFrom 0 64).foldl (fun m k =>
      mset Core.reset m (96 + k) { Core.reset with st := .run, pc := Config.freeWord (s.fresh + k) }) s.cores
    next ({ s with
      fresh := s.fresh + 64, cores := cores, host := { s.host with sris := sris }
      mgmt := { s.mgmt with fwHost := { s.mgmt.fwHost with running := some b } }
      power := { s.power with step := 4, domains := s.power.domains ||| domainBits [3] } }.setMaint true)

/-- Every section of the image in ACTIVE is applied (02 R61; 05 R151; 11 R270; 16 R395, R407). -/
def State.applyImage (s : State) : State :=
  let new := imageSections s.image.active
  let s1 := (countFrom 1 12).foldl (fun (s : State) t => s.setSec t (mget [] new t)) { s with image := { s.image with secsNext := [], noActive := false } }
  let s2 := (countFrom 0 384).foldl (fun (s : State) i => s.bindArray i true true) s1
  let s3 := s2.zeroSram
  let s4 := { s3 with
    rands := []
    engines := mmap Engine.reset (fun _ e => { e with nextSeq := 1 }) s3.engines
    etus := (countFrom 0 5).foldl (fun m i => mmod Etu.reset m i (fun e =>
      { e.loadSegments (mget [] new 12) with maint := s.mgmt.testHold, tlb := [], bseq := 1 })) s3.etus
    snap := { Snap.reset with phase := if s3.hasSec 10 then .run else .off, cabinet := s3.snap.cutCabinet } }
  let s5 := (countFrom 0 8).foldl (fun (s : State) p => s.setTport (Fin.ofNat 8 p) { s.tport (Fin.ofNat 8 p) with mismatch := false }) s4
  let s6 := (countFrom 0 12).foldl (fun (s' : State) p =>
    if portEntry s.image.trains (Fin.ofNat 12 p) ≠ portEntry (mget [] new 3) (Fin.ofNat 12 p) then s'.retrainPort (Fin.ofNat 12 p) else s') s5
  let s7 := (countFrom 0 4).foldl (fun (s : State) i => s.retarget (Fin.ofNat 4 i)) s6
  ((countFrom 0 96).foldl (fun (s : State) n =>
    let d : Fin 4 := Fin.ofNat 4 (n / 24)
    let cl : Fin 24 := Fin.ofNat 24 n
    if bit (s.cflags n) 0 then (s.resetSequencer d cl).releaseCore d cl else s) s7).sendPairing

/-- Activation: the selected image is verified again and applied, or `NOACTIVE` is set (02 R61); an ACTIVE that failed at step 2, or
in an earlier activation since the last selection, stays out of force (02 R62; 18 R428). -/
def State.activate (s : State) : State :=
  let i := s.image
  let try' := decide (i.selected = some true) && decide (i.shd = .resetPending)
  let swap := try' && imageVerifies i.keys i.shadow
  let i1 := if swap then { i with activeIsB := !i.activeIsB, selSeq := i.selSeq + 1, shd := .retired }
    else if try' then { i with shd := .invalid }
    else i
  let s1 := { s with image := { i1 with selected := none } }
  (if (swap || !i.unfit) && imageVerifies i.keys i1.active then s1.applyImage
   else { s1 with image := { s1.image with noActive := true, unfit := true, secs := mset [] [] 4 (s1.sec 4) } }).setStep 5

/-- `ACTIVATION` (R61). -/
def execActivation (s : State) : Host.Outcome State Fault Refusal := next (if s.stepMay 5 then s.activate else s)

/-! ## Resets (18 R429; 19 R447) -/

/-- A module reset: ignored after a thermal-critical fail-stop; during start-up it restarts step 3, or leaves a fail-stop with the steps
before it still to come. The image is selected anew by 02 R61 (log entry 48). -/
def State.moduleReset (s : State) : State :=
  if !s.powered 0 ∨ s.power.failStop = some 0x15 then s
  else
    let s1 := s.alwaysOn
    let s2 := { s1 with
      image := { s1.image with noActive := false }
      calRun := s.calib
      tether := { s.tether with stopped := false, flipOwn := false }
      mgmt := { s.mgmt with testHold := false, fwHost := { s.mgmt.fwHost with running := none } }
      power := { s.power with
        domains := s.keptDomains, step := min s.power.step 2, failStop := none, poweredDown := false, lost156 := false, lost100 := false, goodWindows := 0 } }
    ((if s.power.step < 2 then s2 else s2.validated.selectImage true).driveFailstop).settleAll

/-- `MRST_N` (R446). -/
def execMrstN (s : State) : Host.Outcome State Fault Refusal := next s.moduleReset

/-- Whether a cache belongs to a Hazia core (its number as in `cacheKey`). -/
def haziaCache (n : Nat) : Bool := (decide (96 ≤ n) && decide (n < 160)) || (decide (256 ≤ n) && decide (n < 320)) || (decide (356 ≤ n) && decide (n < 420))

/-- A directory request of a Hazia cache. -/
def DirReq.hazia (r : DirReq) : Bool :=
  match r.cache with
  | some c => haziaCache (cacheKey c)
  | none => false

/-- The Hazia caches lose their lines, and their requests leave the module directory (18 R429). What was under way for their
lines is done first. -/
def State.dropHazia (s0 : State) : State :=
  let hazia (x : Nat × CacheLine) : Bool := haziaCache (x.1 / 2 ^ 48)
  let s := ((s0.lines.filter hazia).map (·.1 % 2 ^ 48)).eraseDups.foldl (fun (s : State) l => s.settled l) s0
  let lost := (s.lines.filter (fun x => hazia x && decide (x.2.st = .m))).map (·.1 % 2 ^ 48)
  let kept := { s with
    lines := s.lines.filter (fun x => !hazia x)
    dirty := s.dirty.filter (fun x => !lost.contains x.1)
    module := mmap DirEntry.reset (fun _ e => { e with waiting := e.waiting.filter (fun q => !q.hazia) }) s.module }
  (kept.module.map (·.1)).foldl (fun (s : State) l => s.tidy l) kept

/-- A host reset: the Hazia cores with their caches, the HIC and the PCIe link; start-up goes on with step 4 and ACTIVE. A validation
that it cuts short runs again at once, within the reset: R60 puts it in step 2, which a host reset does not run (DESIGN CHOICE,
log entry 65). -/
def State.hostReset (s : State) : State :=
  let s0 := s.dropHazia
  let s1 := { s0 with
    cores := s0.cores.filter (fun x => decide (x.1 < 96))
    host := { s.host with hirte := [], vectors := [], lstate := 0, width := 0, speed := 0 }
    mgmt := { s.mgmt with fwHost := { s.mgmt.fwHost with running := none } }
    power := { s.power with step := 3, domains := s.power.domains &&& ~~~(domainBits [3]) }
    image := { s.image.acrossReset with secs := s.image.secs } }
  let s2 := s1.validated
  { s2 with image := { s2.image with selected := some false, trains := s.sec 3 } }

end Sys2Proof.Machine
end

