-- ==== Sys2Proof/Machine/Host.lean ====
section
/-! DEFINITION. The host interrupt controller and the PCIe root port (17 R408 to R413). -/

namespace Sys2Proof.Machine

/-! ## The host interrupt controller (17 R408, R409) -/

/-- `HIC_SOURCE_EVENT` (R409): numbers 0ECh to 0FFh are never raised. -/
def execHicSourceEvent (src : Fin 1024) (s : State) : Host.Outcome State Fault Refusal :=
  next (if 0xEC ≤ src.val ∧ src.val ≤ 0xFF then s else s.hicSource src.val)

/-- `HIRTE` as a register. -/
def Hirte.word (h : Hirte) : Nat := h.vector.toNat + 2 ^ 8 * h.core.toNat + 2 ^ 14 * b2n h.en + 2 ^ 15 * b2n h.pend

/-- A write of `HIRTE`: ignored in full where it would enable a vector below 20h (R408). -/
def State.writeHirte (s : State) (n : Nat) (w : Word) : State :=
  let v : Byte := w.extractLsb' 0 8
  if !s.powered 2 ∨ (w.getLsbD 14 ∧ v.toNat < 0x20) then s
  else
    { s with host := { s.host with
        hirte := mmod Hirte.reset s.host.hirte n (fun h => { h with vector := v, core := w.extractLsb' 8 6, en := w.getLsbD 14 }) } }.hicDeliver n

/-- `HIRTE_WRITE` (R409). -/
def execHirteWrite (src : Fin 1024) (value : Word) (s : State) : Host.Outcome State Fault Refusal := next (s.writeHirte src.val value)

/-- A write of `HIPI`: vectors below 20h are ignored (R408). -/
def State.writeHipi (s : State) (w : Word) : State :=
  let v : Byte := w.extractLsb' 0 8
  let c : BitVec 6 := w.extractLsb' 8 6
  if !s.powered 2 ∨ v.toNat < 0x20 then s else s.pendVector c.toNat v.toNat

/-- `HIPI` (R408). -/
def execHipi (value : Word) (s : State) : Host.Outcome State Fault Refusal := next (s.writeHipi value)

/-! ## Inbound requests (17 R413) -/

/-- The context of a requester: the first enabled entry whose masked `RID` matches. -/
def State.ridContext (s : State) (rid : BitVec 16) : Option (BitVec 6) :=
  ((countFrom 0 32).map (fun i => mget RidCtx.reset s.host.rid i)).find? (fun r => r.en && decide (rid &&& r.mask = r.rid &&& r.mask))
    |>.map (·.ctx)

/-- The link carries requests. -/
def State.pcieUp (s : State) : Bool := s.powered 2 && decide (s.host.lstate = 2)

/-- An inbound failure: counted, and one UCNA record. -/
def State.inboundFails (s : State) : State :=
  { s with host := { s.host with inFault := satAdd s.host.inFault 1 } }.report (mkRec 0 0xB000 0x19 1 0 0)

/-- An MSI: data that name no source of one are dropped and counted. `PEND` is set only after the posted writes before it are visible,
so that it waits behind those that the module directory holds (16 R386). -/
def State.takeMsi (s : State) (value : Nat) : State :=
  let n := bits value 0 10
  if n < 0x100 then s.inboundFails
  else if s.snap.heldWrites.any (fun w => decide (w.1 = .hd) && decide (w.2.1 = 2)) then s.modSnap (fun x => { x with heldMsi := x.heldMsi ++ [n] })
  else s.hicSource n

/-- The address of an MSI, not canonical (R413). -/
def msiAddress : Word := 0x8000000000000000

/-- An inbound write of a context: one that fails is dropped; one to lines that the module directory holds waits there (16 R386). -/
def State.inboundWrite (s : State) (c : BitVec 6) (va : Word) (b : List Byte) : State :=
  if va = msiAddress ∧ b.length = 4 then s.takeMsi (leNat b)
  else match s.agentLocate .hd c .write (rangePieces va.toNat b.length) with
  | (.ok l, s1) => s1.agentScatter .hd (.uncached 2) l b
  | (.error _, s1) => s1.inboundFails

/-- `PCIE_INBOUND_REQUEST` (R413): a request that matches no context completes with Unsupported Request, as a read that fails. -/
def execPcieInboundRequest (rid : BitVec 16) (va : Word) (size : Nat) (data : Option (List Byte)) (s : State) :
    Host.Outcome State Fault Refusal :=
  if !s.pcieUp then next s
  else match s.ridContext rid, data with
    | none, _ => next (s.inboundFails.emit (.completion false []))
    | some c, none =>
      match s.agentRead .hd (.uncached 2) c va.toNat size false with
      | (.ok b, s1) => next (s1.emit (.completion true b))
      | (.error _, s1) => next (s1.inboundFails.emit (.completion false []))
    | some c, some b => next (s.inboundWrite c va b)

/-- `PCIE_MSI` (R413). -/
def execPcieMsi (rid : BitVec 16) (value : BitVec 32) (s : State) : Host.Outcome State Fault Refusal :=
  next (if !s.pcieUp then s
    else if (s.ridContext rid).isNone then s.inboundFails.emit (.completion false [])
    else s.takeMsi value.toNat)

/-! ## Outbound accesses and link events (17 R412, R413) -/

/-- The outbound access of a core is answered. -/
def State.answerPcie (s : State) (c : CoreId) (ok : Bool) (data : List Byte) : State :=
  s.modCore c (fun k => match k.wait with
    | some (.pcie _ n) => { k with wait := some (.pcieDone ok (fitTo 0 n data)) }
    | _ => k)

/-- `PCIE_COMPLETION` (R412). -/
def execPcieCompletion (c : CoreId) (ok : Bool) (data : List Byte) (s : State) : Host.Outcome State Fault Refusal := next (s.answerPcie c ok data)

/-- `PCIE_COMPLETION_TIMEOUT` (R412). -/
def execPcieCompletionTimeout (c : CoreId) (s : State) : Host.Outcome State Fault Refusal :=
  next (if (s.core c).awaitsPcie then
    { s with host := { s.host with cplTo := satAdd s.host.cplTo 1 } }.answerPcie c false []
  else s)

/-- `PCIE_LINK_EVENT` (R413). -/
def execPcieLinkEvent (ev : PcieEvent) (s : State) : Host.Outcome State Fault Refusal :=
  let dead := !s.powered 2 || s.power.failStop.isSome || s.power.lost100
  let set (l : BitVec 4) (w : BitVec 5) (v : BitVec 3) : State := { s with host := { s.host with lstate := l, width := w, speed := v } }.hicSource 0xEB
  if dead then next s
  else match ev with
  | .training => next (set 1 0 0)
  | .up w v => next (set 2 w v)
  | .down => next s.pcieDown
  | .aer true => next (s.report (mkRec 0 0xB000 0x18 0 0 0))
  | .aer false => next (s.report (mkRec 0 0xB000 0x19 1 0 0))

end Sys2Proof.Machine
end

