-- ==== Sys2Proof/Machine/Registers.lean ====
section
/-! DEFINITION. The registers: what a read of each returns and clears, what a write of each does (00_scope R10; 01 R24). -/

namespace Sys2Proof.Machine

/-! ## Values -/

/-- The words of a machine-check record (18 R430). -/
def McRec.word (r : McRec) : Nat → Nat
  | 0 => r.seq.toNat + 2 ^ 16 * r.sev.toNat + 2 ^ 18 * r.scope.toNat + 2 ^ 20 * b2n r.esc + 2 ^ 21 * b2n r.ovf + 2 ^ 24 * r.die
      + 2 ^ 32 * r.unit.toNat + 2 ^ 48 * r.cls.toNat + 2 ^ 56 * r.detail.toNat
  | 1 => r.paddr
  | 2 => r.vaddr.toNat
  | 3 => (match r.ctx with
      | some c => c.toNat + 64
      | none => 0) + 2 ^ 8 * r.pl.toNat + 2 ^ 10 * b2n r.gm
  | 4 => r.stamp.toNat
  | 5 => r.count
  | _ => 0

/-- `DEVID` of a die (00_scope R6). -/
def devid (die : Nat) : Nat :=
  2 ^ 48 * 0x43C5 + 2 ^ 32 * 0x0940 + 2 ^ 24 * 0x41 + 2 ^ 20 * Config.stepMaj.toNat + 2 ^ 16 * Config.stepMin.toNat + 2 ^ 8 * 0x02
    + 2 ^ 4 * (if die = 0 then 0 else if die ≤ 4 then 1 else 2)

/-- `SHDSTATE` (02 R58). -/
def ShadowState.code : ShadowState → Nat
  | .empty => 0 | .loading => 1 | .validating => 2 | .valid => 3 | .invalid => 4 | .armed => 5 | .resetPending => 6 | .retired => 7

/-- `SISTAT` (02 R58). -/
def State.sistat (s : State) : Nat :=
  let i := s.image
  i.shd.code + 2 ^ 4 * b2n i.hold + 2 ^ 5 * b2n i.flipAbort + 2 ^ 6 * b2n i.noActive + 2 ^ 7 * b2n i.loadPath + 2 ^ 8 * i.rejCode.toNat
    + 2 ^ 16 * i.rejType.toNat + 2 ^ 24 * i.rejOffset.toNat

/-- `TSTAT` of the Tether block (15 R383). -/
def State.tstat (s : State) : Nat :=
  let t := s.tether
  s.tetherRole + 2 ^ 2 * b2n (bit (s.secNat 4 0 4) 22) + 2 ^ 3 * b2n t.stopSeen + 2 ^ 4 * (s.slowFactor % 16) + 2 ^ 8 * t.stopOrigin.toNat
    + 2 ^ 28 * t.stopCause.toNat + 2 ^ 36 * t.tcrcErr.toNat

/-- `SNAPSTAT.PHASE` (16 R407). -/
def SnapPhase.code : SnapPhase → Nat
  | .off => 0 | .run => 1 | .clean => 2 | .hold => 3 | .copy => 4 | .commitWait => 5 | .stopped => 6 | .rolled => 7

/-- `SNAPSTAT` (16 R407). -/
def State.snapstat (s : State) : Nat :=
  let x := s.snap
  (if x.arriving then SnapPhase.clean else x.phase).code + 2 ^ 3 * b2n x.paired + 2 ^ 4 * b2n x.draining + 2 ^ 5 * b2n x.overrun
    + 2 ^ 6 * b2n x.restoreErr + 2 ^ 7 * b2n x.poisoned
    + 2 ^ 8 * x.pairFail.toNat + 2 ^ 32 * x.epoch.toNat

/-- `SNAPCOMMIT` (16 R407). -/
def State.snapcommit (s : State) : Nat := s.snap.committed.toNat + 2 ^ 32 * s.snap.drained.toNat

/-- `QSTAT.STATE`: the condition of highest precedence (03 R87). Whether a drain is full while results are on their way is a free value
(log entry 4). While a LOADB, TILECLR or DRAIN alone is in flight, of which the table names no state, it reads RUN (DESIGN CHOICE, log
entry 65). -/
def State.partState (s : State) (p : PartId) : Nat :=
  let q := s.quad p
  if s.frozen || s.power.failStop.isSome then 5
  else if q.fault then 4
  else if (s.cdPwr p.cd).target.isSome then 6
  else
  let flying := q.queue.filter (fun c => decide (c.phase = .started) || decide (c.phase = .issued))
  if flying.any (fun c => isVec c.words) && Config.drainFull s.fresh (quadKey p) then 3
  else if q.dryNow then 2
  else if !flying.isEmpty then 1
  else if q.bound then 0
  else 7

/-- `QSTAT` (03 R100). -/
def State.qstat (s : State) (p : PartId) : Nat :=
  let l := s.lead p
  let q := s.quad l
  s.partState l + 2 ^ 4 * q.pmask.toNat + 2 ^ 8 * q.ctx.toNat + 2 ^ 16 * b2n q.bact.full + 2 ^ 17 * b2n q.bshd.full + 2 ^ 24 * q.cause.toNat

/-- `TSTAT` of a tile (05 R149). -/
def State.tilestat (s : State) (t : TileId) : Nat :=
  let x := s.tile t
  let q := s.quad (s.lead { cd := t.cd, cl := t.cl, arr := Fin.ofNat 4 (t.t.val / 4), q := Fin.ofNat 4 t.t.val })
  let pend := s.tilePend t.cd t.cl t.t.val
  x.fmt.toNat + 2 ^ 8 * b2n x.sat + 2 ^ 9 * b2n x.nv + 2 ^ 10 * b2n x.of + 2 ^ 11 * b2n x.poison + 2 ^ 12 * b2n (decide (pend ≠ 0))
    + 2 ^ 16 * (if q.bound then q.pmask.toNat else 0) + 2 ^ 24 * q.ctx.toNat + 2 ^ 32 * (pend % 64)

/-- `SEQSTAT` (17 R411). HALTED reads only once the store buffer is empty. -/
def Core.seqstat (k : Core) : Nat :=
  match k.st with
  | .reset => 0
  | .run => if k.wait = some .interrupt then 2 else 1
  | .halted => if k.sbuf = [] then 3 else 1
  | .dfault => 4

/-- A completion ring's registers (05 R133, 11 R279). -/
def RingState.baseWord (r : RingState) : Nat := b2n r.enable + 2 * b2n r.seqIrq + 4 * b2n r.hostIrq + 2 ^ 12 * r.base.toNat
def RingState.idxWord (r : RingState) : Nat := r.next.toNat + 2 ^ 8 * b2n r.phase

/-- `CDPWR` (18 R425). -/
def CdPwr.word (x : CdPwr) : Nat :=
  x.pstate.toNat + 2 ^ 2 * x.preq.toNat + 2 ^ 4 * x.tlim.toNat + 2 ^ 6 * b2n x.plim + 2 ^ 7 * b2n x.idle + 2 ^ 8 * x.jtemp.toNat
    + 2 ^ 16 * x.jmax.toNat + 2 ^ 24 * x.stepCnt.toNat

/-- `MODPWR` (18 R426). -/
def Power.word (p : Power) : Nat := p.vin.toNat + 2 ^ 16 * p.pin.toNat + 2 ^ 32 * b2n p.pfw + 2 ^ 33 * b2n p.pfwSeen + 2 ^ 48 * p.pfwCnt.toNat

/-- `MVSTAT` by word (12 R295). -/
def Mover.stat (x : Mover) : Nat → Nat
  | 0 => (match x.st with
      | .idle => 0
      | .run => 1
      | .wait => 2
      | .halted => 3) + 2 ^ 3 * b2n x.dir + 2 ^ 4 * b2n x.pav + 2 ^ 8 * x.cause.toNat + 2 ^ 16 * x.idx.toNat + 2 ^ 32 * x.done.toNat
  | 1 => x.fva.toNat
  | _ => x.fpa.toNat

/-- `ESTAT` (11 R279). -/
def Engine.stat (x : Engine) : Nat :=
  (match x.st with
    | .idle => 0
    | .run => 1
    | .wait => 2
    | .fault => 3) + 2 ^ 2 * x.ctx.toNat + 2 ^ 8 * x.cause.toNat + 2 ^ 16 * x.seq.toNat

/-- `THERM` (14 R356). -/
def StackState.therm (x : StackState) : Nat :=
  x.temp.toNat + 2 ^ 8 * x.tmax.toNat + 2 ^ 16 * x.level.toNat + 2 ^ 18 * b2n x.sensFail + 2 ^ 32 * x.thrCnt.toNat

/-- `REMAPSTAT` (14 R347). -/
def StackState.remapstat (x : StackState) : Nat :=
  x.cam.length % 2 ^ 16 + 2 ^ 16 * (x.badSpares.length % 2 ^ 16) + 2 ^ 32 * (x.exhausted.length % 2 ^ 12) + 2 ^ 48 * x.newRemap.toNat

/-- `FPSTAT` and `FPDROP` (15 R362). -/
def Port.stat (x : Port) : Nat :=
  (match x.st with
    | .off => 0
    | .training => 1
    | .up => 2
    | .down => 3
    | .loopback => 4) + 2 ^ 8 * x.peerSeen.toNat + 2 ^ 28 * x.peerPSeen.toNat + 2 ^ 32 * x.replays.toNat + 2 ^ 48 * x.fecCorr.toNat
def Port.drops (x : Port) : Nat := x.noRoute.toNat + 2 ^ 16 * x.hopLimit.toNat + 2 ^ 32 * x.noMatch.toNat

/-- `MCSTAT` (18 R433). -/
def McQueue.stat (q : McQueue) : Nat :=
  (q.slots.map (fun x => 2 ^ x.1)).foldl (· + ·) 0 % 2 ^ 16 + 2 ^ 16 * b2n q.overflow + 2 ^ 32 * q.lost.toNat + 2 ^ 48 * q.lastSeq.toNat

/-- The registers of an ETU (12 R300 to R305). -/
def Etu.fbctl (e : Etu) : Nat := b2n e.fbEnable + 2 * b2n e.fbHostIrq + 2 ^ 8 * e.fbThresh.toNat
def Etu.fbstat (e : Etu) : Nat :=
  b2n e.outstanding.isSome + 2 * b2n (e.outstanding.isSome && !e.collBuf) + 2 ^ 2 * (e.collecting.length % 2 ^ 9) + 2 ^ 16 * e.outSeq.toNat
    + 2 ^ 32 * e.late.toNat + 2 ^ 48 * e.fullWait.toNat
def Etu.wdstat (e : Etu) : Nat :=
  b2n e.wdBusy + 2 * b2n e.wdDone + 4 * b2n e.wdTimeout + 8 * b2n e.wdIgnored + 2 ^ 16 * (min e.wdAwaited.length 255)

/-- The stack or channel of a sensor index of a memory block. -/
def sensorOf (b : MemBlockId) (i : Nat) : Nat :=
  match b with
  | .mb d => 4 * d.val + i
  | .hd => 16 + i

/-- Whether a quadrant leads its partition. -/
def State.leads (s : State) (p : PartId) : Bool := decide (s.lead p = p)

/-- A port as a read of `FPSTAT` finds it: the codewords that its FEC has corrected are no event of the model, so `FECCORR` has
advanced by an amount it leaves free (15 R362; log entry 4). -/
def State.corrected (s : State) (p : Fin 12) : Port := { s.port p with fecCorr := satAdd (s.port p).fecCorr (Config.elapsed s.fresh) }

/-- `DRYCNT` and `DRNCNT` as a read of `QFRZ` finds them: while the partition is frozen dry, `DRYCNT` has advanced by an amount the
model leaves free (03 R102; log entry 4). -/
def State.frozenCycles (s : State) (p : PartId) : BitVec 32 × BitVec 32 :=
  let q := (s.sampleDry (s.lead p)).quad (s.lead p)
  (q.dryCnt, q.drnCnt)

/-- The value that a read of a register returns. -/
def State.regValue (s : State) : Reg → Nat
  | .devid die => devid die
  | .mcstat die => (s.mcq die).stat
  | .mcrec die i w => match (s.mcq die).slots.find? (fun x => decide (x.1 = i)) with
    | some x => x.2.word w
    | none => 0
  | .modpwr => s.power.word
  | .cdpwr d => (s.cdPwr d).word
  | .sistat => s.sistat
  | .siactgen => slotGen s.image.active
  | .sishdgen => slotGen s.image.shadow
  | .tctl => 2 ^ 8 * s.tether.subject.toNat + 2 ^ 28 * b2n s.tether.nqIrq
  | .tstat => s.tstat
  | .tbarstat => (s.tether.bars.map (fun b => 2 ^ b.slot)).foldl (· + ·) 0 % 2 ^ 16 + 2 ^ 16 * b2n s.tether.barErr
  | .tred => s.tether.tred.toNat
  | .tnotq => s.popNotice.1.toNat
  | .tredres i => (mget 0 s.tether.redRes i).toNat
  | .tndeliv d => (mget 0 s.tether.deliv d).toNat
  | .tpstat p =>
    let x := s.tport p
    s.tdir p.val + 2 ^ 2 * b2n x.lock + 2 ^ 3 * b2n x.lost + 2 ^ 4 * x.peerSeen.toNat + 2 ^ 24 * x.crcErr.toNat
  | .snapstat => s.snapstat
  | .snapcommit => s.snapcommit
  | .snapprog => s.snap.copied.toNat + 2 ^ 24 * s.snap.streamed.toNat
  | .cbwstat => s.snap.stalls.toNat + 2 ^ 32 * s.snap.stallUs.toNat
  | .rollepoch => s.snap.rollEpoch.toNat
  | .takeover => s.snap.assumedId.toNat + 2 ^ 20 * b2n s.snap.takeover
  | .xferctl => s.snap.xferDest.toNat + 2 ^ 32 * s.snap.xferEpoch.toNat
  | .snapward => s.snap.rcvd.toNat
  | .rovl i =>
    let r := mget Rovl.reset s.snap.rovl i
    r.dest.toNat + 2 ^ 20 * r.plen.toNat + 2 ^ 25 * b2n r.valid + 2 ^ 32 * r.ports.toNat
  | .hirte n => (mget Hirte.reset s.host.hirte n).word
  | .pciestat => s.host.lstate.toNat + 2 ^ 4 * s.host.width.toNat + 2 ^ 9 * s.host.speed.toNat + 2 ^ 16 * s.host.inFault.toNat + 2 ^ 32 * s.host.cplTo.toNat
  | .ridctx i =>
    let r := mget RidCtx.reset s.host.rid i
    r.rid.toNat + 2 ^ 16 * r.mask.toNat + 2 ^ 32 * r.ctx.toNat + 2 ^ 38 * b2n r.en
  | .segbase e i => (mget Segment.reset (s.etu e).segs i).base.toNat
  | .seglimit e i => (mget Segment.reset (s.etu e).segs i).limit.toNat
  | .segperm e i =>
    let g := mget Segment.reset (s.etu e).segs i
    b2n g.r + 2 * b2n g.w + 4 * b2n g.x
  | .ctxtable e c =>
    let t := mget CtxTable.reset (s.etu e).ctxs c
    t.segCount.toNat + 2 ^ 12 * t.base.toNat
  | .etuctl e => b2n (s.etu e).pfDis + 2 * b2n (s.etu e).mergeDis
  | .etustat e => b2n (s.etu e).maint + 2 ^ 16 * (s.etu e).walks.toNat
  | .fbbase e => 2 ^ 16 * (s.etu e).fbBase.toNat
  | .fbctl e => (s.etu e).fbctl
  | .fbstat e => (s.etu e).fbstat
  | .wdbase e => (s.etu e).wdBase.toNat
  | .wdlimit e => (s.etu e).wdLimit.toNat
  | .wdstat e => (s.etu e).wdstat
  | .mvring m => (s.mover m).size.toNat + 2 ^ 6 * (s.mover m).base.toNat
  | .mvstat m i => (s.mover m).stat i
  | .sealstat b =>
    let k := s.block b
    k.retryOk.toNat + 2 ^ 16 * k.poisNew.toNat + 2 ^ 24 * (k.poisonUsed % 2 ^ 13) + 2 ^ 48 * k.eccCe.toNat
  | .seallast b => (s.block b).lastTile.toNat + 2 ^ 32 * (s.block b).lastSrc.toNat
  | .remapctl b => match b with
    | .mb _ => (s.block b).remapThresh.toNat + 2 ^ 4 * b2n (s.block b).autoDis
    | .hd => 0
  | .retq b => (s.popRetq b).1.toNat
  | .sestart b => (s.block b).seStart.toNat
  | .secount b => (s.block b).seCount.toNat
  | .sebuf b => (s.block b).seBuf.toNat
  | .sestat b =>
    let k := s.block b
    b2n k.seBusy + 2 ^ 8 * k.seResult.toNat + 2 ^ 16 * k.seDone.toNat + 2 ^ 48 * k.seMismatch.toNat
  | .remapstat b i => match b with
    | .mb _ => (s.stack (sensorOf b i)).remapstat
    | .hd => 0
  | .remaplast b i => match b with
    | .mb _ => (s.stack (sensorOf b i)).lastRow.toNat
    | .hd => 0
  | .therm b i => (s.stack (sensorOf b i)).therm
  | .srseed d c => (s.seed d (BitVec.ofNat 6 c)).toNat
  | .arrcfg d cl a =>
    let x := s.array d cl a
    x.layout.toNat + 2 ^ 4 * b2n x.avail + 2 ^ 5 * b2n x.mapBad + 2 ^ 6 * x.repCount.toNat
  | .arrrep d cl a => (s.array d cl a).rep.toNat
  | .qstat p => s.qstat p
  | .qfrz p => (s.frozenCycles p).1.toNat + 2 ^ 32 * (s.frozenCycles p).2.toNat
  | .qfree p =>
    let q := s.quad p
    (if s.leads p && q.bound then 16 - (q.queue.filter (fun c => decide (c.phase = .waiting))).length else 0) + 2 ^ 8 * min 4 q.fetching.length
  | .qseq p => (s.quad (s.lead p)).accSeq.toNat + 2 ^ 16 * (s.quad (s.lead p)).retSeq.toNat
  | .qrej p =>
    let q := s.quad p
    q.rejCode.toNat + 2 ^ 8 * q.rejOp.toNat + 2 ^ 16 * q.rejTag.toNat + 2 ^ 32 * q.rejCount.toNat
  | .qcplbase p => if s.leads p then (s.quad p).ring.baseWord else 0
  | .qcplidx p => if s.leads p then (s.quad p).ring.idxWord else 0
  | .tilestat t => s.tilestat t
  | .seqstat d cl => (s.core (.sycen d cl)).seqstat
  | .seqpc d cl => if (s.core (.sycen d cl)).st = .reset then (s.entryVa (clusterKey d cl)).toNat else (s.core (.sycen d cl)).pc.toNat
  | .efree e => (32 - ((s.engine e).queue.filter (fun c => decide (c.phase = .waiting))).length) + 2 ^ 8 * min 4 (s.engine e).fetching.length
  | .estat e => (s.engine e).stat
  | .erej e =>
    let x := s.engine e
    x.rejCode.toNat + 2 ^ 8 * x.rejOp.toNat + 2 ^ 16 * x.rejTag.toNat + 2 ^ 32 * x.rejCount.toNat
  | .ecplbase e c => (s.engRing e (BitVec.ofNat 6 c)).baseWord
  | .ecplidx e c => (s.engRing e (BitVec.ofNat 6 c)).idxWord
  | .comstat d =>
    let x := mget ComStat.reset s.comstat d.val
    x.ceCnt.toNat + 2 ^ 16 * x.ueCnt.toNat + 2 ^ 24 * b2n x.ueInTs + 2 ^ 25 * x.ueCluster.toNat + 2 ^ 32 * x.ueOffset.toNat
  | .fpstat p => (s.corrected p).stat
  | .fpdrop p => (s.port p).drops
  | .mcack _ => 0
  | .sictl => 0
  | .tbar => 0
  | .tredctl => 0
  | .snapctl => 0
  | .hipi => 0
  | .fbdone _ => 0
  | .withdraw _ => 0
  | .mvctl _ => 0
  | .secmd _ => 0
  | .qctl _ => 0
  | .qpost _ => 0
  | .tilectl _ => 0
  | .seqdb _ _ => 0
  | .seqrun _ _ => 0
  | .epost _ => 0
  | .ectl _ => 0
  | .epostx _ _ => 0

/-! ## What a read clears -/

/-- The bits of a field at `lo` that a read leaves: `m` has 0 in every bit that was read. -/
def keep {n : Nat} (m lo : Nat) (x : BitVec n) : BitVec n := x &&& BitVec.ofNat n (m / 2 ^ lo)

/-- The RC fields of a register lose the bits that were read (00_scope R10, 01 R24). A queue is popped by a read of its low
half (log entry 49). -/
def State.readClear (s : State) (m : Nat) : Reg → State
  | .mcstat die => s.setMcq die { s.mcq die with lost := keep m 32 (s.mcq die).lost }
  | .modpwr => { s with power := { s.power with pfwCnt := keep m 48 s.power.pfwCnt } }
  | .cdpwr d => s.setCdPwr d { s.cdPwr d with jmax := keep m 16 (s.cdPwr d).jmax, stepCnt := keep m 24 (s.cdPwr d).stepCnt }
  | .tstat => { s with tether := { s.tether with tcrcErr := keep m 36 s.tether.tcrcErr } }
  | .tnotq => if bit m 0 then s else s.popNotice.2
  | .tpstat p => s.setTport p { s.tport p with crcErr := keep m 24 (s.tport p).crcErr }
  | .cbwstat => s.modSnap (fun x => { x with stalls := keep m 0 x.stalls, stallUs := keep m 32 x.stallUs })
  | .pciestat => { s with host := { s.host with inFault := keep m 16 s.host.inFault, cplTo := keep m 32 s.host.cplTo } }
  | .etustat e => s.setEtu e { s.etu e with walks := keep m 16 (s.etu e).walks }
  | .fbstat e => s.setEtu e { s.etu e with late := keep m 32 (s.etu e).late, fullWait := keep m 48 (s.etu e).fullWait }
  | .sealstat b =>
    let k := s.block b
    s.setBlock b { k with retryOk := keep m 0 k.retryOk, poisNew := keep m 16 k.poisNew, eccCe := keep m 48 k.eccCe }
  | .retq b => if bit m 0 then s else (s.popRetq b).2
  | .remapstat b i => match b with
    | .mb _ => s.setStack (sensorOf b i) { s.stack (sensorOf b i) with newRemap := keep m 48 (s.stack (sensorOf b i)).newRemap }
    | .hd => s
  | .therm b i =>
    let x := s.stack (sensorOf b i)
    s.setStack (sensorOf b i) { x with tmax := keep m 8 x.tmax, thrCnt := keep m 32 x.thrCnt }
  | .qfrz p =>
    (s.setQuad (s.lead p) { s.quad (s.lead p) with dryCnt := keep m 0 (s.frozenCycles p).1, drnCnt := keep m 32 (s.frozenCycles p).2 }).bump.bump
  | .qrej p => s.setQuad p { s.quad p with rejCount := keep m 32 (s.quad p).rejCount }
  | .erej e => s.setEngine e { s.engine e with rejCount := keep m 32 (s.engine e).rejCount }
  | .comstat d =>
    let x := mget ComStat.reset s.comstat d.val
    { s with comstat := mset ComStat.reset s.comstat d.val { x with ceCnt := keep m 0 x.ceCnt, ueCnt := keep m 16 x.ueCnt } }
  | .fpstat p => (s.setPort p { s.port p with replays := keep m 32 (s.port p).replays, fecCorr := keep m 48 (s.corrected p).fecCorr }).bump
  | .fpdrop p =>
    let x := s.port p
    s.setPort p { x with noRoute := keep m 0 x.noRoute, hopLimit := keep m 16 x.hopLimit, noMatch := keep m 32 x.noMatch }
  | _ => s

/-! ## Writes -/

/-- The one action bit that a write of an action register sets, of `n` (02 R59, 12 R296, 16 R407, 17 R411). -/
def oneAction (n : Nat) (v : Word) : Option Nat :=
  match (countFrom 0 n).filter (fun i => v.getLsbD i) with
  | [i] => some i
  | _ => none

/-- A write of `SICTL` (02 R58, R59). -/
def State.writeSictl (s : State) (v : Word) : State :=
  match oneAction 4 v with
  | some 0 => { s with image := s.image.validate }
  | some 1 => { s with image := s.image.arm }
  | some 2 => { s with image := s.image.disarm }
  | some 3 => { s with image := s.image.clear }
  | _ => s

/-- A write of `SNAPCTL` (16 R407). -/
def State.writeSnapctl (s : State) (v : Word) : State :=
  match oneAction 5 v with
  | some 0 => s.arriveCut
  | some 1 => s.rollBack
  | some 2 => s.askDrain
  | some 3 => s.resumeRun
  | some 4 => s.sendWard
  | _ => s

/-- A write of `SEQRUN` (17 R411). -/
def State.writeSeqrun (s : State) (d : Fin 4) (cl : Fin 24) (v : Word) : State :=
  match oneAction 3 v with
  | some 0 => s.releaseCore d cl
  | some 1 => s.requestHalt d cl
  | some 2 => s.resetSequencer d cl
  | _ => s

/-- A write of `MVCTL` (12 R296). -/
def State.writeMvctl (s : State) (m : MoverId) (v : Word) : State :=
  match oneAction 4 v with
  | some 0 => s.kickMover m
  | some 1 => s.resumeMover m
  | some 2 => s.abortMover m
  | some 3 => s.resetMover m
  | _ => s

/-- A write of `SECMD`: an operation that the table does not name is a field error (14 R342). -/
def State.writeSecmd (s : State) (b : MemBlockId) (v : Word) : State :=
  match (v.extractLsb' 0 8).toNat with
  | 1 => s.readSeal b v
  | 2 => s.sealVerify b v
  | 3 => s.listPoison b v
  | 4 => s.reseal b v
  | 5 => s.startMove b v
  | _ => if (s.block b).seBusy then s else s.seRefuse b v 1

/-- A write of `TCTL` of the Tether block: the fields, then the actions (15 R383). -/
def State.writeTctl (s : State) (v : Word) : State :=
  let s1 := { s with tether := { s.tether with subject := v.extractLsb' 8 20, nqIrq := v.getLsbD 28 } }
  let s2 := if v.getLsbD 0 then s1.injectStop 6 else s1
  if v.getLsbD 1 then s2.raiseFault 5 s2.tether.subject else s2

/-- A write of `FBBASE`: ignored while any record exists, and for a block that is not memory (12 R303). -/
def State.writeFbbase (s : State) (e : EtuId) (v : Word) : State :=
  let x := s.etu e
  let b := bits v.toNat 16 36
  if x.collecting ≠ [] ∨ x.outstanding.isSome ∨ !s.netRange (b * 65536) 65536 then s else s.setEtu e { x with fbBase := BitVec.ofNat 36 b }

/-- A write of `FBCTL`: ignored whole for a threshold outside 1 to 256; a batch that has reached the new threshold is delivered
(12 R303). -/
def State.writeFbctl (s : State) (e : EtuId) (v : Word) : State :=
  let n := bits v.toNat 8 9
  if n = 0 ∨ 256 < n then s
  else (s.setEtu e { s.etu e with fbEnable := v.getLsbD 0, fbHostIrq := v.getLsbD 1, fbThresh := BitVec.ofNat 9 n }).deliverIfDue e

/-- A write of a segment register: in maintenance mode alone (12 R297). -/
def State.writeSeg (s : State) (e : EtuId) (i : Nat) (f : Segment → Segment) : State :=
  let x := s.etu e
  if x.maint then s.setEtu e { x with segs := mmod Segment.reset x.segs i f } else s

/-- Whether a writer may post to a partition: a sequencer cannot to any other cluster (05 R127; log entry 65). -/
def postsFrom (who : Option CoreId) (p : PartId) : Bool :=
  match who with
  | some (.sycen d cl) => decide (d = p.cd ∧ cl = p.cl)
  | _ => true

/-- A write of a register. `mask` has the written bits, `v` the value with the other bits of its RW fields as they are, so
that a write of one half leaves the other (01 R24); `raw` has 0 there, for W1C fields and actions. An action is triggered
where the low half, which holds every field of the registers with actions, is written. `who` is the core that writes. -/
def State.writeReg (s : State) (who : Option CoreId) (mask v raw : Word) (r : Reg) : State :=
  let acts := mask.getLsbD 0
  let whole := acts && mask.getLsbD 32
  match r with
  | .mcstat die => s.setMcq die { s.mcq die with overflow := (s.mcq die).overflow && !raw.getLsbD 16 }
  | .mcack die => if acts then s.mcAck die raw else s
  | .modpwr => { s with power := { s.power with pfwSeen := s.power.pfwSeen && !raw.getLsbD 33 } }
  | .cdpwr d => s.requestState d (v.extractLsb' 2 2)
  | .sistat => { s with image := { s.image with flipAbort := s.image.flipAbort && !raw.getLsbD 5 } }
  | .sictl => if acts then s.writeSictl raw else s
  | .tctl => if acts then s.writeTctl raw else s
  | .tbar => if acts then (s.arriveBarrier 8 (raw.setWidth 16)).takeHeldArrivals else s
  | .tbarstat => { s with tether := { s.tether with barErr := s.tether.barErr && !raw.getLsbD 16 } }
  | .tred => { s with tether := { s.tether with tred := v } }
  | .tredctl => if acts then s.contribute 8 (raw.extractLsb' 0 2).toNat (raw.extractLsb' 2 3) (raw.extractLsb' 5 11) s.tether.tred else s
  | .tndeliv d => { s with tether := { s.tether with deliv := mset 0 s.tether.deliv d (v.setWidth 24) } }
  | .tpstat p => s.setTport p { s.tport p with lost := (s.tport p).lost && !raw.getLsbD 3 }
  | .snapctl => if acts then s.writeSnapctl raw else s
  | .snapstat => s.modSnap (fun x => { x with overrun := x.overrun && !raw.getLsbD 5, restoreErr := x.restoreErr && !raw.getLsbD 6 })
  | .rollepoch => s.modSnap (fun x => { x with rollEpoch := v.setWidth 32 })
  | .takeover => s.writeTakeover v
  | .xferctl => s.modSnap (fun x => { x with xferDest := v.setWidth 20, xferEpoch := v.extractLsb' 32 32 })
  | .rovl i => s.modSnap (fun x => { x with
      rovl := mset Rovl.reset x.rovl i { dest := v.setWidth 20, plen := v.extractLsb' 20 5, valid := v.getLsbD 25, ports := v.extractLsb' 32 12 } })
  | .hirte n => if acts then s.writeHirte n v else s
  | .hipi => if acts then s.writeHipi raw else s
  | .ridctx i => { s with host := { s.host with
      rid := mset RidCtx.reset s.host.rid i { rid := v.setWidth 16, mask := v.extractLsb' 16 16, ctx := v.extractLsb' 32 6, en := v.getLsbD 38 } } }
  | .segbase e i => s.writeSeg e i (fun g => { g with base := v })
  | .seglimit e i => s.writeSeg e i (fun g => { g with limit := v })
  | .segperm e i => s.writeSeg e i (fun g => { g with r := v.getLsbD 0, w := v.getLsbD 1, x := v.getLsbD 2 })
  | .ctxtable e c =>
    let x := s.etu e
    if x.maint then s.setEtu e { x with ctxs := mset CtxTable.reset x.ctxs c { segCount := v.setWidth 4, base := v.extractLsb' 12 40 } } else s
  | .etuctl e => s.setEtu e { s.etu e with pfDis := v.getLsbD 0, mergeDis := v.getLsbD 1 }
  | .fbbase e => s.writeFbbase e v
  | .fbctl e => s.writeFbctl e v
  | .fbdone e => if acts then s.fbdone e raw else s
  | .wdbase e => s.setEtu e { s.etu e with wdBase := v }
  | .wdlimit e => s.setEtu e { s.etu e with wdLimit := v }
  | .withdraw e => if acts then s.withdraw e raw else s
  | .wdstat e =>
    let x := s.etu e
    s.setEtu e { x with
      wdDone := x.wdDone && !raw.getLsbD 1, wdTimeout := x.wdTimeout && !raw.getLsbD 2, wdIgnored := x.wdIgnored && !raw.getLsbD 3 }
  | .mvring m =>
    let x := s.mover m
    if x.st = .idle then s.setMover m { x with size := v.setWidth 4, base := v.extractLsb' 6 58 } else s
  | .mvctl m => if acts then s.writeMvctl m raw else s
  | .remapctl b => match b with
    | .mb _ =>
      let n : BitVec 4 := v.setWidth 4
      s.setBlock b { s.block b with remapThresh := if n = 0 then (s.block b).remapThresh else n, autoDis := v.getLsbD 4 }
    | .hd => s
  | .secmd b => if acts then s.writeSecmd b raw else s
  | .sestart b => s.setBlock b { s.block b with seStart := v &&& 0xFFFFFFFF }
  | .secount b => s.setBlock b { s.block b with seCount := v &&& 0x1FFFF }
  | .sebuf b => s.setBlock b { s.block b with seBuf := v &&& 0xFFFFFFFFFFFFF }
  | .srseed d c => { s with srseed := mset 0 s.srseed (d.val * 64 + (BitVec.ofNat 6 c).toNat) v }
  | .qctl p => if acts && raw.getLsbD 0 then s.recoverPart p else s
  | .qpost p => if whole && postsFrom who p then s.qpost p raw else s
  | .qcplbase p => s.setRing p v
  | .tilectl t => if acts && raw.getLsbD 0 then s.clrTile t else s
  | .seqdb d cl => if acts && raw.getLsbD 0 then s.ringDoorbell d cl else s
  | .seqrun d cl => if acts then s.writeSeqrun d cl raw else s
  | .epost e =>
    if !whole then s
    else match who with
    | some (.sycen d cl) => s.epostFrom e d cl raw
    | _ => s.epostIgnored e
  | .ectl e => if acts && raw.getLsbD 0 then s.recoverEngine e else s
  | .epostx e c =>
    if !whole then s
    else match who with
    | some (.sycen _ _) => s.epostIgnored e
    | _ => s.epostx e (BitVec.ofNat 6 c) raw
  | .ecplbase e c => s.setEngBase e (BitVec.ofNat 6 c) v
  | .mcrec _ _ _ => s
  | .devid _ => s
  | .siactgen => s
  | .sishdgen => s
  | .tstat => s
  | .tnotq => s
  | .tredres _ => s
  | .snapcommit => s
  | .snapprog => s
  | .cbwstat => s
  | .snapward => s
  | .pciestat => s
  | .etustat _ => s
  | .fbstat _ => s
  | .mvstat _ _ => s
  | .sealstat _ => s
  | .seallast _ => s
  | .retq _ => s
  | .sestat _ => s
  | .remapstat _ _ => s
  | .remaplast _ _ => s
  | .therm _ _ => s
  | .arrcfg _ _ _ => s
  | .arrrep _ _ _ => s
  | .qstat _ => s
  | .qfrz _ => s
  | .qfree _ => s
  | .qseq _ => s
  | .qrej _ => s
  | .qcplidx _ => s
  | .tilestat _ => s
  | .seqstat _ _ => s
  | .seqpc _ _ => s
  | .efree _ => s
  | .estat _ => s
  | .erej _ => s
  | .ecplidx _ _ => s
  | .comstat _ => s
  | .fpstat _ => s
  | .fpdrop _ => s

/-! ## Accesses -/

/-- Read 4 or 8 bytes of a register window: the bytes, and the state after the fields that the read clears. The load window
reads as 0 (02 R59). -/
def State.regRead (s : State) (a size : Nat) : List Byte × State :=
  match s.regOf a with
  | none => (List.replicate size 0, s)
  | some r =>
    let v := s.regValue r
    let lo := decide (a % 8 = 0)
    let m := (if lo then 0 else 2 ^ 32 - 1) + (if size = 8 ∨ !lo then 0 else 2 ^ 64 - 2 ^ 32)
    (leBytes size (v / 2 ^ (8 * (a % 8))), s.readClear m r)

/-- Write 4 or 8 bytes of a register window. -/
def State.regWrite (s : State) (who : Option CoreId) (a : Nat) (data : List Byte) : State :=
  let o := a % 0x100000000
  match s.regOf a with
  | none => if decide (s.kindAt a = .hdReg) && loadWindowAt o then s.loadWindow (o - 0x400000) data else s
  | some r =>
    let sh := 8 * (a % 8)
    let mask := BitVec.ofNat 64 ((2 ^ (8 * data.length) - 1) * 2 ^ sh)
    let raw := BitVec.ofNat 64 (leNat data * 2 ^ sh)
    s.writeReg who mask ((BitVec.ofNat 64 (s.regValue r) &&& ~~~mask) ||| raw) raw r

/-- The power domains that a window needs: HD the host uncore, CD and MB their compute group (18 R422). -/
def State.windowUp (s : State) (a : Nat) : Bool :=
  match s.kindAt a with
  | .hdReg => s.powered 2
  | .cdReg d => s.cdUp d
  | .mbReg d => s.cdUp d
  | _ => false

/-- An access that reaches a register (01 R23, R24). -/
def State.regOk (s : State) (a size : Nat) : Bool := s.windowUp a && s.busOk a size

/-- `REGISTER_WRITE` (00_scope R10): by an agent of HD. -/
def execRegisterWrite (addr : BitVec 52) (data : List Byte) (s : State) : Host.Outcome State Fault Refusal :=
  next (if s.regOk addr.toNat data.length then s.regWrite none addr.toNat data else s)

/-- `REGISTER_READ_CLEAR` (00_scope R10). -/
def execRegisterReadClear (addr : BitVec 52) (size : Nat) (s : State) : Host.Outcome State Fault Refusal :=
  if s.regOk addr.toNat size then
    let (b, s1) := s.regRead addr.toNat size
    next { s1 with busOut := b }
  else next s

end Sys2Proof.Machine
end

