-- ==== Sys2Proof/Machine/MemAccess.lean ====
section
/-! DEFINITION. Scalar loads and stores, the atomic primitives, the store buffer, the L1 D fill, and the branches, calls
and loops (06 R166 to R178, 08, 09 R240, R241). -/

namespace Sys2Proof.Machine

/-! ## Accesses of the pipeline -/

/-- An offset of the configuration space of the root port itself: bus 0, device 0 (17 R412). -/
def rootOffset (a : Nat) : Option Nat := if a - 0xF3000000000 < 0x1000 then some (a - 0xF3000000000) else none

/-- A byte of the root port's configuration space. -/
def State.rootByte (s : State) (off : Nat) : Byte := (mget none s.host.rootCfg off).getD (Config.rootCfg off)

/-- A write into the root port's configuration space: what a byte keeps of it is the PCI Express specification's (log entry 37). -/
def State.rootWrite (s : State) (off : Nat) (data : List Byte) : State :=
  (data.zip (countFrom off data.length)).foldl (fun (s : State) x =>
    { s with host := { s.host with rootCfg := mset none s.host.rootCfg x.2 (some (Config.rootCfgWrite x.2 (s.rootByte x.2) x.1)) } }) s

/-- Whether a device store waits in a store buffer. -/
def State.deviceStoreWaits (s : State) (k : Core) : Bool := k.sbuf.any (fun e => e.pieces.any (fun x => (s.kindAt x.1).device))

/-- A load from device memory: after the device stores ahead of it; registers answer at once, PCIe by a completion
(06 R173, 08 R217, 17 R412). -/
def State.deviceLoad (s : State) (c : CoreId) (k : Core) (a n : Nat) (va : Word) : Loaded :=
  match (s.core c).wait with
  | some (.pcieDone true data) => .ok s (fitTo 0 n data)
  | some (.pcieDone false _) => .stop (.trap s 0x0D 0 (some { va := va, write := false, fetch := false }))
  | _ =>
    if s.deviceStoreWaits k then .stop (.waits s .device)
    else match s.kindAt a with
    | .pcieMem => .stop (.waits (s.emit (.pcie (a - 0xE0000000000) n none)) (.pcie a n))
    | .ecam => match rootOffset a with
      | some off => .ok s ((countFrom off n).map s.rootByte)
      | none => .stop (.waits (s.emit (.pcie a n none)) (.pcie a n))
    | _ => let (data, s1) := s.regRead a n
           .ok s1 data

/-- Read located pieces once nothing of the store buffer is in the way: the L1 D must hold the lines (08 R206), and
poisoned data are a data error (09 R223). -/
def State.cacheLoad (s : State) (c : CoreId) (l : List (Nat × Nat)) (va : Word) (nt : Bool) : Loaded :=
  let lines := s.normalLines l
  match s.missFor c lines false with
  | some ln => .stop (.waits (s.startMiss c ln false nt) (.miss ln))
  | none =>
    match badPiece (fun a m => !s.readPoison a m) va.toNat l with
    | some b => .stop (.trap s 0x0F 0 (some { va := BitVec.ofNat 64 b, write := false, fetch := false }))
    | none => .ok (lines.foldl (fun (s : State) ln => s.touch (.l1d c) ln) s) (s.readPieces l)

/-- A load of located pieces (08 R206, R216, R217). -/
def State.loadAt (s : State) (c : CoreId) (k : Core) (l : List (Nat × Nat)) (va : Word) (nt : Bool) : Loaded :=
  if s.isDevice l then
    match l with
    | (a, m) :: _ => s.deviceLoad c k a m va
    | [] => .ok s []
  else match forwardFrom k.sbuf l with
  | .data bytes => .ok s bytes
  | .wait => .stop (.waits s .storeBuffer)
  | .none => if s.windowBusy k.sbuf l then .stop (.waits s .device) else s.cacheLoad c l va nt

/-- A load of a core at a virtual address (08 R206; 09 R225). -/
def State.coreLoad (s : State) (c : CoreId) (k : Core) (va : Word) (n : AccessNeeds) (nt : Bool) : Loaded :=
  match s.locate c k va n with
  | (.error f, s1) => .stop (accessRes s1 c n.acc f)
  | (.ok l, s1) => s1.loadAt c k l va nt

/-- `LD` (R162): 1 to 8 bytes, zero-extended. -/
def execLd (c : CoreId) (p : Pfx) (mw : MemWidth) (x : XReg) (m : MemOp) (s : State) : Host.Outcome State Fault Refusal :=
  next (s.runInstr c p { bytes := 2 + m.bytes, d := x.dregs ++ m.dregs, nt := true, ar := true } (fun s k =>
    if !widthOk mw x then .trap s 0x01 0 none
    else match s.coreLoad c k (eaOf m k) { acc := .read, size := mw.size } p.nt with
    | .ok s1 data => .done s1 (k.loaded c (s.core c) (pendX k x (BitVec.ofNat 64 (leNat data)))) .seq
    | .stop r => r))

/-- `LDS` (R162): 1, 2 or 4 bytes, sign-extended. -/
def execLds (c : CoreId) (p : Pfx) (mw : MemWidth) (dd : Fin 32) (m : MemOp) (s : State) : Host.Outcome State Fault Refusal :=
  next (s.runInstr c p { bytes := 2 + m.bytes, d := dd :: m.dregs, nt := true, ar := true } (fun s k =>
    if mw = .d then .trap s 0x01 0 none
    else match s.coreLoad c k (eaOf m k) { acc := .read, size := mw.size } p.nt with
    | .ok s1 data =>
      .done s1 (k.loaded c (s.core c)
        (.d k.status.pl dd.val (BitVec.ofInt 64 (toSigned (8 * mw.size) (leNat data))))) .seq
    | .stop r => r))

/-- A store into the PCIe configuration space: non-posted, so that it takes no place in the store buffer and its completion ends it, with
a bus error where it fails; after the device stores ahead of it (17 R412; 01 R23; 06 R173). -/
def State.configStore (s : State) (c : CoreId) (k : Core) (va : Word) (a : Nat) (data : List Byte) : Except Res (State × Core) :=
  match (s.core c).wait with
  | some (.pcieDone true _) => .ok (s, k)
  | some (.pcieDone false _) => .error (.trap s 0x0D 0 (some { va := va, write := true, fetch := false }))
  | _ =>
    if s.deviceStoreWaits k then .error (.waits s .device)
    else match rootOffset a with
    | some off => .ok (s.rootWrite off data, k)
    | none => .error (.waits (s.emit (.pcie a data.length (some data))) (.pcie a data.length))

/-- Put a store into the store buffer after its checks (08 R215, R217; 01 R23). -/
def State.coreStore (s : State) (c : CoreId) (k : Core) (va : Word) (data : List Byte) (nt : Bool) : Except Res (State × Core) :=
  match s.locate c k va { acc := .write, size := data.length, store := true } with
  | (.error f, s1) => .error (accessRes s1 c .write f)
  | (.ok l, s1) =>
    let pa := (l.headD (0, 0)).1
    if s1.kindAt pa = .ecam then s1.configStore c k va pa data
    else if 8 ≤ k.sbuf.length then .error (.waits s1 .full)
    else .ok (s1, { k with sbuf := k.sbuf ++ [{ pieces := splitPieces l data, nt := nt, old := false }] })

/-- `ST` (R215). -/
def execSt (c : CoreId) (p : Pfx) (mw : MemWidth) (x : XReg) (m : MemOp) (s : State) : Host.Outcome State Fault Refusal :=
  next (s.runInstr c p { bytes := 2 + m.bytes, d := x.dregs ++ m.dregs, nt := true, ar := true } (fun s k =>
    if !widthOk mw x then .trap s 0x01 0 none
    else match s.coreStore c k (eaOf m k) (leBytes mw.size (k.getX x).toNat) p.nt with
    | .ok (s1, k1) => .done s1 k1 .seq
    | .error r => r))

/-! ## Atomic primitives (06 R175 to R178) -/

/-- The common part of `TAS`, `LR` and `SC` (`reads` for the first two, which need both permissions, 06 R178): locate the access with
exclusive ownership of its line, or how the instruction ends instead. `drained` demands an empty store buffer, else no entry in the line
(08 R217). -/
def State.atomicAccess (s : State) (c : CoreId) (k : Core) (va : Word) (size : Nat) (store align : Bool)
    (never nt reads : Bool) (need : Nat → Bool) : Except Res (State × Nat) :=
  let waitOn (ln : Nat) (w : Wait) : Wait := if never then .held ln else w
  match s.locate c k va { acc := .write, size := size, store := store, align := align, atomic := true, reads := reads } with
  | (.error f, s1) => .error (accessRes s1 c .write f)
  | (.ok l, s1) =>
    let a := (l.headD (0, 0)).1
    let ln := lineOf a
    let blocked := if never then k.sbuf ≠ [] else k.sbuf.any (fun e => e.touches (ln * 128) 128)
    if blocked then .error (.waits s1 (waitOn ln .storeBuffer))
    else match (if need ln then s1.missFor c [ln] true else none) with
    | some m => .error (.waits (s1.startMiss c m true nt) (waitOn m (.miss m)))
    | none =>
    if need ln && s1.readPoison a size then
      .error (.trap s1 0x0F 0 (some { va := va, write := false, fetch := false }))
    else .ok (s1, a)

/-- `LR` (R176): reads with exclusive ownership and sets the reservation. -/
def execLr (c : CoreId) (p : Pfx) (wide : Bool) (dd : Fin 32) (m : MemOp) (s : State) : Host.Outcome State Fault Refusal :=
  let size := if wide then 8 else 4
  next (s.runInstr c p { bytes := 2 + m.bytes, d := dd :: m.dregs, nt := true, ar := true, exclusive := true } (fun s k =>
    match s.atomicAccess c k (eaOf m k) size false true false p.nt true (fun _ => true) with
    | .error r => r
    | .ok (s1, a) =>
      let w := BitVec.ofNat 64 (s1.readNat a size)
      .done ((s1.touch (.l1d c) (lineOf a)).rehold c (lineOf a))
        { k.loaded c (s.core c) (.d k.status.pl dd.val w) with resv := some (lineOf a), pair := some 0 } .seq))

/-- `SC` (R176): stores only if the reservation holds; the status is 0 for a store made, else 1. -/
def execSc (c : CoreId) (p : Pfx) (wide : Bool) (dstat dval : Fin 32) (m : MemOp) (s : State) :
    Host.Outcome State Fault Refusal :=
  let size := if wide then 8 else 4
  next (s.runInstr c p { bytes := 3 + m.bytes, d := dstat :: dval :: m.dregs, nt := true, ar := true, exclusive := true } (fun s k =>
    let holds (ln : Nat) : Bool := decide (k.resv = some ln) && s.holdsLine c ln
    match s.atomicAccess c k (eaOf m k) size true true true p.nt false holds with
    | .error r => r
    | .ok (s1, a) =>
      let ok := holds (lineOf a)
      let s2 := if ok then s1.ownedWrite c a (leBytes size (k.getD dval).toNat) else s1
      .done s2 { k.loaded c (s.core c) (.d k.status.pl dstat.val (if ok then 0 else 1)) with resv := none, pair := none } .seq))

/-- `TAS` (R175): reads a byte and writes 01h, indivisibly. -/
def execTas (c : CoreId) (p : Pfx) (dd : Fin 32) (m : MemOp) (s : State) : Host.Outcome State Fault Refusal :=
  next (s.runInstr c p { bytes := 2 + m.bytes, d := dd :: m.dregs, nt := true, ar := true } (fun s k =>
    match s.atomicAccess c k (eaOf m k) 1 true false true p.nt true (fun _ => true) with
    | .error r => r
    | .ok (s1, a) =>
      let old := BitVec.ofNat 64 (s1.readNat a 1)
      .done ((s1.ownedWrite c a [1]).rehold c (lineOf a)) (k.loaded c (s.core c) (.d k.status.pl dd.val old)) .seq))

/-! ## The store buffer and the fill -/

/-- Perform a store at its place: an SRAM window, a register window, PCIe, or a line that the core owns. -/
def State.performPiece (s : State) (c : CoreId) (a : Nat) (data : List Byte) : State :=
  match s.kindAt a with
  | .pcieMem => s.emit (.pcie (a - 0xE0000000000) data.length (some data))
  | .ecam => s.emit (.pcie a data.length (some data))
  | k => if k.sram then s.sramWrite a data
         else if k.device then s.regWrite (some c) a data
         else s.ownedWrite c a data

/-- The first line of a store-buffer entry that the core does not own. -/
def State.unowned (s : State) (c : CoreId) (e : StoreEntry) : Option Nat :=
  (e.pieces.flatMap (fun x => if (s.kindAt x.1).normal then linesOf x.1 x.2.length else [])).find? (fun ln => !s.ownsLine c ln)

/-- `STORE_BUFFER_DRAIN` (R215): the oldest entry is written, or starts an ownership miss; nothing while the L1 D serves a miss. A reset
ends with the last store (17 R411). -/
def execStoreBufferDrain (c : CoreId) (s : State) : Host.Outcome State Fault Refusal :=
  match (s.core c).sbuf with
  | [] => next s
  | e :: rest =>
    if s.missServed c then next s
    else match s.unowned c e with
    | some ln => next (s.startMiss c ln true e.nt)
    | none =>
      let s1 := s.modCore c (fun k => { k with sbuf := rest })
      let s2 := e.pieces.foldl (fun (s : State) x => s.performPiece c x.1 x.2) s1
      next (if rest = [] ∧ (s2.core c).st = .reset then s2.flushL1 c else s2)

/-- The lines of a cache that await a fill or an upgrade. -/
def State.awaited (s : State) (cache : CacheId) : List Nat :=
  (s.lines.filter (fun x => decide (x.1 / 2 ^ 48 = cacheKey cache) && (requestOf cache x.2.tr).isSome)).map (fun x => x.1 % 2 ^ 48)

/-- The L1 D of a Hazia core takes a line from its L2 into a way of its own (13 R309). -/
def State.fillFromL2 (s : State) (h : Fin 64) (line : Nat) : State :=
  let c : CacheId := .l1d (.hazia h)
  let up := s.line (.haziaL2 h) line
  let x := s.line c line
  if (requestOf c x.tr).isSome ∧ up.allows (decide (x.tr ≠ .is)) ∧ up.tr = .none then
    (s.setLine c line { x with granted := some up.st, awaits := 0 }).install c line
  else s

/-- `L1D_FILL_COMPLETE` (R206): the granted line is installed and the held pipeline resumes. -/
def execL1dFillComplete (c : CoreId) (s : State) : Host.Outcome State Fault Refusal :=
  let s1 : State := match c with
    | .sycen _ _ => (s.awaited (.l1d c)).foldl (fun (s : State) ln => s.install (.l1d c) ln) s
    | .hazia h => (s.awaited (.l1d c)).foldl (fun (s : State) ln => (s.install (.haziaL2 h) ln).fillFromL2 h ln) s
  next (s1.modCore c (fun k =>
    match k.wait with
    | some (.miss ln) => if (requestOf (.l1d c) (s1.line (.l1d c) ln).tr).isNone then { k with wait := none } else k
    | some (.held ln) => if (requestOf (.l1d c) (s1.line (.l1d c) ln).tr).isNone then { k with wait := none } else k
    | _ => k))

/-! ## Loops and branches (06 R166, R167, R169) -/

/-- `LOOP` (R167). -/
def execLoop (c : CoreId) (p : Pfx) (lv : Fin 3) (n : LoopCount) (endDisp : BitVec 16) (s : State) :
    Host.Outcome State Fault Refusal :=
  let sh : Shape := match n with
    | .imm _ => { bytes := 5, imm := 2, e8 := false, noSlot := true }
    | .reg r => { bytes := 4, d := [r], noSlot := true }
  next (s.runInstr c p sh (fun s k =>
    let b := k.bank k.status.pl
    let nxt := k.pc + BitVec.ofNat 64 (sh.len p)
    let e := nxt + endDisp.zeroExtend 64
    let cnt := match n with
      | .imm i => immZero p 2 i
      | .reg r => k.getD r
    if b.active lv.val ∨ 2 ^ 32 ≤ cnt.toNat ∨ e.toNat ≤ nxt.toNat ∨ (b.endLevel e).isSome then .trap s 0x07 0 none
    else
      let b1 := { b with
        lstart := mset 0 b.lstart lv.val nxt
        lend := mset 0 b.lend lv.val e
        lcount := mset 0 b.lcount lv.val (cnt.extractLsb' 0 32) }
      if cnt = 0 then .done s (k.setBank k.status.pl b1) (.skip e)
      else .done s (k.setBank k.status.pl { b1 with act := b1.act ||| (BitVec.ofNat 3 1 <<< lv.val) }) .seq))

/-- A branch, or its delay slot, stands as the last instruction of an active loop (06 R169). -/
def misplaced (k : Core) (len : Nat) (slot : Fin 17) : Bool :=
  let b := k.bank k.status.pl
  (b.endLevel (k.pc + BitVec.ofNat 64 len)).isSome || (b.endLevel (k.pc + BitVec.ofNat 64 (len + slot.val))).isSome

/-- The frame of a branch, jump, `CALL` or `RET`: its placement is checked before its meaning (06 R169, 09 R225). The
meaning gets the address of the next instruction. -/
def State.runBranch (s : State) (c : CoreId) (p : Pfx) (sh : Shape) (slot : Fin 17) (body : State → Core → Word → Res) : State :=
  s.runInstr c p { sh with noSlot := true } (fun s k =>
    if misplaced k (sh.len p) slot then .trap s 0x07 0 none
    else body s k (k.pc + BitVec.ofNat 64 (sh.len p)))

/-- A conditional branch. -/
def condBranch (c : CoreId) (p : Pfx) (sh : Shape) (slot : Fin 17) (disp : BitVec 16) (cond : Core → Bool) (s : State) : State :=
  s.runBranch c p sh slot (fun s k nxt =>
    .done s k (if cond k then .taken (nxt + disp.signExtend 64) true else .untaken))

/-- `BR` (R166). -/
def execBr (c : CoreId) (p : Pfx) (disp : BrDisp) (slot : Fin 17) (s : State) : Host.Outcome State Fault Refusal :=
  let (bytes, d) : Nat × Word := match disp with
    | .d16 x => (3, x.signExtend 64)
    | .d32 x => (5, x.signExtend 64)
  next (s.runBranch c p { bytes := bytes } slot (fun s k nxt => .done s k (.taken (nxt + d) true)))

/-- `JMP` (R166). -/
def execJmp (c : CoreId) (p : Pfx) (an : Fin 16) (slot : Fin 17) (s : State) : Host.Outcome State Fault Refusal :=
  next (s.runBranch c p { bytes := 2 } slot (fun s k _ => .done s k (.taken (k.getA an) true)))

/-- `BZ` (R166). -/
def execBz (c : CoreId) (p : Pfx) (dn : Fin 32) (disp : BitVec 16) (slot : Fin 17) (s : State) :
    Host.Outcome State Fault Refusal :=
  next (condBranch c p { bytes := 4, d := [dn] } slot disp (fun k => k.getD dn == 0) s)

/-- `BNZ` (R166). -/
def execBnz (c : CoreId) (p : Pfx) (dn : Fin 32) (disp : BitVec 16) (slot : Fin 17) (s : State) :
    Host.Outcome State Fault Refusal :=
  next (condBranch c p { bytes := 4, d := [dn] } slot disp (fun k => k.getD dn != 0) s)

/-- `BEQ` (R453). -/
def execBeq (c : CoreId) (p : Pfx) (da db : Fin 32) (disp : BitVec 16) (slot : Fin 17) (s : State) :
    Host.Outcome State Fault Refusal :=
  next (condBranch c p { bytes := 5, d := [da, db] } slot disp (fun k => k.getD da == k.getD db) s)

/-- `BNE` (R453). -/
def execBne (c : CoreId) (p : Pfx) (da db : Fin 32) (disp : BitVec 16) (slot : Fin 17) (s : State) :
    Host.Outcome State Fault Refusal :=
  next (condBranch c p { bytes := 5, d := [da, db] } slot disp (fun k => k.getD da != k.getD db) s)

/-- `BLT` (R453). -/
def execBlt (c : CoreId) (p : Pfx) (da db : Fin 32) (disp : BitVec 16) (slot : Fin 17) (s : State) :
    Host.Outcome State Fault Refusal :=
  next (condBranch c p { bytes := 5, d := [da, db] } slot disp (fun k => (k.getD da).slt (k.getD db)) s)

/-- `BGE` (R453). -/
def execBge (c : CoreId) (p : Pfx) (da db : Fin 32) (disp : BitVec 16) (slot : Fin 17) (s : State) :
    Host.Outcome State Fault Refusal :=
  next (condBranch c p { bytes := 5, d := [da, db] } slot disp (fun k => !(k.getD da).slt (k.getD db)) s)

/-- `BLTU` (R453). -/
def execBltu (c : CoreId) (p : Pfx) (da db : Fin 32) (disp : BitVec 16) (slot : Fin 17) (s : State) :
    Host.Outcome State Fault Refusal :=
  next (condBranch c p { bytes := 5, d := [da, db] } slot disp (fun k => (k.getD da).ult (k.getD db)) s)

/-- `BGEU` (R453). -/
def execBgeu (c : CoreId) (p : Pfx) (da db : Fin 32) (disp : BitVec 16) (slot : Fin 17) (s : State) :
    Host.Outcome State Fault Refusal :=
  next (condBranch c p { bytes := 5, d := [da, db] } slot disp (fun k => !(k.getD da).ult (k.getD db)) s)

/-- `BEQA` (R453). -/
def execBeqa (c : CoreId) (p : Pfx) (aa ab : Fin 16) (disp : BitVec 16) (slot : Fin 17) (s : State) :
    Host.Outcome State Fault Refusal :=
  next (condBranch c p { bytes := 5 } slot disp (fun k => k.getA aa == k.getA ab) s)

/-- `BLTUA` (R453). -/
def execBltua (c : CoreId) (p : Pfx) (aa ab : Fin 16) (disp : BitVec 16) (slot : Fin 17) (s : State) :
    Host.Outcome State Fault Refusal :=
  next (condBranch c p { bytes := 5 } slot disp (fun k => (k.getA aa).ult (k.getA ab)) s)

/-! ## Calls (09 R240) -/

/-- The alignment check of the shadow-stack registers (09 R240, R225 item 5): the first that is not a multiple of 8. -/
def misalignedShadow (b : Bank) : Option Word :=
  [b.ssPtr, b.ssBase, b.ssLimit].find? (fun w => decide (w.toNat % 8 ≠ 0))

/-- The body of `CALL` and `CALLR` (09 R240): push the return address on both stacks and branch. The pushes are not checked
against the shadow stacks (09 R241 names the instructions that are). -/
def callBody (c : CoreId) (slot : Fin 17) (target : Core → Word → Word) (s : State) (k : Core) (nxt : Word) : Res :=
  let b := k.bank k.status.pl
  let ret := nxt + BitVec.ofNat 64 slot.val
  match misalignedShadow b with
  | some w => .trap s 0x08 0 (some { va := w, write := true, fetch := false })
  | none =>
    if b.ssPtr.toNat < b.ssBase.toNat ∨ b.ssLimit.toNat < b.ssPtr.toNat + 8 then .trap s 0x06 0 none
    else
      let sp := k.getA 15 - 8
      match s.locateTwo c k b.ssPtr sp { acc := .write, size := 8 } with
      | (.error f, s1) => accessRes s1 c .write f
      | (.ok (l1, l2), s1) =>
        if 6 < k.sbuf.length then .waits s1 .full
        else
          let push (l : List (Nat × Nat)) : StoreEntry := { pieces := splitPieces l (leBytes 8 ret.toNat), nt := false, old := false }
          let k1 := { k with sbuf := k.sbuf ++ [push l1, push l2] }
          .done s1 ((k1.setBank k.status.pl { b with ssPtr := b.ssPtr + 8 }).setA 15 sp) (.taken (target k nxt) false)

/-- `CALL` (R240). -/
def execCall (c : CoreId) (p : Pfx) (disp : BitVec 32) (slot : Fin 17) (s : State) : Host.Outcome State Fault Refusal :=
  next (s.runBranch c p { bytes := 5 } slot (callBody c slot (fun _ nxt => nxt + disp.signExtend 64)))

/-- `CALLR` (R240). -/
def execCallr (c : CoreId) (p : Pfx) (an : Fin 16) (slot : Fin 17) (s : State) : Host.Outcome State Fault Refusal :=
  next (s.runBranch c p { bytes := 2 } slot (callBody c slot (fun k _ => k.getA an)))

/-- `RET` (R240): pops both stacks and compares. -/
def execRet (c : CoreId) (p : Pfx) (slot : Fin 17) (s : State) : Host.Outcome State Fault Refusal :=
  next (s.runBranch c p { bytes := 1 } slot (fun s k _ =>
    let b := k.bank k.status.pl
    match misalignedShadow b with
    | some w => .trap s 0x08 0 (some { va := w, write := false, fetch := false })
    | none =>
      if b.ssPtr.toNat < b.ssBase.toNat + 8 ∨ b.ssLimit.toNat < b.ssPtr.toNat then .trap s 0x06 1 none
      else match s.locateTwo c k (b.ssPtr - 8) (k.getA 15) { acc := .read, size := 8 } with
      | (.error f, s1) => accessRes s1 c .read f
      | (.ok (l1, l2), s1) =>
        match s1.loadAt c k l1 (b.ssPtr - 8) false with
        | .stop r => r
        | .ok s2 d1 =>
          match s2.loadAt c k l2 (k.getA 15) false with
          | .stop r => r
          | .ok s3 d2 =>
            if d1 ≠ d2 then .trap s3 0x05 0 none
            else
              let k1 := k.setBank k.status.pl { b with ssPtr := b.ssPtr - 8 }
              .done s3 (k1.setA 15 (k.getA 15 + 8)) (.taken (BitVec.ofNat 64 (leNat d1)) false)))

end Sys2Proof.Machine
end

