-- ==== Sys2Proof/Machine/Coherence.lean ====
section
/-! DEFINITION. The caches and their messages: requests, snoops, fills, evictions, uncached requests, hold windows,
parity errors and maintenance by address (13). -/

namespace Sys2Proof.Machine

/-! ## Parity errors (13 R313) -/

/-- The unit that reports for a cache (18 R431): the L2 with the die directory, or the L3 with the module directory; a Hazia
core's caches; for the caches of sequencers, engines and bulk movers the unit they belong to (log entry 52). -/
def cacheUnit (n : Nat) : Nat :=
  if n < 96 then 0x1000 + n % 24
  else if n < 160 then 0x6100 + (n - 96)
  else if n < 256 then 0x1000 + (n - 160) % 24
  else if n < 320 then 0x6100 + (n - 256)
  else if n < 352 then (if (n - 320) % 8 = 7 then 0x6000 else 0x4000 + (n - 320) % 8)
  else if 356 ≤ n ∧ n < 420 then 0x6100 + (n - 356)
  else 0x6000

/-- The machine-check record of a parity error: CE of class 0Ch, or FATAL of class 0Dh (18 R432). -/
def parityRec (cache : CacheId) (line : Nat) (fatal : Bool) : McRec :=
  let n := cacheKey cache
  let die := if cacheDie n < 4 then cacheDie n + 1 else 0
  { mkRec die (cacheUnit n) (if fatal then 0x0D else 0x0C) (if fatal then 3 else 0) 0 0 with paddr := line * 128 }

/-- A clean copy is invalidated, with recall below it; newer data below reach memory first. -/
def State.dropClean (s : State) (cache : CacheId) (line : Nat) : State :=
  let n := cacheKey cache
  match cache with
  | .l2 _ =>
    let s1 := s.settled line
    let s2 := if s1.isDirty line then s1.cleanLine line else s1
    (s1.below n line).foldl (fun (s : State) x => s.dropCopy (cacheOf x.1) line) s2 |>.dropCopy cache line
  | _ => s.dropCopy cache line

/-- A parity error in a cache (13 R313): a clean copy or a way of an L1 I is invalidated with a CE record, and anything that
holds the newest value or the state of the line is lost with a FATAL record. -/
def State.parityError (s : State) (line : Nat) (cache : CacheId) (at' : ParityAt) : State :=
  let x := s.line cache line
  match at' with
  | .data =>
    if x.st = .i then s
    else if x.st = .m then s.report (parityRec cache line true)
    else (s.dropClean cache line).report (parityRec cache line false)
  | .tag =>
    if isL1i (cacheKey cache) then (s.dropClean cache line).report (parityRec cache line false)
    else s.report (parityRec cache line true)
  | .directory => s.report (parityRec cache line true)

/-! ## The arrivals of one cycle (13 R321) -/

/-- The turn of an arrival: an uncached request acts in its slot, and what the directory keeps joins the order of its line. -/
def State.takeTurn (s : State) (dir line : Nat) (r : DirReq) : State :=
  match r with
  | .uncached at' cls off _ (some data) => (s.noteSlot dir r.slot).putLine at' cls line off data
  | .uncached at' _ off n none =>
    { (s.noteSlot dir r.slot).touch (servingCache at') line with busOut := s.readMem (line * 128 + off) n }
  | _ => s.request dir line r

/-- The order in which the arrivals of one cycle take their turns. Uncached requests wait for the transaction to which a message of the
module directory among them belongs (13 R317, R319). -/
def State.turns (s : State) (dir : Nat) (all : List DirReq) : List DirReq :=
  let order := s.ordered dir all
  if order.any (fun r => decide (r.slot = 33)) then order.filter (fun r => !r.isUncached) ++ order.filter DirReq.isUncached else order

/-- A message reaches a directory; `more` says that others for the line arrive on the same cycle. -/
def State.arrive (s : State) (dir line : Nat) (r : DirReq) (more : Bool) : State :=
  let all := (s.dirEntry dir line).batch ++ [r]
  if more then s.modDirEntry dir line (fun e => { e with batch := all })
  else
    let s1 := s.modDirEntry dir line (fun e => { e with batch := [] })
    ((s1.turns dir all).foldl (fun (s : State) r => s.takeTurn dir line r) s1).forwardSecond dir line all

/-! ## Requests (13 R317, R318, R321) -/

/-- A request of a cache sets out and reaches its directory, unless the directory has it already; the requests of an L2 were
made by its die directory. -/
def State.sendRequest (s : State) (cache : CacheId) (line : Nat) (r : DirReq) (more : Bool) : State :=
  if s.recorded cache line ∨ (s.line cache line).granted.isSome then s
  else match cache with
  | .l3 => s
  | _ =>
    let s1 := match cache with
      | .l2 _ => s
      | _ => s.asks cache line r.owns (s.line cache line).nt
    let tr := (s1.line cache line).tr
    if requestOf cache tr = some r ∨ (r = .upgrade cache ∧ tr = .im) then
      match cache with
      | .l2 d =>
        match s1.takeUp d.val line with
        | some s2 => let s3 := s2.arrive 4 line r more
                     State.deliverMaint d.val (mget [] s3.reqq d.val) s3
        | none => s1
      | .l1i (.hazia _) => s1.requestFrom cache line r
      | .l1d (.hazia _) => s1.requestFrom cache line r
      | _ => s1.arrive (dirOf (cacheKey cache)) line r more
    else s

/-- `READ_REQUEST` (R318): of a cache that does not hold the line. -/
def execReadRequest (cache : CacheId) (line : Nat) (more : Bool) (par : Option (CacheId × ParityAt)) (s : State) :
    Host.Outcome State Fault Refusal :=
  let s1 := match par with
    | some (c, w) => s.parityError line c w
    | none => s
  if (s1.line cache line).st = .i then next (s1.sendRequest cache line (.read cache) more) else next s1

/-- `OWNERSHIP_REQUEST` (R318). -/
def execOwnershipRequest (cache : CacheId) (line : Nat) (more : Bool) (s : State) : Host.Outcome State Fault Refusal :=
  if (s.line cache line).st = .i ∧ !isL1i (cacheKey cache) then next (s.sendRequest cache line (.own cache) more) else next s

/-- `UPGRADE_REQUEST` (R317): of a cache in S or F, or one that lost its copy while the upgrade was under way. -/
def execUpgradeRequest (cache : CacheId) (line : Nat) (more : Bool) (s : State) : Host.Outcome State Fault Refusal :=
  let x := s.line cache line
  if (x.st = .s ∨ x.st = .f ∨ x.tr = .im) ∧ !isL1i (cacheKey cache) then next (s.sendRequest cache line (.upgrade cache) more)
  else next s

/-! ## Messages at a cache (13 R317, R320) -/

/-- `SNOOP` (R317): a message reaches a cache; it waits for a hold window (R320) and for a fill under way. At a CD's L2 the
oldest message of the module directory arrives (01 R20), and joins the order of its line in slot 33 (R321). -/
def execSnoop (cache : CacheId) (line : Nat) (more : Bool) (s : State) : Host.Outcome State Fault Refusal :=
  let x := s.line cache line
  match cache with
  | .l2 d =>
    match s.takeDown d.val with
    | some ((l, m), s1) => if l = line then next (s1.arrive d.val line (.forwarded m) more) else next s
    | none => next s
  | _ => if x.hold ∨ x.tr = .is ∨ x.tr = .im then next s else next ((s.takeSnoop cache line).pump line)

/-- `HOLD_WINDOW_END` (R320): the messages that wait at the holding cache are served in order. The window of a line outlasts a
constrained pair on it (06 R177). -/
def execHoldWindowEnd (cache : CacheId) (line : Nat) (s : State) : Host.Outcome State Fault Refusal :=
  if (s.line cache line).hold ∧ !s.pinned line then next (s.endHold cache line).letGo else next s

/-- `FILL_ACK` (R317): the requester has its line; its entry closes and the next waiting request starts. -/
def execFillAck (cache : CacheId) (line : Nat) (s : State) : Host.Outcome State Fault Refusal :=
  next (s.fillAck cache line).letGo

/-- `FILL_RETRY` (R322): a fill, or a writeback into the L3, whose ways were all excluded looks for a way again; with the L3, so does
a request that waits for a directory-only way. -/
def execFillRetry (cache : CacheId) (line : Nat) (s : State) : Host.Outcome State Fault Refusal :=
  match cache with
  | .l3 =>
    let s1 := s.retryL3 line
    next ((s1.seekWay line).getD s1)
  | _ => next (s.install cache line)

/-! ## Evictions (13 R309, R311, R312, R317, R321) -/

/-- `WRITEBACK` (R321): the writeback of a line that has left its way is accepted by the directory; one whose data a forwarded
request took from the buffer completes without data (R317). -/
def execWriteback (cache : CacheId) (line : Nat) (more : Bool) (s : State) : Host.Outcome State Fault Refusal :=
  let tr := (s.line cache line).tr
  if tr = .mi ∨ tr = .ei then next (s.arrive (dirOf (cacheKey cache)) line (.writeback cache) more) else next s

/-- `CLEAN_EVICTION_NOTICE` (R317): the notice of a clean line that has left its way is accepted. -/
def execCleanEvictionNotice (cache : CacheId) (line : Nat) (more : Bool) (s : State) : Host.Outcome State Fault Refusal :=
  if (s.line cache line).tr = .ei then next (s.arrive (dirOf (cacheKey cache)) line (.notice cache) more) else next s

/-! ## Uncached requests (13 R319) -/

/-- The directory that the uncached requests of a die reach. -/
def uncachedDir : EtuId → Nat
  | .cd d => d.val
  | .hd => 4

/-- `UNCACHED_READ` (R319): the current data, installed nowhere; an address that no unit answers gives none (01 R23). One that finds
no miss register waits and is sent again (R312). -/
def execUncachedRead (src : EtuId) (addr : BitVec 52) (size : Nat) (more : Bool) (s : State) : Host.Outcome State Fault Refusal :=
  let a := addr.toNat
  if (s.kindAt a).normal && s.busOk a size && decide (0 < size) then
    let ls := linesOf a size
    if ls.any (s.inputHeld src) then next s
    else if a % 128 + size ≤ 128 then next (s.arrive (uncachedDir src) (lineOf a) (.uncached src 0 (a % 128) size none) more)
    else next { ls.foldl (fun (s : State) l => s.touch (servingCache src) l) s with busOut := s.readMem a size }
  else next { s with busOut := [] }

/-- `UNCACHED_WRITE` (R319): waits for open entries and hold windows (R317, R324) and for the cut (16 R386); a
copy-before-write comes first (16 R388). One that waits has no effect and is sent again. Among the messages of one cycle it takes
its turn in the slot of uncached requesters (R321). -/
def execUncachedWrite (src : EtuId) (cls : Fin 5) (addr : BitVec 52) (data : List Byte) (more : Bool) (s : State) :
    Host.Outcome State Fault Refusal :=
  let a := addr.toNat
  let dir := uncachedDir src
  if (s.kindAt a).normal && s.busOk a data.length && decide (data ≠ []) then
    if more ∨ (linesOf a data.length).any (fun l => decide ((s.dirEntry dir l).batch ≠ [])) then
      next ((linePieces (data.length + 1) a data).foldl (fun (s : State) x =>
        s.arrive dir x.1 (.uncached src cls x.2.1 x.2.2.length (some x.2.2)) more) s)
    else if (linesOf a data.length).any (fun l => !s.quiet l || s.writeHeld l) then next s
    else next ((linesOf a data.length).foldl (fun (s : State) _ => s.noteSlot dir (if dir < 4 then 32 else 4)) (s.writeMem src cls a data))
  else next s

/-! ## Maintenance by address (13 R323, R325, R326; 07 R453) -/

/-- A maintenance operation of a core reaches the directory that orders it: its die's, or the L3 for a Hazia core
(13 R326). What can act at once does (R323). -/
def State.orderMaint (s : State) (c : CoreId) (line : Nat) (op : Maint) : State :=
  let dir := match c with
    | .sycen d _ => d.val
    | .hazia _ => 4
  ((s.modCore c (fun k => { k with maint := true })).request dir line (.maint (coreKey c) op)).settleLine line false

/-- The body of `CLEAN`, `INVAL` and `CLEANINVAL`, an instruction of `len` bytes: the checks of a store, the store buffer, an
earlier operation of the core, then the operation, which is at once complete where nothing is under way for the line. -/
def maintBody (c : CoreId) (op : Maint) (m : MemOp) (len : Nat) (s : State) (k : Core) : Res :=
  let va := eaOf m k
  let acc : Access := if op = .clean then .read else .write
  let done (s : State) : Res := .done s { k with maint := false, resv := (s.core c).resv } .seq
  if op = .inval ∧ k.status.pl = .user then .trap s 0x02 0 none
  else
    let uncached := match s.coreTranslate c va.toNat acc with
      | (.ok pa, s1) => if (s.kindAt pa).sram || (s.kindAt pa).device then some s1 else none
      | _ => none
    match uncached with
    | some s1 => .done s1 k .seq
    | none =>
      match s.locate c k va { acc := acc, size := 1 } with
      | (.error f, s1) => accessRes s1 c acc f
      | (.ok l, s1) =>
        let ln := lineOf (l.headD (0, 0)).1
        let ordered := (s.core c).wait = some (.maint len)
        if k.sbuf.any (fun e => e.touches (ln * 128) 128) then .waits s1 .storeBuffer
        else if k.maint then .waits s1 (if ordered then .maint len else .ordered)
        else if ordered then done s1
        else if s1.quiet ln then done ((s1.maintain op ln).tidy ln)
        else
          let s2 := s1.orderMaint c ln op
          if (s2.core c).maint then .waits s2 (.maint len) else done s2

/-- The shape of a maintenance instruction. -/
def maintShape (m : MemOp) : Shape := { bytes := 2 + m.bytes, d := m.dregs, unpaired := true }

/-- `CLEAN` (R325). -/
def execClean (c : CoreId) (p : Pfx) (m : MemOp) (s : State) : Host.Outcome State Fault Refusal :=
  next (s.runInstr c p (maintShape m) (maintBody c .clean m ((maintShape m).len p)))

/-- `INVAL` (R325). -/
def execInval (c : CoreId) (p : Pfx) (m : MemOp) (s : State) : Host.Outcome State Fault Refusal :=
  next (s.runInstr c p (maintShape m) (maintBody c .inval m ((maintShape m).len p)))

/-- `CLEANINVAL` (R325). -/
def execCleaninval (c : CoreId) (p : Pfx) (m : MemOp) (s : State) : Host.Outcome State Fault Refusal :=
  next (s.runInstr c p (maintShape m) (maintBody c .cleanInval m ((maintShape m).len p)))

/-- The line that a `PREFETCH` asks for; none where it is dropped (R453). -/
def State.prefetchLine (s : State) (c : CoreId) (va : Word) : Option Nat :=
  match s.coreTranslate c va.toNat .read with
  | (.ok pa, _) =>
    if (s.kindAt pa).normal && s.coreBusOk c pa 1 && !s.missServed c && !s.holdsLine c (lineOf pa) then some (lineOf pa) else none
  | _ => none

/-- `PREFETCH` (R453): never faults; dropped when it cannot proceed. -/
def execPrefetch (c : CoreId) (p : Pfx) (m : MemOp) (s : State) : Host.Outcome State Fault Refusal :=
  next (s.runInstr c p { bytes := 2 + m.bytes, d := m.dregs, nt := true } (fun s k =>
    match s.prefetchLine c (eaOf m k) with
    | some ln => .done (s.startMiss c ln false p.nt) k .seq
    | none => .done s k .seq))

end Sys2Proof.Machine
end

