-- ==== Sys2Proof/Machine/Integer.lean ====
section
/-! DEFINITION. The address-class, integer and bit-manipulation instructions (07 R192, R453). -/

namespace Sys2Proof.Machine

/-! ## Shared forms -/

/-- An instruction with three D operands; `long`: a long operation (06 R164). -/
def alu3 (c : CoreId) (p : Pfx) (dd da db : Fin 32) (bytes : Nat) (op : Word → Word → Word) (s : State) (long : Bool := false) : State :=
  s.runLocal c p { bytes := bytes, d := [dd, da, db], unpaired := long } (fun k => k.setD dd (op (k.getD da) (k.getD db)))

/-- An instruction with two D operands. -/
def alu2 (c : CoreId) (p : Pfx) (dd da : Fin 32) (bytes : Nat) (op : Word → Word) (s : State) : State :=
  s.runLocal c p { bytes := bytes, d := [dd, da] } (fun k => k.setD dd (op (k.getD da)))

/-- An instruction with two D operands and an extendable 2-byte immediate. -/
def aluImm (c : CoreId) (p : Pfx) (dd da : Fin 32) (i : Word) (ext : Pfx → Nat → Word → Word) (op : Word → Word → Word)
    (s : State) : State :=
  s.runLocal c p { bytes := 5, imm := 2, d := [dd, da] } (fun k => k.setD dd (op (k.getD da) (ext p 2 i)))

/-- An instruction with two D operands and an i8. -/
def aluImm8 (c : CoreId) (p : Pfx) (dd da : Fin 32) (bytes : Nat) (op : Word → Word) (s : State) : State :=
  s.runLocal c p { bytes := bytes, d := [dd, da] } (fun k => k.setD dd (op (k.getD da)))

/-! ## The functions of R453 -/

/-- A truth value as a register holds it. -/
def flagWord (b : Bool) : Word := if b then 1 else 0

/-- The high 64 bits of the signed product. -/
def mulHigh (a b : Word) : Word := BitVec.ofInt 64 (a.toInt * b.toInt / 2 ^ 64)
/-- The high 64 bits of the unsigned product. -/
def mulHighU (a b : Word) : Word := BitVec.ofNat 64 (a.toNat * b.toNat / 2 ^ 64)
/-- Signed division, rounded toward zero; a divisor of 0 gives all ones. -/
def divSigned (a b : Word) : Word := if b = 0 then BitVec.allOnes 64 else BitVec.ofInt 64 (Int.tdiv a.toInt b.toInt)
/-- Unsigned division; a divisor of 0 gives all ones. -/
def divUnsigned (a b : Word) : Word := if b = 0 then BitVec.allOnes 64 else a / b
/-- The signed remainder, with the sign of the dividend; a divisor of 0 gives the dividend. -/
def remSigned (a b : Word) : Word := if b = 0 then a else BitVec.ofInt 64 (Int.tmod a.toInt b.toInt)
/-- The unsigned remainder; a divisor of 0 gives the dividend. -/
def remUnsigned (a b : Word) : Word := if b = 0 then a else a % b
/-- A shift count: the low 6 bits. -/
def count64 (b : Word) : Nat := b.toNat % 64
def shiftL (a b : Word) : Word := a <<< count64 b
def shiftR (a b : Word) : Word := a >>> count64 b
def shiftRA (a b : Word) : Word := a.sshiftRight (count64 b)
def rotL (a b : Word) : Word := (a <<< count64 b) ||| (a >>> (64 - count64 b))
def rotR (a b : Word) : Word := (a >>> count64 b) ||| (a <<< (64 - count64 b))
/-- An i8 as a count. -/
def countOf (i : Byte) : Word := i.zeroExtend 64
def minSigned (a b : Word) : Word := if a.toInt ≤ b.toInt then a else b
def maxSigned (a b : Word) : Word := if a.toInt ≤ b.toInt then b else a
/-- The number of zero bits above the highest one bit; 64 for 0. -/
def leadingZeros (a : Word) : Word := BitVec.ofNat 64 (if a = 0 then 64 else 63 - Nat.log2 a.toNat)
/-- The number of one bits. -/
def popCount (a : Word) : Word := BitVec.ofNat 64 ((countFrom 0 64).filter (fun i => a.getLsbD i)).length
/-- The eight bytes in reverse order. -/
def byteSwap (a : Word) : Word := BitVec.ofNat 64 (leNat (leBytes 8 a.toNat).reverse)
/-- The positions where a mask holds 1, ascending. -/
def maskPositions (m : Word) : List Nat := (countFrom 0 64).filter (fun i => m.getLsbD i)
/-- The number whose bit j is the j-th flag of a list, placed at the j-th position. -/
def placeBits : List Nat → List Bool → Nat
  | i :: is, b :: bs => b2n b * 2 ^ i + placeBits is bs
  | _, _ => 0
/-- Pack the bits that a mask selects into the low bits. -/
def bitExtract (a m : Word) : Word :=
  BitVec.ofNat 64 (placeBits (countFrom 0 64) ((maskPositions m).map (fun i => a.getLsbD i)))
/-- Deposit the low bits at the positions that a mask selects. -/
def bitDeposit (a m : Word) : Word :=
  BitVec.ofNat 64 (placeBits (maskPositions m) ((countFrom 0 64).map (fun i => a.getLsbD i)))
/-- The low `n` bits, sign- or zero-extended. -/
def extendLow (n : Nat) (zero : Bool) (a : Word) : Word :=
  if zero then BitVec.ofNat 64 (a.toNat % 2 ^ n) else BitVec.ofInt 64 (toSigned n (a.toNat % 2 ^ n))

/-! ## Address class -/

/-- The D operands of an X or immediate source. -/
def ximmShape (x : XImm) (regBytes immBytes : Nat) : Shape :=
  match x with
  | .reg r => { bytes := regBytes, d := r.dregs }
  | .imm _ => { bytes := immBytes, imm := 2 }

/-- The value of an X or immediate source. -/
def ximmValue (x : XImm) (p : Pfx) (k : Core) : Word :=
  match x with
  | .reg r => k.getX r
  | .imm i => immSigned p 2 i

/-- The count of a shift of an A register. -/
def shiftValue (n : ShiftCount) (k : Core) : Word :=
  match n with
  | .imm i => countOf i
  | .reg r => k.getD r

def shiftDregs : ShiftCount → List (Fin 32)
  | .imm _ => []
  | .reg r => [r]

/-- `ADDA` (R453). -/
def execAdda (c : CoreId) (p : Pfx) (ad aa : Fin 16) (src : XImm) (s : State) : Host.Outcome State Fault Refusal :=
  next (s.runLocal c p (ximmShape src 4 5) (fun k => k.setA ad (k.getA aa + ximmValue src p k)))

/-- `SUBA` (R453). -/
def execSuba (c : CoreId) (p : Pfx) (ad aa : Fin 16) (x : XReg) (s : State) : Host.Outcome State Fault Refusal :=
  next (s.runLocal c p { bytes := 4, d := x.dregs } (fun k => k.setA ad (k.getA aa - k.getX x)))

/-- `SHLA` (R453). -/
def execShla (c : CoreId) (p : Pfx) (ad aa : Fin 16) (n : ShiftCount) (s : State) : Host.Outcome State Fault Refusal :=
  next (s.runLocal c p { bytes := 4, d := shiftDregs n } (fun k => k.setA ad (shiftL (k.getA aa) (shiftValue n k))))

/-- `SHRA` (R453). -/
def execShra (c : CoreId) (p : Pfx) (ad aa : Fin 16) (n : ShiftCount) (s : State) : Host.Outcome State Fault Refusal :=
  next (s.runLocal c p { bytes := 4, d := shiftDregs n } (fun k => k.setA ad (shiftR (k.getA aa) (shiftValue n k))))

/-- `CMPEQA` (R453). -/
def execCmpeqa (c : CoreId) (p : Pfx) (dd : Fin 32) (aa ab : Fin 16) (s : State) : Host.Outcome State Fault Refusal :=
  next (s.runLocal c p { bytes := 4, d := [dd] } (fun k => k.setD dd (flagWord (k.getA aa == k.getA ab))))

/-- `CMPLTUA` (R453). -/
def execCmpltua (c : CoreId) (p : Pfx) (dd : Fin 32) (aa ab : Fin 16) (s : State) : Host.Outcome State Fault Refusal :=
  next (s.runLocal c p { bytes := 4, d := [dd] } (fun k => k.setD dd (flagWord ((k.getA aa).ult (k.getA ab)))))

/-- `MOVA` (R192). -/
def execMova (c : CoreId) (p : Pfx) (ad : Fin 16) (src : XImm) (s : State) : Host.Outcome State Fault Refusal :=
  next (s.runLocal c p (ximmShape src 3 4) (fun k => k.setA ad (ximmValue src p k)))

/-- `MOVDA` (R192). -/
def execMovda (c : CoreId) (p : Pfx) (dd : Fin 32) (aa : Fin 16) (s : State) : Host.Outcome State Fault Refusal :=
  next (s.runLocal c p { bytes := 3, d := [dd] } (fun k => k.setD dd (k.getA aa)))

/-- `LEA` (R187). -/
def execLea (c : CoreId) (p : Pfx) (ad : Fin 16) (m : MemOp) (s : State) : Host.Outcome State Fault Refusal :=
  next (s.runLocal c p { bytes := 2 + m.bytes, d := m.dregs } (fun k => k.setA ad (eaOf m k)))

/-! ## Integer, data class -/

/-- `ADD` (R453). -/
def execAdd (c : CoreId) (p : Pfx) (dd da db : Fin 32) (s : State) : Host.Outcome State Fault Refusal :=
  next (alu3 c p dd da db 4 (· + ·) s)

/-- `SUB` (R453). -/
def execSub (c : CoreId) (p : Pfx) (dd da db : Fin 32) (s : State) : Host.Outcome State Fault Refusal :=
  next (alu3 c p dd da db 4 (· - ·) s)

/-- `ADDI` (R453). -/
def execAddi (c : CoreId) (p : Pfx) (dd da : Fin 32) (i : Word) (s : State) : Host.Outcome State Fault Refusal :=
  next (aluImm c p dd da i immSigned (· + ·) s)

/-- `MUL` (R453). -/
def execMul (c : CoreId) (p : Pfx) (dd da db : Fin 32) (s : State) : Host.Outcome State Fault Refusal :=
  next (alu3 c p dd da db 4 (· * ·) s)

/-- `MULH` (R453). -/
def execMulh (c : CoreId) (p : Pfx) (dd da db : Fin 32) (s : State) : Host.Outcome State Fault Refusal :=
  next (alu3 c p dd da db 4 mulHigh s)

/-- `MULHU` (R453). -/
def execMulhu (c : CoreId) (p : Pfx) (dd da db : Fin 32) (s : State) : Host.Outcome State Fault Refusal :=
  next (alu3 c p dd da db 4 mulHighU s)

/-- `DIV` (R453). -/
def execDiv (c : CoreId) (p : Pfx) (dd da db : Fin 32) (s : State) : Host.Outcome State Fault Refusal :=
  next (alu3 c p dd da db 4 divSigned s true)

/-- `DIVU` (R453). -/
def execDivu (c : CoreId) (p : Pfx) (dd da db : Fin 32) (s : State) : Host.Outcome State Fault Refusal :=
  next (alu3 c p dd da db 4 divUnsigned s true)

/-- `REM` (R453). -/
def execRem (c : CoreId) (p : Pfx) (dd da db : Fin 32) (s : State) : Host.Outcome State Fault Refusal :=
  next (alu3 c p dd da db 4 remSigned s true)

/-- `REMU` (R453). -/
def execRemu (c : CoreId) (p : Pfx) (dd da db : Fin 32) (s : State) : Host.Outcome State Fault Refusal :=
  next (alu3 c p dd da db 4 remUnsigned s true)

/-- `AND` (R192). -/
def execAnd (c : CoreId) (p : Pfx) (dd da db : Fin 32) (s : State) : Host.Outcome State Fault Refusal :=
  next (alu3 c p dd da db 4 (· &&& ·) s)

/-- `OR` (R192). -/
def execOr (c : CoreId) (p : Pfx) (dd da db : Fin 32) (s : State) : Host.Outcome State Fault Refusal :=
  next (alu3 c p dd da db 4 (· ||| ·) s)

/-- `XOR` (R192). -/
def execXor (c : CoreId) (p : Pfx) (dd da db : Fin 32) (s : State) : Host.Outcome State Fault Refusal :=
  next (alu3 c p dd da db 4 (· ^^^ ·) s)

/-- `ANDI`: the immediate is zero-extended (R183). -/
def execAndi (c : CoreId) (p : Pfx) (dd da : Fin 32) (i : Word) (s : State) : Host.Outcome State Fault Refusal :=
  next (aluImm c p dd da i immZero (· &&& ·) s)

/-- `ORI`: the immediate is zero-extended (R183). -/
def execOri (c : CoreId) (p : Pfx) (dd da : Fin 32) (i : Word) (s : State) : Host.Outcome State Fault Refusal :=
  next (aluImm c p dd da i immZero (· ||| ·) s)

/-- `XORI`: the immediate is zero-extended (R183). -/
def execXori (c : CoreId) (p : Pfx) (dd da : Fin 32) (i : Word) (s : State) : Host.Outcome State Fault Refusal :=
  next (aluImm c p dd da i immZero (· ^^^ ·) s)

/-- `SHL` (R453). -/
def execShl (c : CoreId) (p : Pfx) (dd da db : Fin 32) (s : State) : Host.Outcome State Fault Refusal :=
  next (alu3 c p dd da db 4 shiftL s)

/-- `SHR` (R453). -/
def execShr (c : CoreId) (p : Pfx) (dd da db : Fin 32) (s : State) : Host.Outcome State Fault Refusal :=
  next (alu3 c p dd da db 4 shiftR s)

/-- `SAR` (R453). -/
def execSar (c : CoreId) (p : Pfx) (dd da db : Fin 32) (s : State) : Host.Outcome State Fault Refusal :=
  next (alu3 c p dd da db 4 shiftRA s)

/-- `SHLI` (R453). -/
def execShli (c : CoreId) (p : Pfx) (dd da : Fin 32) (i : Byte) (s : State) : Host.Outcome State Fault Refusal :=
  next (aluImm8 c p dd da 4 (fun a => shiftL a (countOf i)) s)

/-- `SHRI` (R453). -/
def execShri (c : CoreId) (p : Pfx) (dd da : Fin 32) (i : Byte) (s : State) : Host.Outcome State Fault Refusal :=
  next (aluImm8 c p dd da 4 (fun a => shiftR a (countOf i)) s)

/-- `SARI` (R453). -/
def execSari (c : CoreId) (p : Pfx) (dd da : Fin 32) (i : Byte) (s : State) : Host.Outcome State Fault Refusal :=
  next (aluImm8 c p dd da 4 (fun a => shiftRA a (countOf i)) s)

/-- `CMPEQ` (R453). -/
def execCmpeq (c : CoreId) (p : Pfx) (dd da db : Fin 32) (s : State) : Host.Outcome State Fault Refusal :=
  next (alu3 c p dd da db 4 (fun a b => flagWord (a == b)) s)

/-- `CMPLT` (R453). -/
def execCmplt (c : CoreId) (p : Pfx) (dd da db : Fin 32) (s : State) : Host.Outcome State Fault Refusal :=
  next (alu3 c p dd da db 4 (fun a b => flagWord (a.slt b)) s)

/-- `CMPLTU` (R453). -/
def execCmpltu (c : CoreId) (p : Pfx) (dd da db : Fin 32) (s : State) : Host.Outcome State Fault Refusal :=
  next (alu3 c p dd da db 4 (fun a b => flagWord (a.ult b)) s)

/-- `MIN` (R453). -/
def execMin (c : CoreId) (p : Pfx) (dd da db : Fin 32) (s : State) : Host.Outcome State Fault Refusal :=
  next (alu3 c p dd da db 4 minSigned s)

/-- `MAX` (R453). -/
def execMax (c : CoreId) (p : Pfx) (dd da db : Fin 32) (s : State) : Host.Outcome State Fault Refusal :=
  next (alu3 c p dd da db 4 maxSigned s)

/-- `MOV` (R192). -/
def execMov (c : CoreId) (p : Pfx) (dd da : Fin 32) (s : State) : Host.Outcome State Fault Refusal :=
  next (alu2 c p dd da 3 (fun a => a) s)

/-- `MOVI` (R192). -/
def execMovi (c : CoreId) (p : Pfx) (dd : Fin 32) (i : Word) (s : State) : Host.Outcome State Fault Refusal :=
  next (s.runLocal c p { bytes := 4, imm := 2, d := [dd] } (fun k => k.setD dd (immSigned p 2 i)))

/-- `EXT`: the reserved width and reserved bits are illegal (R453). -/
def execExt (c : CoreId) (p : Pfx) (dd da : Fin 32) (i : Byte) (s : State) : Host.Outcome State Fault Refusal :=
  next (s.runInstr c p { bytes := 4, d := [dd, da] } (fun s k =>
    let w := i.toNat % 4
    if w = 3 ∨ 8 ≤ i.toNat then .trap s 0x01 0 none
    else .done s (k.setD dd (extendLow (8 * 2 ^ w) (i.getLsbD 2) (k.getD da))) .seq))

/-- `CLZ` (R453). -/
def execClz (c : CoreId) (p : Pfx) (dd da : Fin 32) (s : State) : Host.Outcome State Fault Refusal :=
  next (alu2 c p dd da 3 leadingZeros s)

/-- `POPC` (R453). -/
def execPopc (c : CoreId) (p : Pfx) (dd da : Fin 32) (s : State) : Host.Outcome State Fault Refusal :=
  next (alu2 c p dd da 3 popCount s)

/-! ## Bit manipulation -/

/-- `BSWAP` (R453). -/
def execBswap (c : CoreId) (p : Pfx) (dd da : Fin 32) (s : State) : Host.Outcome State Fault Refusal :=
  next (alu2 c p dd da 4 byteSwap s)

/-- `ROL` (R453). -/
def execRol (c : CoreId) (p : Pfx) (dd da db : Fin 32) (s : State) : Host.Outcome State Fault Refusal :=
  next (alu3 c p dd da db 5 rotL s)

/-- `ROR` (R453). -/
def execRor (c : CoreId) (p : Pfx) (dd da db : Fin 32) (s : State) : Host.Outcome State Fault Refusal :=
  next (alu3 c p dd da db 5 rotR s)

/-- `ROLI` (R453). -/
def execRoli (c : CoreId) (p : Pfx) (dd da : Fin 32) (i : Byte) (s : State) : Host.Outcome State Fault Refusal :=
  next (aluImm8 c p dd da 5 (fun a => rotL a (countOf i)) s)

/-- `BEXT` (R453). -/
def execBext (c : CoreId) (p : Pfx) (dd da db : Fin 32) (s : State) : Host.Outcome State Fault Refusal :=
  next (alu3 c p dd da db 5 bitExtract s)

/-- `BDEP` (R453). -/
def execBdep (c : CoreId) (p : Pfx) (dd da db : Fin 32) (s : State) : Host.Outcome State Fault Refusal :=
  next (alu3 c p dd da db 5 bitDeposit s)

end Sys2Proof.Machine
end

