-- ==== Sys2Proof/Machine/Mgmt.lean ====
section
/-! DEFINITION. The management protocol: sessions, requests and their answers, heartbeats, attestation, firmware update, and the
resets that a request asks for (17 R414 to R421; 02 R69; 14 R354; 18 R429). Statuses that the spec does not attach to a
refusal are those of log entry 50. -/

namespace Sys2Proof.Machine

/-! ## Datagrams (17 R414) -/

/-- A number in `n` bytes, most significant first. -/
def beBytes (n x : Nat) : List Byte := (leBytes n x).reverse

/-- HMAC-SHA-256 with a key of at most 64 bytes. -/
def hmacSha256 (key msg : List Byte) : List Byte :=
  let k := fitTo 0 64 key
  sha256 (k.map (· ^^^ 0x5C) ++ sha256 (k.map (· ^^^ 0x36) ++ msg))

/-- The tag of a message of the module: its key is the second of the session's two. -/
def tagOf (keys msg : List Byte) : List Byte := hmacSha256 (keys.drop 32) msg

/-- HKDF-SHA-256 (RFC 5869) for two output blocks, with an empty info field (log entry 50). -/
def hkdfSha256 (salt ikm : List Byte) : List Byte :=
  let prk := hmacSha256 salt ikm
  let t1 := hmacSha256 prk [1]
  t1 ++ hmacSha256 prk (t1 ++ [2])

/-- The computations of 17 that standards define and the spec names by reference, by number in `Config.crypto`. A signature takes
the key pair that signs; a shared secret, what the client and the module put into it. -/
def signEd (key b : List Byte) : List Byte := fitTo 0 64 (Config.crypto 2 (key ++ b))
def signMl (key b : List Byte) : List Byte := fitTo 0 3309 (Config.crypto 3 (key ++ b))
def moduleNonce (b : List Byte) : List Byte := fitTo 0 32 (Config.crypto 4 b)
def moduleX25519 (b : List Byte) : List Byte := fitTo 0 32 (Config.crypto 5 b)
def kemCiphertext (b : List Byte) : List Byte := fitTo 0 1088 (Config.crypto 6 b)
def sharedX25519 (b : List Byte) : List Byte := fitTo 0 32 (Config.crypto 7 b)
def sharedKem (b : List Byte) : List Byte := fitTo 0 32 (Config.crypto 9 b)
def certChains (attest : List Byte) : List Byte := Config.crypto 8 (Config.identityKeys ++ attest)

/-- The session keys, one per direction: the key material is the X25519 and then the ML-KEM-768 shared secret, the salt the nonce of
the client and then that of the module (R416). -/
def sessionKeys (seed clientNonce : List Byte) : List Byte :=
  hkdfSha256 (clientNonce ++ moduleNonce seed) (sharedX25519 seed ++ sharedKem seed)

/-- The header of a datagram. -/
def vmpHeader (type flags status len sid mseq echo : Nat) : List Byte :=
  beBytes 2 0x564D ++ beBytes 1 1 ++ beBytes 1 type ++ beBytes 1 flags ++ beBytes 1 status ++ beBytes 2 len ++ beBytes 8 sid
    ++ beBytes 8 mseq ++ beBytes 8 echo

/-- The header and payload of a datagram that arrives. -/
def vmpBytes (rq : VmpReq) : List Byte :=
  beBytes 2 rq.magic.toNat ++ beBytes 1 rq.ver.toNat ++ beBytes 1 rq.mtype.toNat ++ beBytes 1 rq.flags.toNat ++ beBytes 1 rq.status.toNat
    ++ beBytes 2 rq.plen.toNat ++ beBytes 8 rq.sid ++ beBytes 8 rq.mseq ++ beBytes 8 rq.echo ++ rq.payload

/-- Whether a datagram is one of the protocol and its tag verifies under the client's key, the first of the session's two; one
with another `VMAGIC` or `VVER` is dropped too (R414, R416; log entry 50). -/
def vmpAuthentic (rq : VmpReq) (keys : List Byte) : Bool :=
  decide (rq.magic = 0x564D) && decide (rq.ver = 1) && decide (rq.tag = hmacSha256 (keys.take 32) (vmpBytes rq))

/-- Whether a request answers BAD whatever it asks: a type that is not the listed one, a bit or field that a request has 0, a bad
length (R415). -/
def vmpMalformed (rq : VmpReq) (type : Nat) : Bool :=
  decide (rq.mtype.toNat ≠ type) || decide (rq.flags ≠ 0) || decide (rq.status ≠ 0) || decide (1344 < rq.payload.length)
    || decide (rq.plen.toNat ≠ rq.payload.length)

/-- The request without the time of its execution: what a retransmission repeats. -/
def vmpSent (rq : VmpReq) : VmpReq := { rq with late := false }

/-- Cut a payload into parts of at most 1,344 bytes. -/
def payloadParts : Nat → List Byte → List (List Byte)
  | 0, l => [l]
  | fuel + 1, l => if l.length ≤ 1344 then [l] else l.take 1344 :: payloadParts fuel (l.drop 1344)

/-- The datagrams of a message: a payload of more than one part carries the offset of each part in `ECHO`. -/
def datagrams (keys : Option (List Byte)) (type flags status sid mseq echo : Nat) (data : List Byte) : List (List Byte) :=
  let parts := payloadParts (data.length / 1344) data
  let n := parts.length
  parts.zipIdx.map (fun (x : List Byte × Nat) =>
    let f := flags + (if x.2 + 1 < n then 4 else 0)
    let m := vmpHeader type f status x.1.length sid (mseq + x.2) (if n = 1 then echo else 1344 * x.2) ++ x.1
    match keys with
    | some k => m ++ tagOf k m
    | none => m)

def State.emitVmp (s : State) (l : List (List Byte)) : State := { s with out := s.out ++ l.map Output.vmp }

/-! ## Sessions (17 R416) -/

/-- The management port is open: management firmware runs, or the ROM is in control (18 R427, R428). -/
def State.mgmtUp (s : State) : Bool := s.powered 0 && (s.mgmt.fwMgmt.running.isSome || s.mgmt.rom)

def State.session (s : State) (sid : Nat) : Option Session := s.mgmt.sessions.find? (fun x => decide (x.sid = sid))

def State.modSession (s : State) (sid : Nat) (f : Session → Session) : State :=
  { s with mgmt := { s.mgmt with sessions := s.mgmt.sessions.map (fun x => if x.sid = sid then f x else x) } }

/-- End the sessions that a test names. -/
def State.endSessions (s : State) (p : Session → Bool) : State :=
  { s with mgmt := { s.mgmt with sessions := s.mgmt.sessions.filter (fun x => !p x) } }

/-- A message is dropped and counted. -/
def State.dropMsg (s : State) : State := { s with mgmt := { s.mgmt with dropped := s.mgmt.dropped + 1 } }

/-- Send a message of a session. -/
def State.sendVmp (s : State) (x : Session) (type flags status echo : Nat) (data : List Byte) : State × List (List Byte) :=
  let l := datagrams (some x.keys) type flags status x.sid (x.sent + 1) echo data
  ((s.modSession x.sid (fun y => { y with sent := y.sent + l.length })).emitVmp l, l)

/-- Keep what a request was answered with, in place of an ACK. -/
def State.keepAnswer (s : State) (rq : VmpReq) (l : List (List Byte)) : State :=
  s.modSession rq.sid (fun y => { y with cache := y.cache.filter (fun c => decide (c.1 ≠ vmpSent rq)) ++ [(vmpSent rq, l)] })

/-- Answer a request and keep the answer for its retransmissions. -/
def State.answer (s : State) (x : Session) (rq : VmpReq) (status : Nat) (data : List Byte) : State :=
  let (s1, l) := s.sendVmp x rq.mtype.toNat 1 status rq.mseq data
  s1.keepAnswer rq l

/-- Acknowledge a request that executes later (R417). -/
def State.ack (s : State) (x : Session) (rq : VmpReq) : State :=
  let (s1, l) := s.sendVmp x 0x04 3 0 rq.mseq []
  s1.keepAnswer rq l

/-- What a request came to: the state, the status and the payload of the answer. -/
structure Answer where
  st : State
  status : Nat
  data : List Byte

def Answer.ok (s : State) (data : List Byte) : Answer := { st := s, status := 0, data := data }
def Answer.no (s : State) (status : Nat) : Answer := { st := s, status := status, data := [] }

/-- The statuses of R414. -/
def vmpBusy : Nat := 1
def vmpBad : Nat := 2
def vmpDenied : Nat := 3
def vmpUnavailable : Nat := 4
def vmpVerifyFail : Nat := 5
def vmpNotHeld : Nat := 6
def vmpFailed : Nat := 7

/-- The types an OBSERVER session may use (R415). -/
def observerTypes : List Nat := [0x03, 0x10, 0x11, 0x21, 0x30, 0x38, 0x50, 0x51, 0x60]

/-- The types the ROM answers while no management firmware verifies (18 R428). -/
def romTypes : List Nat := [0x01, 0x51, 0x10, 0x48, 0x49]

/-- The types a fail-stopped module answers (18 R437), with REPAIR, which outside a hold answers NOTHELD (R418); in a test hold also
TEST_RELEASE. -/
def failStopTypes (held : Bool) : List Nat := [0x03, 0x10, 0x11, 0x30, 0x38, 0x40, 0x42, 0x51, 0x58] ++ (if held then [0x41] else [])

/-- Execute a request of a session, answer it, and do what follows its answer (R415, R437). -/
def State.perform (s : State) (type : Nat) (rq : VmpReq) (x : Session) (body : Session → State → Answer) (after : Session → State → State) : State :=
  if s.power.failStop.isSome ∧ !(failStopTypes s.mgmt.testHold).contains type then s.answer x rq vmpUnavailable []
  else
    let a := body x s
    let s2 := a.st.answer x rq a.status a.data
    if a.status = 0 then after x s2 else s2

/-- The requests of a session that wait in the slow queue. -/
def State.outstanding (s : State) (sid : Nat) : Nat := (s.mgmt.slow.filter (fun q => decide (q.1 = sid))).length

/-- Put a request into the slow queue. -/
def State.queueSlow (s : State) (sid : Nat) (op : SlowOp) : State := { s with mgmt := { s.mgmt with slow := s.mgmt.slow ++ [(sid, op)] } }

/-- A request that is new to its session (R415 to R417): BAD, BUSY where 8 requests of the session are outstanding, else
executed or, where `self` says that it is one of the slow queue and that is not empty or the controller takes its time, acknowledged and
put there (log entry 50). -/
def State.takeRequest (s : State) (type : Nat) (rq : VmpReq) (self : Option SlowOp) (x : Session) (body : Session → State → Answer)
    (after : Session → State → State) : State :=
  let s1 := s.modSession rq.sid (fun y => { y with lastSeq := rq.mseq })
  if vmpMalformed rq type ∨ (x.role ≠ 0 ∧ !observerTypes.contains type) then s1.answer x rq vmpBad []
  else if 8 ≤ s.outstanding rq.sid then s1.answer x rq vmpBusy []
  else match self with
    | some op => if s.mgmt.slow = [] ∧ !rq.late then s1.perform type rq x body after else (s1.ack x rq).queueSlow rq.sid op
    | none => s1.perform type rq x body after

/-- The controller goes on from a request that the slow queue has handed on. -/
def State.unresumed (s : State) : State := { s with mgmt := { s.mgmt with resumed := false } }

/-- A request of a session: dropped and counted where it is none of the protocol's, its tag fails or its `MSEQ` has passed; answered
from the cache where it repeats one; else taken (R415 to R417). One that comes from the slow queue is executed, if its session is
still open. -/
def State.vmp (s0 : State) (type : Nat) (rq : VmpReq) (self : Option SlowOp) (body : Session → State → Answer) (after : Session → State → State) : State :=
  let s := s0.unresumed
  if !s.mgmtUp ∨ (s.mgmt.rom ∧ !romTypes.contains type) then s
  else match s.session rq.sid with
  | none => if s0.mgmt.resumed then s else s.dropMsg
  | some x =>
    if s0.mgmt.resumed then s.perform type rq x body after
    else if !vmpAuthentic rq x.keys then s.dropMsg
    else match x.cache.find? (fun r => decide (r.1 = vmpSent rq)) with
    | some r => s.emitVmp r.2
    | none => if rq.mseq ≤ x.lastSeq then s.dropMsg else s.takeRequest type rq self x body after

/-- A request whose answer nothing follows. -/
def State.vmpPlain (s : State) (type : Nat) (rq : VmpReq) (self : Option SlowOp) (body : State → Answer) : State :=
  s.vmp type rq self (fun _ s => body s) (fun _ s => s)

/-- The key slots that hold a key. -/
def State.anyMgmtKey (s : State) : Bool := s.mgmt.keys.any (fun x => x.2.set)

/-- Bytes of SESSION_INIT before the signatures, without and with the client's own public keys. -/
def initLength : Nat := 32 + 32 + 1184
def claimLength : Nat := initLength + 32 + 1952

/-- Set up a session for a slot: the module's half of the exchange goes out in SESSION_ACCEPT, signed by both attestation keys. -/
def State.accept (s : State) (slot : Nat) (role : Byte) (init : List Byte) : State :=
  let seed := leBytes 8 s.fresh ++ init
  let sid := (Config.freeWord s.fresh).toNat
  let payload := beBytes 8 sid ++ moduleNonce seed ++ moduleX25519 seed ++ kemCiphertext seed
  let data := payload ++ signEd s.mgmt.attest (init ++ payload) ++ signMl s.mgmt.attest (init ++ payload)
  let l := datagrams none 0x02 1 0 sid 1 1 data
  let x : Session :=
    { sid := sid, slot := slot, role := role, lastSeq := 1, subscribed := false, keys := sessionKeys seed ((init.drop 1).take 32)
      sent := l.length, init := (init, l), cache := [] }
  ({ s.bump with mgmt := { s.mgmt with sessions := s.mgmt.sessions ++ [x] } }).emitVmp l

/-- Refuse a session. -/
def State.refuseInit (s : State) (status : Nat) : State := s.emitVmp (datagrams none 0x01 1 status 0 1 1 [])

/-- What a SESSION_INIT comes to: `init` is its payload and signatures. -/
def State.openSession (s : State) (claim : Bool) (slot : Nat) (msg sig1 sig2 : List Byte) : State :=
  let own := decide (msg.length = claimLength)
  let signed := beBytes 1 slot ++ msg
  let init := signed ++ sig1 ++ sig2
  let key := mget MgmtKey.reset s.mgmt.keys slot
  let ed := if own then (msg.drop initLength).take 32 else key.ed
  let ml := if own then msg.drop (initLength + 32) else key.ml
  let good := Config.ed25519Verify ed signed sig1 && Config.mlDsaVerify ml signed sig2
  if 3 < slot ∨ (!own ∧ msg.length ≠ initLength) ∨ sig1.length ≠ 64 ∨ sig2.length ≠ 3309 then s.refuseInit vmpBad
  else if 4 ≤ s.mgmt.sessions.length then s.refuseInit vmpBusy
  else if own then
    if s.anyMgmtKey ∨ !claim then s.refuseInit vmpDenied
    else if !good then s.refuseInit vmpVerifyFail
    else ({ s with mgmt := { s.mgmt with keys := mset MgmtKey.reset s.mgmt.keys 0 { ed := ed, ml := ml, role := 0, set := true } } }).accept 0 0 init
  else if !key.set ∨ !good then s.refuseInit vmpVerifyFail
  else s.accept slot key.role init

/-- `SESSION_INIT` (R416): one that repeats, byte for byte, the one that opened a session still open is answered as that was, and
opens none. It is a request of the slow queue, of no session. -/
def execSessionInit (claim : Bool) (slot : Nat) (msg sig1 sig2 : List Byte) (s0 : State) : Host.Outcome State Fault Refusal :=
  let s := s0.unresumed
  next (if !s.mgmtUp then s
    else match s.mgmt.sessions.find? (fun x => decide (x.init.1 = beBytes 1 slot ++ msg ++ sig1 ++ sig2)) with
    | some x => s.emitVmp x.init.2
    | none =>
      if s0.mgmt.resumed ∨ s.mgmt.slow = [] then s.openSession claim slot msg sig1 sig2
      else (s.emitVmp (datagrams none 0x04 3 0 0 1 1 [])).queueSlow 0 (.sessionInit claim slot msg sig1 sig2))

/-- `SESSION_CLOSE` (R415): answered, then the session ends. -/
def execSessionClose (rq : VmpReq) (s : State) : Host.Outcome State Fault Refusal :=
  next (s.vmp 0x03 rq (some (.sessionClose rq)) (fun _ s => .ok s []) (fun x s => s.endSessions (fun y => decide (y.sid = x.sid))))

/-- `SESSION_IDLE_TIMEOUT` (R416): 60 s without a request; a subscribed session stays. -/
def execSessionIdleTimeout (sid : Nat) (s : State) : Host.Outcome State Fault Refusal :=
  next (s.endSessions (fun x => decide (x.sid = sid) && !x.subscribed))

/-! ## Heartbeats and status (17 R419) -/

/-- The state byte of a heartbeat. -/
def State.beatState (s : State) : Nat :=
  if s.power.failStop.isSome then 6
  else if s.mgmt.testHold then 4
  else if s.tether.stopped then 5
  else if s.power.step < 5 then 0
  else if s.image.noActive then 1
  else if s.image.hold then 3
  else 2

/-- Records not yet collected (18 R433). -/
def State.uncollected (s : State) : Nat := ((countFrom 0 9).map (fun i => (s.mcq i).slots.length)).sum + s.fatalNew

/-- The heartbeat payload; the counter must have been sampled. -/
def State.beatPayload (s : State) : List Byte :=
  let cds := (countFrom 0 4).map (fun i => s.cdPwr (Fin.ofNat 4 i))
  beBytes 8 (devid 0) ++ beBytes 4 s.moduleId ++ beBytes 4 s.power.startUps ++ beBytes 4 (s.power.counter.toNat / 25000000)
    ++ beBytes 1 s.beatState ++ beBytes 1 ((cds.map (·.pstate.toNat)).zipIdx.map (fun (x : Nat × Nat) => x.1 * 4 ^ x.2)).sum
    ++ beBytes 1 ((s.dram.map (fun x => x.2.temp.toNat)).foldl max 0) ++ beBytes 1 ((cds.map (·.jtemp.toNat)).foldl max 0)
    ++ beBytes 8 s.sistat ++ beBytes 8 s.snapstat ++ beBytes 8 s.snapcommit ++ beBytes 8 s.tstat
    ++ beBytes 4 s.uncollected ++ beBytes 4 s.mgmt.heartbeats.toNat

/-- `READ_STATUS` (R415; 18 R433): block 00h the heartbeat payload, 01h the fatal log. -/
def execReadStatus (rq : VmpReq) (block : Byte) (s : State) : Host.Outcome State Fault Refusal :=
  next (s.vmpPlain 0x10 rq none (fun s =>
    if block = 0 then .ok s.sampleCounter s.sampleCounter.beatPayload
    else if block = 1 then .ok { s with fatalNew := 0 } (s.fatalLog.flatMap (fun r => (countFrom 0 8).flatMap (fun i => beBytes 8 (r.word i))))
    else .no s vmpBad))

/-- `SUBSCRIBE` (R419): two sessions at most. -/
def execSubscribe (rq : VmpReq) (s : State) : Host.Outcome State Fault Refusal :=
  next (s.vmp 0x60 rq (some (.subscribe rq)) (fun x s =>
    if !x.subscribed ∧ 2 ≤ (s.mgmt.sessions.filter (fun y => y.subscribed)).length then .no s vmpDenied
    else .ok (s.modSession x.sid (fun y => { y with subscribed := true })) []) (fun _ s => s))

/-- `MGMT_HEARTBEAT_TIMER` (R419): every 10 ms, to each collector. -/
def execMgmtHeartbeatTimer (s : State) : Host.Outcome State Fault Refusal :=
  if !s.mgmtUp then next s
  else
    let s0 := s.sampleCounter
    let s1 := { s0 with mgmt := { s0.mgmt with heartbeats := s0.mgmt.heartbeats + 1 } }
    next ((s1.mgmt.sessions.filter (fun x => x.subscribed)).foldl (fun (s : State) x => (s.sendVmp x 0x61 0 0 0 s1.beatPayload).1) s1)

/-! ## Registers, images, keys and the calibration store (17 R415) -/

/-- A register access that management may make: the status that refuses it, or none. -/
def State.mgmtAccess (s : State) (a size : Nat) : Option Nat :=
  if s.power.failStop.isSome then some vmpUnavailable
  else if size ≠ 4 ∧ size ≠ 8 then some vmpBad
  else if !(s.kindAt a).registerWindow ∨ s.kindAt a = .ecam then some vmpFailed
  else if !s.windowUp a then some vmpUnavailable
  else if !s.busOk a size then some vmpFailed
  else none

/-- Whether an address is one of the management address block, which the always-on domain holds: its registers are the model's, and
read back what was written (R414; log entry 50). -/
def State.inMgmtBlock (s : State) (a size : Nat) : Bool :=
  (s.regOf a).isNone && Config.mgmtBlock a && (decide (size = 4) || decide (size = 8)) && s.power.failStop.isNone

/-- `READ_REG` (R415, R417). -/
def execReadReg (rq : VmpReq) (addr : BitVec 52) (size : Nat) (s : State) : Host.Outcome State Fault Refusal :=
  next (s.vmpPlain 0x11 rq none (fun s =>
    if s.inMgmtBlock addr.toNat size then .ok s (fitTo 0 size (mget [] s.mgmt.net addr.toNat)).reverse
    else match s.mgmtAccess addr.toNat size with
    | some n => .no s n
    | none => let (b, s1) := s.regRead addr.toNat size
              .ok s1 b.reverse))

/-- `WRITE_REG` (R415): 01 R24 applies; a write into the management address block sets the module's static addresses (R414). -/
def execWriteReg (rq : VmpReq) (addr : BitVec 52) (data : List Byte) (s : State) : Host.Outcome State Fault Refusal :=
  next (s.vmpPlain 0x12 rq (some (.writeReg rq addr data)) (fun s =>
    if s.inMgmtBlock addr.toNat data.length then .ok { s with mgmt := { s.mgmt with net := mset [] s.mgmt.net addr.toNat data } } []
    else match s.mgmtAccess addr.toNat data.length with
    | some n => .no s n
    | none => .ok (s.regWrite none addr.toNat data) []))

/-- `IMAGE_WRITE` (R415; 02 R59, R60): BUSY where SHADOW takes no write. -/
def execImageWrite (rq : VmpReq) (offset : Nat) (data : List Byte) (s : State) : Host.Outcome State Fault Refusal :=
  next (s.vmpPlain 0x20 rq (some (.imageWrite rq offset data)) (fun s =>
    if slotSize < offset + data.length ∨ 1344 < data.length then .no s vmpBad
    else match s.image.write true offset data with
    | some i => .ok { s with image := i } []
    | none => .no s vmpBusy))

/-- `IMAGE_READ` (R415; 02 R59). -/
def execImageRead (rq : VmpReq) (shadow : Bool) (offset size : Nat) (s : State) : Host.Outcome State Fault Refusal :=
  next (s.vmpPlain 0x21 rq none (fun s =>
    if slotSize < offset + size ∨ 1344 < size then .no s vmpBad
    else .ok s (fitTo 0xFF size (((if shadow then s.image.shadow else s.image.active).drop offset).take size))))

/-- `IMAGE_CTL` (R415): one action bit of `SICTL`. -/
def execImageCtl (rq : VmpReq) (action : Byte) (s : State) : Host.Outcome State Fault Refusal :=
  next (s.vmpPlain 0x22 rq (some (.imageCtl rq action)) (fun s =>
    match action.toNat with
    | 1 => .ok { s with image := s.image.validate } []
    | 2 => .ok { s with image := s.image.arm } []
    | 4 => .ok { s with image := s.image.disarm } []
    | 8 => .ok { s with image := s.image.clear } []
    | _ => .no s vmpBad))

/-- `KEYSLOT_SET` (R415; 02 R42). -/
def execKeyslotSet (rq : VmpReq) (slot : Nat) (ed ml : List Byte) (s : State) : Host.Outcome State Fault Refusal :=
  next (s.vmpPlain 0x23 rq (some (.keyslotSet rq slot ed ml)) (fun s =>
    if 3 < slot ∨ ed.length ≠ 32 ∨ ml.length ≠ 1952 then .no s vmpBad
    else .ok { s with image := { s.image with keys := mset ([], []) s.image.keys slot (ed, ml) } } []))

/-- `MGMTKEY_SET` (R415, R416): the sessions of the slot end after the answer. -/
def execMgmtkeySet (rq : VmpReq) (slot : Nat) (role : Byte) (ed ml : List Byte) (s : State) : Host.Outcome State Fault Refusal :=
  next (s.vmp 0x24 rq (some (.mgmtkeySet rq slot role ed ml)) (fun _ s =>
    if 3 < slot ∨ 1 < role.toNat ∨ ed.length ≠ 32 ∨ ml.length ≠ 1952 then .no s vmpBad
    else .ok { s with mgmt := { s.mgmt with keys := mset MgmtKey.reset s.mgmt.keys slot { ed := ed, ml := ml, role := role, set := true } } } [])
    (fun _ s => s.endSessions (fun y => decide (y.slot = slot))))

/-- `CAL_READ` (R415): an entry, or the whole set with its directory entries. -/
def execCalRead (rq : VmpReq) (entry : Option (BitVec 16 × BitVec 16)) (s : State) : Host.Outcome State Fault Refusal :=
  next (s.vmpPlain 0x30 rq none (fun s => match entry with
    | some (t, i) => match s.calib.find t.toNat i.toNat with
      | some e => .ok s (s.calib.dataOf e)
      | none => .no s vmpFailed
    | none => .ok s (s.calib.entries.flatMap (fun e => e.bytes ++ s.calib.dataOf e))))

/-- `CAL_WRITE` (02 R69): the entry is overwritten, and takes effect at the next start-up. -/
def execCalWrite (rq : VmpReq) (type inst : BitVec 16) (stamp : Word) (data : List Byte) (s : State) : Host.Outcome State Fault Refusal :=
  next (s.vmpPlain 0x31 rq (some (.calWrite rq type inst stamp data)) (fun s =>
    let old := s.calib.find type.toNat inst.toNat
    match s.calib.put type.toNat inst.toNat 1 ((old.map (·.writes)).getD 0 + 1) stamp.toNat data with
    | none => .no s vmpFailed
    | some c => .ok { s with calib := c } []))

/-- `CABINET_READ` (R415; 16 R399): the newest complete record of an epoch. -/
def execCabinetRead (rq : VmpReq) (epoch : BitVec 32) (offset size : Nat) (s : State) : Host.Outcome State Fault Refusal :=
  next (s.vmpPlain 0x38 rq none (fun s =>
    if 1344 < size then .no s vmpBad
    else if !s.powered 1 then .no s vmpUnavailable
    else match s.snap.cabinet.reverse.find? (fun r => r.complete && decide (r.epoch = epoch)) with
    | some r => if r.data.length < offset + size then .no s vmpBad else .ok s ((r.data.drop offset).take size)
    | none => .no s vmpFailed))

/-! ## Test hold, repair and resets (17 R418; 14 R349, R354; 18 R429) -/

/-- `TEST_HOLD` (R418). -/
def execTestHold (rq : VmpReq) (s : State) : Host.Outcome State Fault Refusal :=
  next (s.vmpPlain 0x40 rq (some (.testHold rq)) (fun s =>
    if s.quiescent ∨ s.image.noActive ∨ s.power.failStop.isSome then
      .ok ({ s with mgmt := { s.mgmt with testHold := true } }.setMaint true) []
    else .no s vmpDenied))

/-- `TEST_RELEASE` (R418): answered, then the module starts again from the calibration load. -/
def execTestRelease (rq : VmpReq) (s : State) : Host.Outcome State Fault Refusal :=
  next (s.vmp 0x41 rq (some (.testRelease rq)) (fun _ s =>
    if !s.mgmt.testHold then .no s vmpNotHeld
    else if s.power.failStop = some 0x15 then .no s vmpDenied
    else .ok s []) (fun _ s => s.moduleReset))

/-- The block and the stack or channel of a sensor's stack or tier 2 module. -/
def sensorPlace : MemSensor → MemBlockId × Nat
  | .stack d st => (.mb d, st.val)
  | .module c => (.hd, c.val)

/-- A memory BIST: every byte of the tested stack or tier 2 module is replaced by a free value (14 R354). -/
def State.bist (s : State) (t : MemSensor) : State :=
  let (b, st) := sensorPlace t
  let hit := (countFrom 0 (blockTiles b)).filter (fun i => decide (tileStack b (s.dramPlace b i) = st))
  { s.bump with mem := hit.foldl (fun m i =>
      memWrites m (s.tileAddr b i) ((countFrom (s.tileAddr b i) 4096).map (Config.freeByte s.fresh))) s.mem }

/-- The state of a spare of a bank: 0 free, 1 in use, 2 bad (14 R343). -/
def StackState.spareState (x : StackState) (bank i : Nat) : Nat :=
  if x.badSpares.contains (bank * 8 + i) then 2
  else b2n (x.cam.any (fun e => decide (rowBank e.1 = bank) && decide (e.2 = i)))

/-- What a REPAIR does to a stack with a CAM: the new state and its answer; none: the resource is not there, as a CAM or a
spare row in tier 2 (14 R331). The forms of the accesses are the model's (log entry 61). -/
def State.repairStack (s : State) (t : MemSensor) (op : StackState → State × List Byte) : Option (State × List Byte) :=
  match t with
  | .stack _ _ => some (op (s.stack (sensorKey t)))
  | .module _ => none

/-- The effect of a REPAIR message in a test hold, with its answer (14 R354). -/
def State.repairWith (s : State) : RepairOp → Option (State × List Byte)
  | .readCam t row => s.repairStack t (fun x => (s, match x.spareOf row with
      | some i => beBytes 1 (8 + i)
      | none => beBytes 1 0))
  | .writeCam t row spare => s.repairStack t (fun x =>
      (s.setStack (sensorKey t) { x with cam := mset 8 x.cam row ((spare.map (·.val)).getD 8) }, []))
  | .readSpare t bank i => s.repairStack t (fun x => (s, beBytes 1 (x.spareState bank i.val)))
  | .markSpare t bank i bad => s.repairStack t (fun x => (s.setStack (sensorKey t) { x with
      badSpares := if bad then addNew (bank * 8 + i.val) x.badSpares else without (bank * 8 + i.val) x.badSpares }, []))
  | .readColumn t i => some (s, beBytes 8 (mget 0 (s.stack (sensorKey t)).columns i).toNat)
  | .writeColumn t i v =>
    let x := s.stack (sensorKey t)
    some (s.setStack (sensorKey t) { x with columns := mset 0 x.columns i v }, [])
  | .readFuse t i => some (s, beBytes 8 (mget 0 s.fuses (sensorKey t * 2 ^ 32 + i % 2 ^ 32)).toNat)
  | .writeFuse t i v => some ({ s with fuses := mset 0 s.fuses (sensorKey t * 2 ^ 32 + i % 2 ^ 32) v }, [])
  | .bist t => some (s.bist t, [])

/-- `REPAIR` (R418; 14 R354). -/
def execRepair (rq : VmpReq) (op : RepairOp) (s : State) : Host.Outcome State Fault Refusal :=
  next (s.vmpPlain 0x42 rq (some (.repair rq op)) (fun s =>
    if !s.mgmt.testHold then .no s vmpNotHeld
    else match s.repairWith op with
    | some (s1, ans) => .ok s1 ans
    | none => .no s vmpBad))

/-- `PPR_COMMIT` (R415; 14 R349): repair at the next start-up, for MB d or, as 4, the tier 2 rows. -/
def execPprCommit (rq : VmpReq) (die : Nat) (s : State) : Host.Outcome State Fault Refusal :=
  next (s.vmpPlain 0x43 rq (some (.pprCommit rq die)) (fun s =>
    if 4 < die then .no s vmpBad else .ok { s with mgmt := { s.mgmt with ppr := addNew die s.mgmt.ppr } } []))

/-- A RESET of kind 02h: while quiescent, in test hold, or with `NOACTIVE` = 1 (18 R429). -/
def State.askHostReset (s : State) : Answer :=
  if s.power.failStop.isNone ∧ 3 ≤ s.power.step ∧ (s.quiescent ∨ s.mgmt.testHold ∨ s.image.noActive) then .ok s [] else .no s vmpDenied

/-- A RESET by its kind byte: one that names no reset is BAD; a thermal-critical fail-stop is not left by a module reset
(18 R429, R434). -/
def State.askReset (s : State) (kind : Byte) : Answer :=
  if kind = 1 then (if s.power.failStop = some 0x15 then .no s vmpDenied else .ok s [])
  else if kind = 2 then s.askHostReset
  else .no s vmpBad

/-- `MODULE_RESET` (18 R429). -/
def execModuleReset (rq : VmpReq) (kind : Byte) (s : State) : Host.Outcome State Fault Refusal :=
  next (s.vmp 0x58 rq (some (.moduleReset rq kind)) (fun _ s => s.askReset kind) (fun _ s => if kind = 2 then s.hostReset else s.moduleReset))

/-- `HOST_RESET` (18 R429). -/
def execHostReset (rq : VmpReq) (s : State) : Host.Outcome State Fault Refusal :=
  next (s.vmp 0x58 rq (some (.hostReset rq)) (fun _ s => s.askHostReset) (fun _ s => s.hostReset))

/-! ## Firmware and attestation (17 R420, R421) -/

def State.firmware (s : State) (host : Bool) : Firmware := if host then s.mgmt.fwHost else s.mgmt.fwMgmt

def State.setFirmware (s : State) (host : Bool) (f : Firmware) : State :=
  { s with mgmt := if host then { s.mgmt with fwHost := f } else { s.mgmt with fwMgmt := f } }

/-- The inactive slot: the one that does not run; where none runs, the one not preferred. -/
def Firmware.inactive (f : Firmware) : Bool :=
  match f.running with
  | some b => !b
  | none => !f.preferB

def Firmware.stage (f : Firmware) (offset : Nat) (data : List Byte) : Firmware :=
  if f.inactive then { f with slotB := slotWrite f.slotB offset data } else { f with slotA := slotWrite f.slotA offset data }

/-- `FW_STAGE` (R421). -/
def execFwStage (rq : VmpReq) (host : Bool) (offset : Nat) (data : List Byte) (s : State) : Host.Outcome State Fault Refusal :=
  next (s.vmpPlain 0x48 rq (some (.fwStage rq host offset data)) (fun s =>
    if 1344 < data.length then .no s vmpBad else .ok (s.setFirmware host ((s.firmware host).stage offset data)) []))

/-- `FW_ACTIVATE` (R421): the staged slot verifies and becomes preferred. -/
def execFwActivate (rq : VmpReq) (host : Bool) (s : State) : Host.Outcome State Fault Refusal :=
  next (s.vmpPlain 0x49 rq (some (.fwActivate rq host)) (fun s =>
    let f := s.firmware host
    if f.okSlot s.mgmt.floor f.inactive then .ok (s.setFirmware host { f with preferB := f.inactive }) [] else .no s vmpVerifyFail))

/-- `FW_COMMIT` (R421): the one fused floor rises to the version that runs. -/
def execFwCommit (rq : VmpReq) (host : Bool) (s : State) : Host.Outcome State Fault Refusal :=
  next (s.vmpPlain 0x49 rq (some (.fwCommit rq host)) (fun s =>
    let f := s.firmware host
    match f.running with
    | some b => .ok { s with mgmt := { s.mgmt with floor := max s.mgmt.floor (Config.fwVersion (f.slot b)) } } []
    | none => .no s vmpFailed))

/-- The firmware that runs, empty where none does. -/
def Firmware.image (f : Firmware) : List Byte := (f.running.map f.slot).getD []

/-- The attestation report (R420). -/
def State.attestReport (s : State) (nonce : List Byte) : List Byte :=
  let keys := (countFrom 0 4).flatMap (fun i => let k := mget ([], []) s.image.keys i
                                                k.1 ++ k.2)
    ++ (countFrom 0 4).flatMap (fun i => let k := mget MgmtKey.reset s.mgmt.keys i
                                         k.ed ++ k.ml ++ [k.role])
  let m := s.mgmt.fwMgmt
  let h := s.mgmt.fwHost
  let body := ([0x46, 0x58, 0x41, 0x52] : List Byte) ++ beBytes 2 1 ++ beBytes 2 0x0E08 ++ beBytes 8 (devid 0) ++ fitTo 0 16 s.calib.serial
    ++ beBytes 4 s.moduleId ++ beBytes 4 s.power.startUps ++ nonce ++ sha256 m.image ++ sha256 h.image
    ++ fitTo 0 16 ((s.image.active.drop 16).take 16) ++ beBytes 8 (slotGen s.image.active) ++ beBytes 8 (slotGen s.image.shadow)
    ++ sha256 keys ++ beBytes 4 s.calib.seq
    ++ beBytes 4 (Config.fwVersion m.image) ++ beBytes 4 (Config.fwVersion h.image) ++ beBytes 4 s.mgmt.floor
  body ++ signEd s.mgmt.attest body ++ signMl s.mgmt.attest body ++ beBytes 3 0

/-- `ATTEST` (R420). -/
def execAttest (rq : VmpReq) (nonce : List Byte) (s : State) : Host.Outcome State Fault Refusal :=
  next (s.vmpPlain 0x50 rq (some (.attest rq nonce)) (fun s => if nonce.length ≠ 32 then .no s vmpBad else .ok s (s.attestReport nonce)))

/-- `IDENTITY` (R420): both certificate chains, over the attestation keys of this start-up. -/
def execIdentity (rq : VmpReq) (s : State) : Host.Outcome State Fault Refusal :=
  next (s.vmpPlain 0x51 rq (some (.identity rq)) (fun s => .ok s (certChains s.mgmt.attest)))

/-! ## The slow queue (17 R417) -/

/-- The request at the head of the slow queue is executed. -/
def State.runSlow (op : SlowOp) (s : State) : Host.Outcome State Fault Refusal :=
  match op with
  | .sessionInit claim slot msg sig1 sig2 => execSessionInit claim slot msg sig1 sig2 s
  | .sessionClose rq => execSessionClose rq s
  | .subscribe rq => execSubscribe rq s
  | .writeReg rq addr data => execWriteReg rq addr data s
  | .imageWrite rq offset data => execImageWrite rq offset data s
  | .imageCtl rq action => execImageCtl rq action s
  | .keyslotSet rq slot ed ml => execKeyslotSet rq slot ed ml s
  | .mgmtkeySet rq slot role ed ml => execMgmtkeySet rq slot role ed ml s
  | .calWrite rq type inst stamp data => execCalWrite rq type inst stamp data s
  | .testHold rq => execTestHold rq s
  | .testRelease rq => execTestRelease rq s
  | .repair rq op => execRepair rq op s
  | .pprCommit rq die => execPprCommit rq die s
  | .moduleReset rq kind => execModuleReset rq kind s
  | .hostReset rq => execHostReset rq s
  | .fwStage rq host offset data => execFwStage rq host offset data s
  | .fwActivate rq host => execFwActivate rq host s
  | .fwCommit rq host => execFwCommit rq host s
  | .attest rq nonce => execAttest rq nonce s
  | .identity rq => execIdentity rq s

end Sys2Proof.Machine
end

