-- ==== Sys2Proof/Machine/Dispatch.lean ====
section
/-! DEFINITION. One arm per command: each calls the meaning of its row. -/

namespace Sys2Proof.Machine

/-- The effect of a command on everything but the queue. -/
def exec (i : Instr) (s : State) : Host.Outcome State Fault Refusal :=
  match i with
  | .powerOn => Sys2Proof.Machine.execPowerOn s
  | .powerLoss => Sys2Proof.Machine.execPowerLoss s
  | .inputVoltageSample vin header => Sys2Proof.Machine.execInputVoltageSample vin header s
  | .mrstN => Sys2Proof.Machine.execMrstN s
  | .powerWindow watts => Sys2Proof.Machine.execPowerWindow watts s
  | .cdThermalSample d sample => Sys2Proof.Machine.execCdThermalSample d sample s
  | .stackThermalSample t sample => Sys2Proof.Machine.execStackThermalSample t sample s
  | .pstepComplete d => Sys2Proof.Machine.execPstepComplete d s
  | .cdIdleEntry d => Sys2Proof.Machine.execCdIdleEntry d s
  | .refClockCheck ok156 ok100 => Sys2Proof.Machine.execRefClockCheck ok156 ok100 s
  | .startUpStep1 => Sys2Proof.Machine.execStartUpStep1 s
  | .startUpStep2 locked => Sys2Proof.Machine.execStartUpStep2 locked s
  | .startUpStep3 lanes => Sys2Proof.Machine.execStartUpStep3 lanes s
  | .startUpStep4 sris => Sys2Proof.Machine.execStartUpStep4 sris s
  | .activation => Sys2Proof.Machine.execActivation s
  | .moduleReset rq kind => Sys2Proof.Machine.execModuleReset rq kind s
  | .hostReset rq => Sys2Proof.Machine.execHostReset rq s
  | .failStopPowerDown => Sys2Proof.Machine.execFailStopPowerDown s
  | .loadWindowWrite offset data => Sys2Proof.Machine.execLoadWindowWrite offset data s
  | .sictlValidate => Sys2Proof.Machine.execSictlValidate s
  | .imageValidationComplete => Sys2Proof.Machine.execImageValidationComplete s
  | .sictlArm => Sys2Proof.Machine.execSictlArm s
  | .sictlDisarm => Sys2Proof.Machine.execSictlDisarm s
  | .sictlClear => Sys2Proof.Machine.execSictlClear s
  | .flipQuiescent => Sys2Proof.Machine.execFlipQuiescent s
  | .flipApplyDone => Sys2Proof.Machine.execFlipApplyDone s
  | .flipAbandonTimeout => Sys2Proof.Machine.execFlipAbandonTimeout s
  | .calWrite rq type inst stamp data => Sys2Proof.Machine.execCalWrite rq type inst stamp data s
  | .acmd c p vs dq => Sys2Proof.Machine.execAcmd c p vs dq s
  | .qpostWrite part value => Sys2Proof.Machine.execQpostWrite part value s
  | .qpostFetchComplete part => Sys2Proof.Machine.execQpostFetchComplete part s
  | .loadb part bad => Sys2Proof.Machine.execLoadb part bad s
  | .mxa part bad => Sys2Proof.Machine.execMxa part bad s
  | .mxz part bad => Sys2Proof.Machine.execMxz part bad s
  | .drain part bad => Sys2Proof.Machine.execDrain part bad s
  | .tileclr part => Sys2Proof.Machine.execTileclr part s
  | .fence part => Sys2Proof.Machine.execFence part s
  | .commandRetire part n => Sys2Proof.Machine.execCommandRetire part n s
  | .qctlRecover part => Sys2Proof.Machine.execQctlRecover part s
  | .qcplbaseWrite part value => Sys2Proof.Machine.execQcplbaseWrite part value s
  | .tctlClrflags tile => Sys2Proof.Machine.execTctlClrflags tile s
  | .nop c p => Sys2Proof.Machine.execNop c p s
  | .halt c p => Sys2Proof.Machine.execHalt c p s
  | .mode c p m => Sys2Proof.Machine.execMode c p m s
  | .rte c p => Sys2Proof.Machine.execRte c p s
  | .ifence c p => Sys2Proof.Machine.execIfence c p s
  | .mfence c p => Sys2Proof.Machine.execMfence c p s
  | .mfc c p x num => Sys2Proof.Machine.execMfc c p x num s
  | .mtc c p num x => Sys2Proof.Machine.execMtc c p num x s
  | .mfb c p x b16 => Sys2Proof.Machine.execMfb c p x b16 s
  | .mtb c p b16 x => Sys2Proof.Machine.execMtb c p b16 x s
  | .trap c p imm => Sys2Proof.Machine.execTrap c p imm s
  | .wait c p => Sys2Proof.Machine.execWait c p s
  | .waitWake c => Sys2Proof.Machine.execWaitWake c s
  | .interruptAccept c => Sys2Proof.Machine.execInterruptAccept c s
  | .l1dFillComplete c => Sys2Proof.Machine.execL1dFillComplete c s
  | .storeBufferDrain c => Sys2Proof.Machine.execStoreBufferDrain c s
  | .loop c p k n endDisp => Sys2Proof.Machine.execLoop c p k n endDisp s
  | .br c p disp slot => Sys2Proof.Machine.execBr c p disp slot s
  | .call c p disp slot => Sys2Proof.Machine.execCall c p disp slot s
  | .callr c p an slot => Sys2Proof.Machine.execCallr c p an slot s
  | .jmp c p an slot => Sys2Proof.Machine.execJmp c p an slot s
  | .ret c p slot => Sys2Proof.Machine.execRet c p slot s
  | .bz c p dn disp slot => Sys2Proof.Machine.execBz c p dn disp slot s
  | .bnz c p dn disp slot => Sys2Proof.Machine.execBnz c p dn disp slot s
  | .beq c p da db disp slot => Sys2Proof.Machine.execBeq c p da db disp slot s
  | .bne c p da db disp slot => Sys2Proof.Machine.execBne c p da db disp slot s
  | .blt c p da db disp slot => Sys2Proof.Machine.execBlt c p da db disp slot s
  | .bge c p da db disp slot => Sys2Proof.Machine.execBge c p da db disp slot s
  | .bltu c p da db disp slot => Sys2Proof.Machine.execBltu c p da db disp slot s
  | .bgeu c p da db disp slot => Sys2Proof.Machine.execBgeu c p da db disp slot s
  | .beqa c p aa ab disp slot => Sys2Proof.Machine.execBeqa c p aa ab disp slot s
  | .bltua c p aa ab disp slot => Sys2Proof.Machine.execBltua c p aa ab disp slot s
  | .adda c p ad aa src => Sys2Proof.Machine.execAdda c p ad aa src s
  | .suba c p ad aa x => Sys2Proof.Machine.execSuba c p ad aa x s
  | .shla c p ad aa n => Sys2Proof.Machine.execShla c p ad aa n s
  | .shra c p ad aa n => Sys2Proof.Machine.execShra c p ad aa n s
  | .cmpeqa c p dd aa ab => Sys2Proof.Machine.execCmpeqa c p dd aa ab s
  | .cmpltua c p dd aa ab => Sys2Proof.Machine.execCmpltua c p dd aa ab s
  | .mova c p ad src => Sys2Proof.Machine.execMova c p ad src s
  | .movda c p dd aa => Sys2Proof.Machine.execMovda c p dd aa s
  | .lea c p ad m => Sys2Proof.Machine.execLea c p ad m s
  | .add c p dd da db => Sys2Proof.Machine.execAdd c p dd da db s
  | .sub c p dd da db => Sys2Proof.Machine.execSub c p dd da db s
  | .addi c p dd da imm => Sys2Proof.Machine.execAddi c p dd da imm s
  | .mul c p dd da db => Sys2Proof.Machine.execMul c p dd da db s
  | .mulh c p dd da db => Sys2Proof.Machine.execMulh c p dd da db s
  | .mulhu c p dd da db => Sys2Proof.Machine.execMulhu c p dd da db s
  | .div c p dd da db => Sys2Proof.Machine.execDiv c p dd da db s
  | .divu c p dd da db => Sys2Proof.Machine.execDivu c p dd da db s
  | .rem c p dd da db => Sys2Proof.Machine.execRem c p dd da db s
  | .remu c p dd da db => Sys2Proof.Machine.execRemu c p dd da db s
  | .and c p dd da db => Sys2Proof.Machine.execAnd c p dd da db s
  | .or c p dd da db => Sys2Proof.Machine.execOr c p dd da db s
  | .xor c p dd da db => Sys2Proof.Machine.execXor c p dd da db s
  | .andi c p dd da imm => Sys2Proof.Machine.execAndi c p dd da imm s
  | .ori c p dd da imm => Sys2Proof.Machine.execOri c p dd da imm s
  | .xori c p dd da imm => Sys2Proof.Machine.execXori c p dd da imm s
  | .shl c p dd da db => Sys2Proof.Machine.execShl c p dd da db s
  | .shr c p dd da db => Sys2Proof.Machine.execShr c p dd da db s
  | .sar c p dd da db => Sys2Proof.Machine.execSar c p dd da db s
  | .shli c p dd da imm => Sys2Proof.Machine.execShli c p dd da imm s
  | .shri c p dd da imm => Sys2Proof.Machine.execShri c p dd da imm s
  | .sari c p dd da imm => Sys2Proof.Machine.execSari c p dd da imm s
  | .cmpeq c p dd da db => Sys2Proof.Machine.execCmpeq c p dd da db s
  | .cmplt c p dd da db => Sys2Proof.Machine.execCmplt c p dd da db s
  | .cmpltu c p dd da db => Sys2Proof.Machine.execCmpltu c p dd da db s
  | .min c p dd da db => Sys2Proof.Machine.execMin c p dd da db s
  | .max c p dd da db => Sys2Proof.Machine.execMax c p dd da db s
  | .mov c p dd da => Sys2Proof.Machine.execMov c p dd da s
  | .movi c p dd imm => Sys2Proof.Machine.execMovi c p dd imm s
  | .ext c p dd da imm => Sys2Proof.Machine.execExt c p dd da imm s
  | .clz c p dd da => Sys2Proof.Machine.execClz c p dd da s
  | .popc c p dd da => Sys2Proof.Machine.execPopc c p dd da s
  | .fadd c p dd da db => Sys2Proof.Machine.execFadd c p dd da db s
  | .fsub c p dd da db => Sys2Proof.Machine.execFsub c p dd da db s
  | .fmul c p dd da db => Sys2Proof.Machine.execFmul c p dd da db s
  | .fma c p dd da db dc => Sys2Proof.Machine.execFma c p dd da db dc s
  | .fdiv c p dd da db => Sys2Proof.Machine.execFdiv c p dd da db s
  | .fsqrt c p dd da => Sys2Proof.Machine.execFsqrt c p dd da s
  | .fmin c p dd da db => Sys2Proof.Machine.execFmin c p dd da db s
  | .fmax c p dd da db => Sys2Proof.Machine.execFmax c p dd da db s
  | .fcmpeq c p dd da db => Sys2Proof.Machine.execFcmpeq c p dd da db s
  | .fcmplt c p dd da db => Sys2Proof.Machine.execFcmplt c p dd da db s
  | .fcmple c p dd da db => Sys2Proof.Machine.execFcmple c p dd da db s
  | .fcvt c p dd da imm => Sys2Proof.Machine.execFcvt c p dd da imm s
  | .fabs c p dd da => Sys2Proof.Machine.execFabs c p dd da s
  | .fneg c p dd da => Sys2Proof.Machine.execFneg c p dd da s
  | .ld c p mw x m => Sys2Proof.Machine.execLd c p mw x m s
  | .lds c p mw dd m => Sys2Proof.Machine.execLds c p mw dd m s
  | .st c p mw x m => Sys2Proof.Machine.execSt c p mw x m s
  | .lr c p wide dd m => Sys2Proof.Machine.execLr c p wide dd m s
  | .sc c p wide dstat dval m => Sys2Proof.Machine.execSc c p wide dstat dval m s
  | .tas c p dd m => Sys2Proof.Machine.execTas c p dd m s
  | .vadd c p vd va vb => Sys2Proof.Machine.execVadd c p vd va vb s
  | .vsub c p vd va vb => Sys2Proof.Machine.execVsub c p vd va vb s
  | .vmul c p vd va vb => Sys2Proof.Machine.execVmul c p vd va vb s
  | .vfms c p vd va vb vc => Sys2Proof.Machine.execVfms c p vd va vb vc s
  | .vfma c p vd va vb vc => Sys2Proof.Machine.execVfma c p vd va vb vc s
  | .vdiv c p vd va vb => Sys2Proof.Machine.execVdiv c p vd va vb s
  | .vsqrt c p vd va => Sys2Proof.Machine.execVsqrt c p vd va s
  | .vmin c p vd va vb => Sys2Proof.Machine.execVmin c p vd va vb s
  | .vmax c p vd va vb => Sys2Proof.Machine.execVmax c p vd va vb s
  | .vand c p vd va vb => Sys2Proof.Machine.execVand c p vd va vb s
  | .vor c p vd va vb => Sys2Proof.Machine.execVor c p vd va vb s
  | .vxor c p vd va vb => Sys2Proof.Machine.execVxor c p vd va vb s
  | .vshl c p vd va imm => Sys2Proof.Machine.execVshl c p vd va imm s
  | .vshr c p vd va imm => Sys2Proof.Machine.execVshr c p vd va imm s
  | .vsar c p vd va imm => Sys2Proof.Machine.execVsar c p vd va imm s
  | .vbcst c p vd imm => Sys2Proof.Machine.execVbcst c p vd imm s
  | .vaddi c p vd va imm => Sys2Proof.Machine.execVaddi c p vd va imm s
  | .vmuli c p vd va imm => Sys2Proof.Machine.execVmuli c p vd va imm s
  | .vmaxi c p vd va imm => Sys2Proof.Machine.execVmaxi c p vd va imm s
  | .vmini c p vd va imm => Sys2Proof.Machine.execVmini c p vd va imm s
  | .vcmpeq c p pd va vb => Sys2Proof.Machine.execVcmpeq c p pd va vb s
  | .vcmplt c p pd va vb => Sys2Proof.Machine.execVcmplt c p pd va vb s
  | .vcmple c p pd va vb => Sys2Proof.Machine.execVcmple c p pd va vb s
  | .vsel c p vd va vb pc => Sys2Proof.Machine.execVsel c p vd va vb pc s
  | .vmov c p vd va => Sys2Proof.Machine.execVmov c p vd va s
  | .vld c p vd m => Sys2Proof.Machine.execVld c p vd m s
  | .vst c p vs m => Sys2Proof.Machine.execVst c p vs m s
  | .pand c p pd pa pb => Sys2Proof.Machine.execPand c p pd pa pb s
  | .por c p pd pa pb => Sys2Proof.Machine.execPor c p pd pa pb s
  | .pxor c p pd pa pb => Sys2Proof.Machine.execPxor c p pd pa pb s
  | .pnot c p pd pa => Sys2Proof.Machine.execPnot c p pd pa s
  | .pset c p pd => Sys2Proof.Machine.execPset c p pd s
  | .pclr c p pd => Sys2Proof.Machine.execPclr c p pd s
  | .plen c p pd dn => Sys2Proof.Machine.execPlen c p pd dn s
  | .pcnt c p dd pa => Sys2Proof.Machine.execPcnt c p dd pa s
  | .vredsum c p dd va => Sys2Proof.Machine.execVredsum c p dd va s
  | .vredmax c p dd va => Sys2Proof.Machine.execVredmax c p dd va s
  | .vredmin c p dd va => Sys2Proof.Machine.execVredmin c p dd va s
  | .vcvt c p vd va imm => Sys2Proof.Machine.execVcvt c p vd va imm s
  | .vperm c p vd va vb => Sys2Proof.Machine.execVperm c p vd va vb s
  | .vslideup c p vd va imm => Sys2Proof.Machine.execVslideup c p vd va imm s
  | .vslidedn c p vd va imm => Sys2Proof.Machine.execVslidedn c p vd va imm s
  | .vaddT c p ad aa ab => Sys2Proof.Machine.execVaddT c p ad aa ab s
  | .vsubT c p ad aa ab => Sys2Proof.Machine.execVsubT c p ad aa ab s
  | .vmulT c p ad aa ab => Sys2Proof.Machine.execVmulT c p ad aa ab s
  | .vmaxT c p ad aa ab => Sys2Proof.Machine.execVmaxT c p ad aa ab s
  | .vminT c p ad aa ab => Sys2Proof.Machine.execVminT c p ad aa ab s
  | .vfmaT c p ad aa ab ac => Sys2Proof.Machine.execVfmaT c p ad aa ab ac s
  | .vcvtT c p ad aa => Sys2Proof.Machine.execVcvtT c p ad aa s
  | .vscaleT c p ad aa imm => Sys2Proof.Machine.execVscaleT c p ad aa imm s
  | .vfmaiT c p ad aa ac imm => Sys2Proof.Machine.execVfmaiT c p ad aa ac imm s
  | .vcopyT c p ad aa => Sys2Proof.Machine.execVcopyT c p ad aa s
  | .drainInstruction c p vd t dr => Sys2Proof.Machine.execDrainInstruction c p vd t dr s
  | .tileRd c p vd t dr => Sys2Proof.Machine.execTileRd c p vd t dr s
  | .tileWr c p t dr vs => Sys2Proof.Machine.execTileWr c p t dr vs s
  | .clean c p m => Sys2Proof.Machine.execClean c p m s
  | .inval c p m => Sys2Proof.Machine.execInval c p m s
  | .cleaninval c p m => Sys2Proof.Machine.execCleaninval c p m s
  | .prefetch c p m => Sys2Proof.Machine.execPrefetch c p m s
  | .bswap c p dd da => Sys2Proof.Machine.execBswap c p dd da s
  | .rol c p dd da db => Sys2Proof.Machine.execRol c p dd da db s
  | .ror c p dd da db => Sys2Proof.Machine.execRor c p dd da db s
  | .roli c p dd da imm => Sys2Proof.Machine.execRoli c p dd da imm s
  | .bext c p dd da db => Sys2Proof.Machine.execBext c p dd da db s
  | .bdep c p dd da db => Sys2Proof.Machine.execBdep c p dd da db s
  | .customerInstruction c p entry ops imm => Sys2Proof.Machine.execCustomerInstruction c p entry ops imm s
  | .breakI c p => Sys2Proof.Machine.execBreakI c p s
  | .seqdbRing cd cl => Sys2Proof.Machine.execSeqdbRing cd cl s
  | .seqrunRelease cd cl => Sys2Proof.Machine.execSeqrunRelease cd cl s
  | .seqrunHaltreq cd cl => Sys2Proof.Machine.execSeqrunHaltreq cd cl s
  | .sequencerHalt cd cl => Sys2Proof.Machine.execSequencerHalt cd cl s
  | .seqrunReset cd cl => Sys2Proof.Machine.execSeqrunReset cd cl s
  | .epostWrite e cd cl value => Sys2Proof.Machine.execEpostWrite e cd cl value s
  | .epostxWrite e ctx value => Sys2Proof.Machine.execEpostxWrite e ctx value s
  | .engineWordFetchComplete e => Sys2Proof.Machine.execEngineWordFetchComplete e s
  | .func e bad => Sys2Proof.Machine.execFunc e bad s
  | .sort e bad => Sys2Proof.Machine.execSort e bad s
  | .topk e bad => Sys2Proof.Machine.execTopk e bad s
  | .gather e bad => Sys2Proof.Machine.execGather e bad s
  | .scatter e bad => Sys2Proof.Machine.execScatter e bad s
  | .scatteradd e bad => Sys2Proof.Machine.execScatteradd e bad s
  | .setstream e bad => Sys2Proof.Machine.execSetstream e bad s
  | .getstream e bad => Sys2Proof.Machine.execGetstream e bad s
  | .freestream e bad => Sys2Proof.Machine.execFreestream e bad s
  | .fill e bad => Sys2Proof.Machine.execFill e bad s
  | .combine e bad => Sys2Proof.Machine.execCombine e bad s
  | .collsend e bad => Sys2Proof.Machine.execCollsend e bad s
  | .collrecv e bad => Sys2Proof.Machine.execCollrecv e bad s
  | .collectiveTimeout e => Sys2Proof.Machine.execCollectiveTimeout e s
  | .transpose e bad => Sys2Proof.Machine.execTranspose e bad s
  | .compress e bad => Sys2Proof.Machine.execCompress e bad s
  | .decompress e bad => Sys2Proof.Machine.execDecompress e bad s
  | .engineCommandRetire e => Sys2Proof.Machine.execEngineCommandRetire e s
  | .ectlRecover e => Sys2Proof.Machine.execEctlRecover e s
  | .ecplbaseWrite e ctx value => Sys2Proof.Machine.execEcplbaseWrite e ctx value s
  | .randCapture d => Sys2Proof.Machine.execRandCapture d s
  | .scrub d store offset outcome => Sys2Proof.Machine.execScrub d store offset outcome s
  | .mvctlKick m => Sys2Proof.Machine.execMvctlKick m s
  | .mvctlResume m => Sys2Proof.Machine.execMvctlResume m s
  | .mvctlAbort m => Sys2Proof.Machine.execMvctlAbort m s
  | .mvctlReset m => Sys2Proof.Machine.execMvctlReset m s
  | .moverCopy m => Sys2Proof.Machine.execMoverCopy m s
  | .moverConvert m => Sys2Proof.Machine.execMoverConvert m s
  | .moverCompress m => Sys2Proof.Machine.execMoverCompress m s
  | .moverDecompress m => Sys2Proof.Machine.execMoverDecompress m s
  | .translation e ctx va acc req => Sys2Proof.Machine.execTranslation e ctx va acc req s
  | .translationPrefetch req stream => Sys2Proof.Machine.execTranslationPrefetch req stream s
  | .faultBatchTimer e => Sys2Proof.Machine.execFaultBatchTimer e s
  | .fbdone e value => Sys2Proof.Machine.execFbdone e value s
  | .withdraw e value => Sys2Proof.Machine.execWithdraw e value s
  | .withdrawAck e req => Sys2Proof.Machine.execWithdrawAck e req s
  | .withdrawTimeout e => Sys2Proof.Machine.execWithdrawTimeout e s
  | .readRequest cache line more par => Sys2Proof.Machine.execReadRequest cache line more par s
  | .ownershipRequest cache line more => Sys2Proof.Machine.execOwnershipRequest cache line more s
  | .upgradeRequest cache line more => Sys2Proof.Machine.execUpgradeRequest cache line more s
  | .writeback cache line more => Sys2Proof.Machine.execWriteback cache line more s
  | .cleanEvictionNotice cache line more => Sys2Proof.Machine.execCleanEvictionNotice cache line more s
  | .snoop cache line more => Sys2Proof.Machine.execSnoop cache line more s
  | .fillAck cache line => Sys2Proof.Machine.execFillAck cache line s
  | .uncachedRead src addr size more => Sys2Proof.Machine.execUncachedRead src addr size more s
  | .uncachedWrite src cls addr data more => Sys2Proof.Machine.execUncachedWrite src cls addr data more s
  | .holdWindowEnd cache line => Sys2Proof.Machine.execHoldWindowEnd cache line s
  | .fillRetry cache line => Sys2Proof.Machine.execFillRetry cache line s
  | .dieLinkFlitReceive l fwd crcOk => Sys2Proof.Machine.execDieLinkFlitReceive l fwd crcOk s
  | .dramRead addr outcome => Sys2Proof.Machine.execDramRead addr outcome s
  | .dramLineWrite addr data => Sys2Proof.Machine.execDramLineWrite addr data s
  | .sealCacheEvict b tile => Sys2Proof.Machine.execSealCacheEvict b tile s
  | .sealVerifyingRead addr who cmp => Sys2Proof.Machine.execSealVerifyingRead addr who cmp s
  | .patrol b line outcome cmp => Sys2Proof.Machine.execPatrol b line outcome cmp s
  | .rowRemap b bad => Sys2Proof.Machine.execRowRemap b bad s
  | .readseal b value => Sys2Proof.Machine.execReadseal b value s
  | .verify b value => Sys2Proof.Machine.execVerify b value s
  | .listpoison b value => Sys2Proof.Machine.execListpoison b value s
  | .reseal b value => Sys2Proof.Machine.execReseal b value s
  | .move b value => Sys2Proof.Machine.execMove b value s
  | .pageMoveComplete b => Sys2Proof.Machine.execPageMoveComplete b s
  | .retqRead b => Sys2Proof.Machine.execRetqRead b s
  | .mcack die value => Sys2Proof.Machine.execMcack die value s
  | .flitReceive port data => Sys2Proof.Machine.execFlitReceive port data s
  | .collFlit cd port => Sys2Proof.Machine.execCollFlit cd port s
  | .linkctlNack port failed => Sys2Proof.Machine.execLinkctlNack port failed s
  | .fecAlignmentLoss port => Sys2Proof.Machine.execFecAlignmentLoss port s
  | .portTrainingComplete port peer peerPort => Sys2Proof.Machine.execPortTrainingComplete port peer peerPort s
  | .retrainTimeout port => Sys2Proof.Machine.execRetrainTimeout port s
  | .nomatchTimeout cd => Sys2Proof.Machine.execNomatchTimeout cd s
  | .bridlePairing port => Sys2Proof.Machine.execBridlePairing port s
  | .bridlePairingTimer => Sys2Proof.Machine.execBridlePairingTimer s
  | .bridleSlotData port => Sys2Proof.Machine.execBridleSlotData port s
  | .bridleManifest port => Sys2Proof.Machine.execBridleManifest port s
  | .bridleEndOfStream port answer => Sys2Proof.Machine.execBridleEndOfStream port answer s
  | .stop src cause => Sys2Proof.Machine.execStop src cause s
  | .tctlStop => Sys2Proof.Machine.execTctlStop s
  | .tctlNote => Sys2Proof.Machine.execTctlNote s
  | .flipArrive t => Sys2Proof.Machine.execFlipArrive t s
  | .flipOpen src => Sys2Proof.Machine.execFlipOpen src s
  | .flipComplete t => Sys2Proof.Machine.execFlipComplete t s
  | .flipAbandon t => Sys2Proof.Machine.execFlipAbandon t s
  | .tbar value => Sys2Proof.Machine.execTbar value s
  | .barrierArrive t id => Sys2Proof.Machine.execBarrierArrive t id s
  | .barrierComplete t id => Sys2Proof.Machine.execBarrierComplete t id s
  | .tredctl value => Sys2Proof.Machine.execTredctl value s
  | .reduceUp t slot op id x => Sys2Proof.Machine.execReduceUp t slot op id x s
  | .reduceResult t slot op id x => Sys2Proof.Machine.execReduceResult t slot op id x s
  | .noticeFault t subject cause => Sys2Proof.Machine.execNoticeFault t subject cause s
  | .noticeThermalSlow t factor => Sys2Proof.Machine.execNoticeThermalSlow t factor s
  | .noticeClear t => Sys2Proof.Machine.execNoticeClear t s
  | .heartbeat t => Sys2Proof.Machine.execHeartbeat t s
  | .tetherHeartbeatTimer => Sys2Proof.Machine.execTetherHeartbeatTimer s
  | .heartbeatLost p => Sys2Proof.Machine.execHeartbeatLost p s
  | .tnotqRead => Sys2Proof.Machine.execTnotqRead s
  | .snapctlArrive => Sys2Proof.Machine.execSnapctlArrive s
  | .snapshotCleanComplete => Sys2Proof.Machine.execSnapshotCleanComplete s
  | .demandCopyComplete granule => Sys2Proof.Machine.execDemandCopyComplete granule s
  | .backgroundCopy => Sys2Proof.Machine.execBackgroundCopy s
  | .commitArrive => Sys2Proof.Machine.execCommitArrive s
  | .snapctlDrain => Sys2Proof.Machine.execSnapctlDrain s
  | .cabinetDrainTimer => Sys2Proof.Machine.execCabinetDrainTimer s
  | .cabinetDrainComplete => Sys2Proof.Machine.execCabinetDrainComplete s
  | .snapctlRollback => Sys2Proof.Machine.execSnapctlRollback s
  | .rollbackComplete => Sys2Proof.Machine.execRollbackComplete s
  | .snapctlResume => Sys2Proof.Machine.execSnapctlResume s
  | .snapctlSendward => Sys2Proof.Machine.execSnapctlSendward s
  | .takeover value => Sys2Proof.Machine.execTakeover value s
  | .restoreComplete => Sys2Proof.Machine.execRestoreComplete s
  | .hicSourceEvent src => Sys2Proof.Machine.execHicSourceEvent src s
  | .hirteWrite src value => Sys2Proof.Machine.execHirteWrite src value s
  | .hipi value => Sys2Proof.Machine.execHipi value s
  | .haziaInterruptAccept k => Sys2Proof.Machine.execHaziaInterruptAccept k s
  | .pcieInboundRequest rid va size data => Sys2Proof.Machine.execPcieInboundRequest rid va size data s
  | .pcieMsi rid value => Sys2Proof.Machine.execPcieMsi rid value s
  | .pcieCompletion c ok data => Sys2Proof.Machine.execPcieCompletion c ok data s
  | .pcieCompletionTimeout c => Sys2Proof.Machine.execPcieCompletionTimeout c s
  | .pcieLinkEvent ev => Sys2Proof.Machine.execPcieLinkEvent ev s
  | .sessionInit claim slot msg sig1 sig2 => Sys2Proof.Machine.execSessionInit claim slot msg sig1 sig2 s
  | .sessionClose rq => Sys2Proof.Machine.execSessionClose rq s
  | .sessionIdleTimeout sid => Sys2Proof.Machine.execSessionIdleTimeout sid s
  | .readStatus rq block => Sys2Proof.Machine.execReadStatus rq block s
  | .readReg rq addr size => Sys2Proof.Machine.execReadReg rq addr size s
  | .writeReg rq addr data => Sys2Proof.Machine.execWriteReg rq addr data s
  | .imageWrite rq offset data => Sys2Proof.Machine.execImageWrite rq offset data s
  | .imageRead rq shadow offset size => Sys2Proof.Machine.execImageRead rq shadow offset size s
  | .keyslotSet rq slot ed ml => Sys2Proof.Machine.execKeyslotSet rq slot ed ml s
  | .mgmtkeySet rq slot role ed ml => Sys2Proof.Machine.execMgmtkeySet rq slot role ed ml s
  | .calRead rq entry => Sys2Proof.Machine.execCalRead rq entry s
  | .cabinetRead rq epoch offset size => Sys2Proof.Machine.execCabinetRead rq epoch offset size s
  | .testHold rq => Sys2Proof.Machine.execTestHold rq s
  | .testRelease rq => Sys2Proof.Machine.execTestRelease rq s
  | .repair rq op => Sys2Proof.Machine.execRepair rq op s
  | .pprCommit rq die => Sys2Proof.Machine.execPprCommit rq die s
  | .fwStage rq host offset data => Sys2Proof.Machine.execFwStage rq host offset data s
  | .fwActivate rq host => Sys2Proof.Machine.execFwActivate rq host s
  | .fwCommit rq host => Sys2Proof.Machine.execFwCommit rq host s
  | .attest rq nonce => Sys2Proof.Machine.execAttest rq nonce s
  | .identity rq => Sys2Proof.Machine.execIdentity rq s
  | .subscribe rq => Sys2Proof.Machine.execSubscribe rq s
  | .mgmtHeartbeatTimer => Sys2Proof.Machine.execMgmtHeartbeatTimer s
  | .registerWrite addr data => Sys2Proof.Machine.execRegisterWrite addr data s
  | .imageCtl rq action => Sys2Proof.Machine.execImageCtl rq action s
  | .registerReadClear addr size => Sys2Proof.Machine.execRegisterReadClear addr size s
  | .reservedOpcode c form => Sys2Proof.Machine.execReservedOpcode c form s
  | .instructionFetchFault c cond va => Sys2Proof.Machine.execInstructionFetchFault c cond va s
  | .tetherBlockLock p => Sys2Proof.Machine.execTetherBlockLock p s
  | .regulatorFault rail => Sys2Proof.Machine.execRegulatorFault rail s
  | .sealEngineCommandComplete b => Sys2Proof.Machine.execSealEngineCommandComplete b s

end Sys2Proof.Machine
end

