-- ==== Sys2Proof/Machine/Step.lean ====
section
/-! DEFINITION. One step of the block: the command at the front of the queue, on the rest; with an empty queue the slow queue of the
management controller goes on, and then the Tether transmits. -/

namespace Sys2Proof.Machine

/-- Take the first waiting command and answer what its meaning answers on the queue's rest; with no command waiting, the management
controller executes the request at the head of its slow queue (17 R417), or, where that is empty, time passes in which every Tether port
transmits (15 R373; log entry 1). -/
def step (s : State) : Host.Outcome State Fault Refusal :=
  match s.pending with
  | [] => match s.mgmt.slow with
    | (_, op) :: rest => State.runSlow op { s with mgmt := { s.mgmt with slow := rest, resumed := true } }
    | [] => .next s.idle
  | c :: rest => exec c { s with pending := rest }

/-- `s` with the command that a word spells put at the front of its queue; no word spells a command (log entry 1). -/
def State.withFetchWord (s : State) (nbits w : Nat) : State :=
  match decodeTableWord nbits w with
  | some c => { s with pending := c :: s.pending }
  | none => s

end Sys2Proof.Machine
end

