-- ==== Sys2Proof/Safety.lean ====
section
/-! DEFINITION. The terms in which claims about the machine are made: when a core executes an instruction, what the instruction
sees, the state in which it has completed, and the invariants. -/

namespace Sys2Proof.Machine

/-- The core executes now, and the encoding is legal where it stands (06 R166, R179; 07 R181 to R185; 09 R225). -/
def Runs (s : State) (c : CoreId) (p : Pfx) (sh : Shape) : Prop := s.executes c = true ∧ sh.illegal c p (s.core c) = false

/-- The core as an instruction that executes now sees it: an interlocked one sees the result of the load before it, a native one
does not (06 R162, R163). -/
def State.seen (s : State) (c : CoreId) : Core := (s.core c).view (tagMode c (s.core c))

/-- The state in which an instruction has completed that turned its core into `k` and control goes to `ctl`: a waiting load
write lands, the program counter moves, and a constrained pair counts the instruction (06 R162, R166, R167, R177). -/
def State.completed (s : State) (c : CoreId) (p : Pfx) (sh : Shape) (k : Core) (ctl : Ctl) : State :=
  s.setCore c (((k.counted sh).withLoad ((s.core c).oldLoad (tagMode c (s.core c)))).complete (s.core c).slot (sh.len p) ctl)

/-- The same where the instruction, executed in `s`, has left `t` behind it. -/
def State.ended (s t : State) (c : CoreId) (p : Pfx) (sh : Shape) (k : Core) (ctl : Ctl) : State :=
  t.setCore c (((k.counted sh).withLoad ((s.core c).oldLoad (tagMode c (s.core c)))).complete (s.core c).slot (sh.len p) ctl)

/-- Where the instruction `i` executes, it completes in sequence and has turned its core into one that `spec` relates to the core
it saw. -/
def Completes (i : Instr) (c : CoreId) (p : Pfx) (sh : Shape) (spec : Core → Core → Prop) : Prop :=
  ∀ s : State, Runs s c p sh → ∃ k, spec (s.seen c) k ∧ exec i s = .next (s.completed c p sh k .seq)

/-- Where the instruction `i` executes, it completes in sequence with one change to its core: the D register `dd` holds a value
that `spec` names. -/
def GivesD (i : Instr) (c : CoreId) (p : Pfx) (sh : Shape) (dd : Fin 32) (spec : Core → Word → Prop) : Prop :=
  Completes i c p sh (fun k k1 => ∃ w, spec k w ∧ k1 = k.setD dd w)

/-- The same for the A register `ad`. -/
def GivesA (i : Instr) (c : CoreId) (p : Pfx) (sh : Shape) (ad : Fin 16) (spec : Core → Word → Prop) : Prop :=
  Completes i c p sh (fun k k1 => ∃ w, spec k w ∧ k1 = k.setA ad w)

/-- The shape of an instruction with D operands. -/
def dShape (bytes : Nat) (d : List (Fin 32)) : Shape := { bytes := bytes, d := d }

/-- The same of a long operation (06 R164). -/
def longShape (bytes : Nat) (d : List (Fin 32)) : Shape := { dShape bytes d with unpaired := true }

/-- The shape of an instruction with D operands and an extendable 2-byte immediate. -/
def immShape (bytes : Nat) (d : List (Fin 32)) : Shape := { bytes := bytes, imm := 2, d := d }

/-- Physical memory is in canonical form: the invariant that every step keeps. -/
def State.MemOk (s : State) : Prop := Memory.wf s.mem = true

/-- The store of the cores is in canonical form. -/
def State.CoresOk (s : State) : Prop := mwf Core.reset s.cores = true

/-- The sparse stores that statements read back after two writes are in canonical form: the cores, the quadrants, the lines of the caches, the
CREs, `HIRTE`, and the entries of each listed tile. -/
def State.StoresOk (s : State) : Prop :=
  s.CoresOk ∧ mwf Quad.reset s.quads = true ∧ mwf CacheLine.reset s.lines = true
  ∧ mwf CreState.reset s.cre = true
  ∧ mwf Hirte.reset s.host.hirte = true ∧ ∀ x ∈ s.tiles, mwf 0 x.2.entries = true

/-- A run is safe when no command of it is refused and none stops the machine. -/
def Safe (c : Instr) (s : State) : Prop := ∃ t, exec c s = .next t

/-- Every other core is as before. -/
def OtherCores (s t : State) (c : CoreId) : Prop := ∀ d, d ≠ c → t.core d = s.core d

/-- All state but the cores is as before. -/
def OnlyCores (s t : State) : Prop := t = { s with cores := t.cores }

/-! ## The claims that several instructions of one shape share -/

/-- Where a tensor form runs: it reads its descriptors, does one group, stores its progress, and ends after the last group; a data error
stores the progress and traps (10 R255 to R259). -/
def TensorClaim (c : CoreId) (p : Pfx) (s : State) (k : Core) (ins : Instr) (f : TensorForm) (ads : List (Fin 16)) (imm : List Nat) : Prop :=
  ∀ (s1 s2 s3 : State) (raws : List (List Byte)) (dst : TensorDesc) (srcs : List TensorDesc) (run : TensorRun) (g : Flg) (va : Word),
  let sh : Shape := { bytes := f.bytes, imm := f.imm, types := f.types, unpaired := true }
  let code := if f.noType then 0 else typeCode p
  let descs := raws.map (fun r => (parseDesc r).1)
  let total := dst.dims.foldl (· * ·) 1
  let w := f.width code (dst.fmt :: srcs.map (·.fmt))
  let n := groupSize (if w = 6 then 168 else 1024 / w) (nth 1 dst.dims 0) run.index
  let group := s1.runGroup c k dst srcs (fun xs => f.op k.rnd code (dst.fmt :: srcs.map (·.fmt)) (xs ++ imm)) run.index n
  let after := { run with index := run.index + n }
  let ends (t : State) (k1 : Core) : Host.Outcome State Fault Refusal := .next (s.ended t c p sh { k1 with resv := (t.core c).resv } .seq)
  let read : Prop := (s.core c).tensor = none ∧ s.readDescs c k (ads.map k.getA) = .ok (s1, raws)
    ∧ (∀ x ∈ raws, descLegal x = true) ∧ (∀ d ∈ descs, d.dims = (nth { base := 0, fmt := 0, nt := false, dims := [], strides := [] } descs 0).dims)
  let starts : Prop := ((s.core c).tensor = some run ∧ s1 = s) ∨ (read ∧ f.fits code (descs.map (·.fmt)) = true
    ∧ run = { progress := k.getA (nth 0 ads 0) + 12, start := run.index, index := (parseDesc (nth [] raws 0)).2, descs := descs })
  Runs s c p sh → (f.noType = true ∨ f.types.contains code = true) → (f.noType = true ∨ ∀ x ∈ imm, x < 2 ^ fmtWidth code) →
  k.sbuf = [] → s.servedLine c = none →
  (starts → run.descs = dst :: srcs →
    (total ≤ run.index → s1.storeProgress c k run 0 = .ok s2 → exec ins s = ends s2 k)
    ∧ (run.index < total → group = .ok (s2, g) → total ≤ run.index + n →
        s2.storeProgress c (k.flag g) after 0 = .ok s3 → exec ins s = ends s3 (k.flag g))
    ∧ (run.index < total → group = .ok (s2, g) → run.index + n < total →
        exec ins s = .next (((s2.modCore c (fun k => k.flag g)).modCore c (fun k => { k with tensor := some after })).modCore c
          (fun k => k.waiting sh .group)))
    ∧ (run.index < total → group = .error (.data va, s2) → s2.storeProgress c k run run.index = .ok s3 →
        let t := s3.modCore c (fun k => { k with tensor := none })
        exec ins s = .next (t.trapHere c (t.core c) 0x0F 0 (some { va := va, write := false, fetch := false }))))
  ∧ (read → f.fits code (descs.map (·.fmt)) = false → exec ins s = .next (s1.trapHere c (s1.core c) 0x01 0 none))

/-- Where an element-wise instruction runs: every active element is the result of `f`, the others keep theirs, and the flags are those of
the active elements (10 R246, R249). -/
def LanewiseClaim (c : CoreId) (p : Pfx) (vd : Fin 32) (w : Nat) (long : Bool) (ins : Instr) (bytes : Nat) (types : List Nat)
    (srcs : List (Fin 32)) (f : Rnd → List Nat → Nat × Flg) : Prop :=
  let sh : Shape := { bytes := bytes, pred := true, types := types, unpaired := long }
  (vecTyped p types = true → Completes ins c p sh (fun k k1 => ∃ (x : BitVec 16384) (g : Flg), k1 = (k.flag g).setV vd x
    ∧ (∀ j < lanes c w, elemAt w x.toNat j =
        if activeIn k p.pred w j then (f k.rnd (srcs.map (fun v => elemAt w (k.getV v).toNat j))).1 % 2 ^ w
        else elemAt w (k.getV vd).toNat j)
    ∧ (g.nv = true ↔ ∃ j < lanes c w, activeIn k p.pred w j = true ∧ (f k.rnd (srcs.map (fun v => elemAt w (k.getV v).toNat j))).2.nv = true)
    ∧ (g.of = true ↔ ∃ j < lanes c w, activeIn k p.pred w j = true ∧ (f k.rnd (srcs.map (fun v => elemAt w (k.getV v).toNat j))).2.of = true)
    ∧ (g.nx = true ↔ ∃ j < lanes c w, activeIn k p.pred w j = true ∧ (f k.rnd (srcs.map (fun v => elemAt w (k.getV v).toNat j))).2.nx = true)))
  ∧ (vecTyped p types = false → ∀ s, Runs s c p sh → exec ins s = .next (s.trapHere c (s.core c) 0x01 0 none))

/-- The same with an immediate element `m`, which must fit the element width. -/
def ImmediateClaim (c : CoreId) (p : Pfx) (vd va : Fin 32) (w m : Nat) (ins : Instr) (bytes : Nat) (f : Rnd → Nat → Nat × Flg) : Prop :=
  let sh : Shape := { bytes := bytes, imm := 2, pred := true, types := vecAll }
  (vecTyped p vecAll = true → m < 2 ^ w → Completes ins c p sh (fun k k1 => ∃ (x : BitVec 16384) (g : Flg), k1 = (k.flag g).setV vd x
    ∧ (∀ j < lanes c w, elemAt w x.toNat j =
        if activeIn k p.pred w j then (f k.rnd (elemAt w (k.getV va).toNat j)).1 % 2 ^ w else elemAt w (k.getV vd).toNat j)))
  ∧ (vecTyped p vecAll = false ∨ 2 ^ w ≤ m → ∀ s, Runs s c p sh → exec ins s = .next (s.trapHere c (s.core c) 0x01 0 none))

/-- Where a vector compare runs: every byte of the predicate of an active element holds its outcome. -/
def CompareClaim (c : CoreId) (p : Pfx) (pd : Fin 8) (va vb : Fin 32) (code w n : Nat) (ins : Instr) (iop : Int → Int → Bool)
    (fop : FVal → FVal → Bool) : Prop :=
  vecTyped p vecAll = true → Completes ins c p { bytes := 4, pred := true, types := vecAll } (fun k k1 => ∃ x, k1 = k.setP pd x ∧
    ∀ i < n, x.getLsbD i = if activeIn k p.pred w (i / (w / 8)) then
      elemCmp code iop fop (elemAt w (k.getV va).toNat (i / (w / 8))) (elemAt w (k.getV vb).toNat (i / (w / 8)))
      else (k.getP pd).getLsbD i)

/-- Where a permutation runs: every active element is `f` of its place. -/
def PermuteClaim (c : CoreId) (p : Pfx) (vd : Fin 32) (w n : Nat) (ins : Instr) (bytes : Nat) (f : Core → Nat → Nat) : Prop :=
  vecTyped p vecAll = true → Completes ins c p { bytes := bytes, pred := true, types := vecAll } (fun k k1 => ∃ x, k1 = k.setV vd x ∧
    ∀ j < n, elemAt w x.toNat j = if activeIn k p.pred w j then f k j else elemAt w (k.getV vd).toNat j)

/-- Where a maximum or minimum reduction runs. -/
def ExtremeClaim (c : CoreId) (p : Pfx) (dd va : Fin 32) (code w : Nat) (sh : Shape) (ins : Instr)
    (op : Rnd → Nat → Nat → Nat × Flg) : Prop := ∀ s, Runs s c p sh →
  let r := reduceTree (op (s.seen c).rnd) 12 (activeElems c p (s.seen c) w va id)
  (∀ x, r.1 = some x → exec ins s = .next (s.completed c p sh (((s.seen c).flag r.2).setD dd (scalarToD code x)) .seq))
  ∧ (∀ f, r.1 = none → floatFmt code = some f → exec ins s
      = .next (s.completed c p sh ((s.seen c).setD dd (BitVec.ofNat 64 f.nanBits)) .seq))

/-- Where a branch runs with its slot count in place: control goes to the target or on. -/
def BranchClaim (c : CoreId) (p : Pfx) (s : State) (k : Core) (slot : Fin 17) (i : Instr) (sh : Shape) (cond : Prop) (target : Word → Word) : Prop :=
  Runs s c p { sh with noSlot := true } →
    (misplaced k (sh.len p) slot = false →
      (cond → exec i s = .next (s.completed c p { sh with noSlot := true } k (.taken (target (k.pc + BitVec.ofNat 64 (sh.len p))) true)))
      ∧ (¬cond → exec i s = .next (s.completed c p { sh with noSlot := true } k .untaken)))
    ∧ (misplaced k (sh.len p) slot = true → exec i s = .next (s.trapHere c (s.core c) 0x07 0 none))

/-- Where a cache maintenance instruction runs: at once in SRAM or device memory; else on a quiet line, or ordered until the line is quiet
(13 R325, R326). -/
def MaintClaim (c : CoreId) (p : Pfx) (s s1 : State) (k : Core) (sh : Shape) (va : Word) (pa a ln : Nat)
    (fin : Shape → State → Core → State) (done : State → State) (i : Instr) (acc : Access) (m : Maint) : Prop :=
  (s.coreTranslate c va.toNat acc = (.ok pa, s1) → (s.kindAt pa).sram = true ∨ (s.kindAt pa).device = true →
    exec i s = .next (fin sh s1 k))
  ∧ (s.coreTranslate c va.toNat acc = (.ok a, s1) → (s.kindAt a).sram = false → (s.kindAt a).device = false →
    s.locate c k va { acc := acc, size := 1 } = (.ok [(a, 1)], s1) →
    (∀ e ∈ k.sbuf, e.touches (ln * 128) 128 = false) → k.maint = false → (s.core c).wait ≠ some (.maint (sh.len p)) →
    (s1.quiet ln = true → exec i s = .next (done (s1.maintain m ln)))
    ∧ (s1.quiet ln = false → ((s1.orderMaint c ln m).core c).maint = false → exec i s = .next (done (s1.orderMaint c ln m)))
    ∧ (s1.quiet ln = false → ((s1.orderMaint c ln m).core c).maint = true →
        exec i s = .next ((s1.orderMaint c ln m).modCore c (fun k => k.waiting sh (.maint (sh.len p))))))

/-- Where an array command is ready: each step left is done and it is issued, or an error found before step `n` stops its partition. -/
def ArrayRuns (s : State) (part : PartId) (c : Cmd) (ins : Option (Nat × ArrayError) → Instr) (op total : Nat)
    (f : State → Nat → Except (CmdStop × State) State) (counted : State → State) : Prop :=
  let stands (t : State) (ph : CmdPhase) (n : Nat) : State := t.setQuad part { t.quad part with
    queue := (t.quad part).queue.map (fun x => if x.order = c.order then { x with phase := ph, count := n } else x) }
  s.ready part op = some c → c.count ≤ total → ∀ t,
    (carry f (countFrom c.count (total - c.count)) s = (t, none) →
      exec (ins none) s = .next (counted (stands t .issued total)))
    ∧ (∀ n e, c.count ≤ n → n < total → carry f (countFrom c.count (n - c.count)) s = (t, none) →
      exec (ins (some (n, e))) s = .next (counted ((stands t .started n).partFails part (arrayCause e) none)))

/-- Where an engine may run the command at its head: the work on it completes, holds, or stops it. -/
def EngineRuns (e : EngineId) (c : EngCmd) (s s1 : State) (b : EngCmd × State) (bad : Option (Nat × EngineError)) (allow : Prop)
    (ins : Option (Nat × EngineError) → Instr) (kind : EngineKind) (op : Nat) (work : EngCmd → State → EngRes) : Prop :=
  allow → e.kind = kind → cOp c.words = op →
    (∀ c2 s2, work b.1 s1 = .go c2 s2 → exec (ins bad) s = .next ((s2.modHead e (fun _ => c2)).endHead e 0))
    ∧ (∀ c2 s2, work b.1 s1 = .hold c2 s2 → exec (ins bad) s = .next (s2.modHead e (fun _ => c2)))
    ∧ (∀ c2 s2 why, work b.1 s1 = .stop c2 s2 why → exec (ins bad) s = .next (s2.stopHead e c2 why))

/-- The work of SORT (`op` 1) and TOPK (2) (11 R282). -/
def selectWork (e : EngineId) (bad : Option (Nat × EngineError)) (desc : List ReadDesc → Nat → TensorDesc) (op : Nat)
    (outs : TensorDesc → EngCmd → Nat) (c : EngCmd) (s : State) : EngRes :=
  s.withDescs e c (c.w 1 :: ((if c.w 2 ≠ 0 then [c.w 2] else []) ++ (if c.w 3 ≠ 0 then [c.w 3] else [])))
    (fun ds =>
      let fmts := (if c.w 2 ≠ 0 then [eFmt c.words] else []) ++ (if c.w 3 ≠ 0 then [0x03] else [])
      decide ((desc ds 0).fmt = eFmt c.words) && decide ((desc ds 0).dim 0 ≤ 65536) && decide (outs (desc ds 0) c ≤ (desc ds 0).dim 0)
      && ((ds.drop 1).zip fmts).all (fun y => decide (y.1.d.fmt = y.2) && decide (y.1.d.dims = outs (desc ds 0) c :: (desc ds 0).dims.drop 1)))
    (fun c s => engUnits bad (selRow e (if op = 1 then (c.desc 0).dim 0 else fld c.words 4 0 17)) (c.desc 0).rows ((c.desc 0).rows + 1) c s)

/-- The work of GATHER, SCATTER and SCATTERADD (11 R283). -/
def moveWork (e : EngineId) (bad : Option (Nat × EngineError)) (desc : List ReadDesc → Nat → TensorDesc) (op : GseOp) (c : EngCmd)
    (s : State) : EngRes :=
  s.withDescs e c [c.w 1, c.w 2, c.w 3]
    (fun ds =>
      decide ((nth ReadDesc.null ds 0).rank = 2 ∧ (nth ReadDesc.null ds 1).rank = 1 ∧ (nth ReadDesc.null ds 2).rank = 2)
      && (decide ((desc ds 1).fmt = 0x03) || decide ((desc ds 1).fmt = 0x04))
      && decide ((desc ds 2).dim 1 = (desc ds 1).dim 0) && decide ((desc ds 0).dim 0 = (desc ds 2).dim 0)
      && decide ((desc ds 0).dim 0 ≤ 65536) && decide ((desc ds 0).fmt = (desc ds 2).fmt) && knownFmt (desc ds 0).fmt
      && (decide (op ≠ .scatterAdd) || decide ((desc ds 0).fmt = eFmt c.words)))
    (fun c s => engUnits bad (gseRow e op) ((c.desc 1).dim 0) ((c.desc 1).dim 0 + 1) c s)

/-! ## States that claims name -/

/-- After an FBDONE that names the outstanding batch: each parked requester is retried or fails, then those that found the batch full
(12 R304). -/
def retriedBatch (s : State) (e : EtuId) (x : Etu) (buf : Bool) (recs : List FaultRec) : State :=
  let ok := (countFrom 0 recs.length).map (s.recordResolved e buf)
  let s1 := (s.setEtu e { x with outstanding := none, fullParked := [] }).deliverIfDue e
  let s2 := (recs.zip ok).foldl (fun (t : State) p => (p.1.parked ++ p.1.late).foldl (fun (t : State) q =>
    if p.2 then t.retryRequester (some p.1) q else t.failRequester p.1 q) t) s1
  (x.fullParked.foldl (fun (t : State) q => t.retryRequester none q) s2).deliverIfDue e

/-- An ETU at the begin of a withdrawal (12 R305). -/
def withdrawing (x : Etu) (ctx : BitVec 6) (value : Word) (all : Bool) (waits : List Requester) : Etu := { x with
  tlb := x.tlb.filter (fun t => !t.within ctx all x.wdBase.toNat x.wdLimit.toNat)
  wdBusy := true
  wdIrq := value.getLsbD 7
  wdCtx := ctx
  wdStuck := false
  wdAwaited := waits }

/-- What `COMSTAT` keeps of an uncorrectable word that a scrub finds (11 R269). -/
def scrubFound (cs : ComStat) (store : Option (Fin 24)) (offset : Nat) : ComStat := { cs with
  ueCnt := satAdd cs.ueCnt 1
  ueInTs := store.isSome
  ueCluster := match store with
    | none => 0
    | some cl => BitVec.ofNat 5 cl.val
  ueOffset := match store with
    | none => BitVec.ofNat 27 (offset % 0x4000000 / 8 * 8)
    | some _ => BitVec.ofNat 27 (offset % 0x800000 / 8 * 8) }

/-- A granule copied: a poisoned one flags the manifest (bit 4), and so does the last one (bit 1); its demand is served, the stream
sends it, and what waits for it goes on (16 R388, R389, R392, R396). -/
def copiedGranule (s : State) (g at' : Nat) : State :=
  let flagged (t : State) (i : Nat) : Prop := bit (t.readNat (at' + 28) 4) i = true
  let s1 := s.copyGranule g
  let s2 := if s1.snap.poisoned = true ∧ ¬flagged s1 4 then s1.flagManifest at' 4 else s1
  let s3 := if s2.snap.uncopied = [] ∧ ¬flagged s2 1 then s2.flagManifest at' 1 else s2
  let s4 := State.streamPlaced { s3 with snap := { s3.snap with demand := without g s3.snap.demand } }
  (s4.waitingLines.filter (fun l => decide (granuleOf l = g))).foldl (fun (t : State) l => t.resumeLine l) s4

/-- The counts after a sample of the input (18 R426). -/
def countedSample (p : Power) (vin : BitVec 16) (v : Nat) (header : Bool) : Power := { p with
  vin := vin
  low48 := if v < 4800 then p.low48 + 1 else 0
  low44 := if v < 4400 then p.low44 + 1 else 0
  high50 := if 5000 < v then p.high50 + 1 else 0
  lowHeader := if header then p.lowHeader + 1 else 0 }

/-- A die after a sample of its sensor, with the limit `n` (18 R424). -/
def sampledDie (x : CdPwr) (b : Byte) (n : Nat) : CdPwr := { x with
  jtemp := b
  jmax := if x.jmax.toNat < b.toNat then b else x.jmax
  tlim := BitVec.ofNat 2 n
  stepCnt := if x.tlim.toNat < n then satAdd x.stepCnt 1 else x.stepCnt }

/-- A stack after a sample, at a level (14 R355). -/
def sampledStack (y : StackState) (b : Byte) (l : Nat) : StackState := { y with
  level := BitVec.ofNat 2 l
  temp := b
  tmax := if y.tmax.toNat < b.toNat then b else y.tmax
  thrCnt := if y.level.toNat < 2 ∧ 2 ≤ l then satAdd y.thrCnt 1 else y.thrCnt }

/-- A change of the power limit of every die that is up (18 R425). -/
def eachDie (f : CdPwr → BitVec 2 → CdPwr) (u : State) : State := (countFrom 0 4).foldl (fun (u : State) i =>
  let e : Fin 4 := Fin.ofNat 4 i
  if u.cdUp e then (u.setCdPwr e (f (u.cdPwr e) (u.cdTarget e))).retarget e else u) u

/-- A port that comes up (15 R360, R362). -/
def portUp (known : Nat → Nat → Port) (peer peerPort : Nat) (st : PortState) : Port := { known peer peerPort with
  st := st
  txSeq := 0
  rxSeq := 0
  nackSent := false
  nackSeq := 0
  failedReplays := 0
  replay := []
  credits := [(0, 64), (1, 64), (2, 8)]
  rxq := []
  loop := []
  turn := false }

/-- A lead after RECOVER (03 R96; 05 R148). -/
def recoveredQuad (l : Quad) : Quad := { l with
  queue := []
  bact := BBuf.empty
  bshd := BBuf.empty
  fault := false
  cause := 0
  nextSeq := 1
  restarted := true
  retSeq := l.accSeq
  aParked := false
  bParked := false
  drainParked := false }

/-- `QCPLBASE` written (05 R133). -/
def ringWritten (q : Quad) (value : Word) (restart : Bool) : RingState := {
  enable := value.getLsbD 0
  seqIrq := value.getLsbD 1
  hostIrq := value.getLsbD 2
  base := value.extractLsb' 12 52
  next := if restart then 0 else q.ring.next
  phase := if restart then true else q.ring.phase }

/-- Where a channel runs a descriptor of a transform: it is handed back at its end, or the channel stops (12 R290, R292, R294). -/
def MoverRuns (s : State) (m : MoverId) (x : Mover) (fuel : Nat) (ins : Instr) (xform : Nat) : Prop :=
  x.st = .run → x.desc ≠ [] → x.handing = none → dXform x.desc = xform → s.moverUp m = true → s.frozen = false →
    (∀ t, State.mvRun m fuel s = (none, t) → exec ins s = .next (t.handBack m 0))
    ∧ (∀ t w, State.mvRun m fuel s = (some w, t) → exec ins s = .next (t.stopMover m w))

/-! ## Registers -/

/-- How software reaches a field (00 R10). -/
inductive FieldAccess where
  | ro
  | rw
  | rc
  | w1c
deriving DecidableEq, Repr

/-- The fields of the registers that a read clears, or of which a write changes RW or W1C fields: lowest bit, width, access. A field of
which each half of the register holds a part stands in two pieces; FECCORR and the counts of QFRZ, which hold amounts that the
model leaves free (log entry 4), are not among them. -/
def regFields : Reg → List (Nat × Nat × FieldAccess)
  | .mcstat _ => [(0, 16, .ro), (16, 1, .w1c), (32, 16, .rc), (48, 16, .ro)]
  | .modpwr => [(0, 16, .ro), (16, 16, .ro), (32, 1, .ro), (33, 1, .w1c), (48, 16, .rc)]
  | .cdpwr _ => [(0, 2, .ro), (2, 2, .rw), (4, 2, .ro), (6, 1, .ro), (7, 1, .ro), (8, 8, .ro), (16, 8, .rc), (24, 8, .rc), (32, 8, .rc)]
  | .sistat => [(0, 4, .ro), (4, 1, .ro), (5, 1, .w1c), (6, 1, .ro), (7, 1, .ro), (8, 8, .ro), (16, 8, .ro), (24, 24, .ro)]
  | .tctl => [(8, 20, .rw), (28, 1, .rw)]
  | .tstat => [(0, 2, .ro), (2, 1, .ro), (3, 1, .ro), (4, 4, .ro), (8, 20, .ro), (28, 8, .ro), (36, 16, .rc)]
  | .tbarstat => [(0, 16, .ro), (16, 1, .w1c)]
  | .tred => [(0, 64, .rw)]
  | .tndeliv _ => [(0, 24, .rw)]
  | .tpstat _ => [(0, 2, .ro), (2, 1, .ro), (3, 1, .w1c), (4, 20, .ro), (24, 8, .rc), (32, 8, .rc)]
  | .snapstat => [(0, 3, .ro), (3, 1, .ro), (4, 1, .ro), (5, 1, .w1c), (6, 1, .w1c), (7, 1, .ro), (8, 4, .ro), (32, 32, .ro)]
  | .cbwstat => [(0, 32, .rc), (32, 32, .rc)]
  | .rollepoch => [(0, 32, .rw)]
  | .xferctl => [(0, 20, .rw), (32, 32, .rw)]
  | .rovl _ => [(0, 20, .rw), (20, 5, .rw), (25, 1, .rw), (32, 12, .rw)]
  | .pciestat => [(0, 4, .ro), (4, 5, .ro), (9, 3, .ro), (16, 16, .rc), (32, 16, .rc)]
  | .ridctx _ => [(0, 16, .rw), (16, 16, .rw), (32, 6, .rw), (38, 1, .rw)]
  | .segbase _ _ => [(0, 64, .rw)]
  | .seglimit _ _ => [(0, 64, .rw)]
  | .segperm _ _ => [(0, 1, .rw), (1, 1, .rw), (2, 1, .rw)]
  | .ctxtable _ _ => [(0, 4, .rw), (12, 40, .rw)]
  | .etuctl _ => [(0, 1, .rw), (1, 1, .rw)]
  | .etustat _ => [(0, 1, .ro), (16, 16, .rc), (32, 16, .rc)]
  | .fbstat _ => [(0, 1, .ro), (1, 1, .ro), (2, 9, .ro), (16, 16, .ro), (32, 16, .rc), (48, 16, .rc)]
  | .wdbase _ => [(0, 64, .rw)]
  | .wdlimit _ => [(0, 64, .rw)]
  | .wdstat _ => [(0, 1, .ro), (1, 1, .w1c), (2, 1, .w1c), (3, 1, .w1c), (16, 8, .ro)]
  | .mvring _ => [(0, 4, .rw), (6, 58, .rw)]
  | .sealstat _ => [(0, 16, .rc), (16, 8, .rc), (24, 13, .ro), (48, 16, .rc)]
  | .sestart _ => [(0, 32, .rw)]
  | .secount _ => [(0, 17, .rw)]
  | .sebuf _ => [(0, 52, .rw)]
  | .remapstat _ _ => [(0, 16, .ro), (16, 16, .ro), (32, 12, .ro), (48, 8, .rc)]
  | .therm _ _ => [(0, 8, .ro), (8, 8, .rc), (16, 2, .ro), (18, 1, .ro), (32, 16, .rc)]
  | .srseed _ _ => [(0, 64, .rw)]
  | .qrej _ => [(0, 8, .ro), (8, 8, .ro), (16, 16, .ro), (32, 16, .rc)]
  | .erej _ => [(0, 8, .ro), (8, 8, .ro), (16, 16, .ro), (32, 16, .rc)]
  | .comstat _ => [(0, 16, .rc), (16, 8, .rc), (24, 1, .ro), (25, 5, .ro), (32, 27, .ro)]
  | .fpstat _ => [(0, 3, .ro), (8, 20, .ro), (28, 4, .ro), (32, 16, .rc)]
  | .fpdrop _ => [(0, 16, .rc), (16, 16, .rc), (32, 16, .rc)]
  | _ => []

/-- A register with no field that a write changes (00 R10). -/
def readOnlyReg : Reg → Bool
  | .mcrec _ _ _ => true
  | .devid _ => true
  | .siactgen => true
  | .sishdgen => true
  | .tstat => true
  | .tnotq => true
  | .tredres _ => true
  | .snapcommit => true
  | .snapprog => true
  | .cbwstat => true
  | .snapward => true
  | .pciestat => true
  | .etustat _ => true
  | .fbstat _ => true
  | .mvstat _ _ => true
  | .sealstat _ => true
  | .seallast _ => true
  | .retq _ => true
  | .sestat _ => true
  | .remapstat _ _ => true
  | .remaplast _ _ => true
  | .therm _ _ => true
  | .arrcfg _ _ _ => true
  | .arrrep _ _ _ => true
  | .qstat _ => true
  | .qfrz _ => true
  | .qfree _ => true
  | .qseq _ => true
  | .qrej _ => true
  | .qcplidx _ => true
  | .tilestat _ => true
  | .seqstat _ _ => true
  | .seqpc _ _ => true
  | .efree _ => true
  | .estat _ => true
  | .erej _ => true
  | .ecplidx _ _ => true
  | .comstat _ => true
  | .fpstat _ => true
  | .fpdrop _ => true
  | _ => false

/-- A register of WO fields alone (00 R10). -/
def writeOnlyReg : Reg → Bool
  | .mcack _ => true
  | .sictl => true
  | .tbar => true
  | .tredctl => true
  | .snapctl => true
  | .hipi => true
  | .fbdone _ => true
  | .withdraw _ => true
  | .mvctl _ => true
  | .secmd _ => true
  | .qctl _ => true
  | .qpost _ => true
  | .tilectl _ => true
  | .seqdb _ _ => true
  | .seqrun _ _ => true
  | .epost _ => true
  | .ectl _ => true
  | .epostx _ _ => true
  | _ => false

/-- When a register takes a write whose value, with the fields not written, is `w`: segments and contexts in maintenance mode (12 R297),
a ring of an idle channel (12 R288), a state other than the reserved one (18 R425), and `TCTL` without an action (15 R383). -/
def takesWrite (s : State) (w : Nat) : Reg → Prop
  | .tctl => bits w 0 2 = 0
  | .cdpwr _ => bits w 2 2 ≠ 3
  | .segbase e _ => (s.etu e).maint = true
  | .seglimit e _ => (s.etu e).maint = true
  | .segperm e _ => (s.etu e).maint = true
  | .ctxtable e _ => (s.etu e).maint = true
  | .mvring m => (s.mover m).st = .idle
  | _ => True

/-- The session takes the request of type `m` as a new one: the port is open, the datagram is the protocol's and its tag verifies, it is
none that was answered before, its number goes on, nothing in it is malformed, and fewer than 8 requests of the session are outstanding
(17 R414 to R417). -/
def Admitted (s : State) (x : Session) (rq : VmpReq) (m : Nat) : Prop :=
  s.mgmtUp = true ∧ s.mgmt.rom = false ∧ s.mgmt.resumed = false ∧ s.session rq.sid = some x ∧ vmpAuthentic rq x.keys = true
  ∧ x.cache.find? (fun c => decide (c.1 = vmpSent rq)) = none ∧ x.lastSeq < rq.mseq ∧ vmpMalformed rq m = false
  ∧ s.outstanding rq.sid < 8

/-- The slow queue is empty and the controller executes the request at once (17 R417). -/
def Prompt (s : State) (rq : VmpReq) : Prop := s.mgmt.slow = [] ∧ rq.late = false

end Sys2Proof.Machine
end

