-- ==== Sys2Proof/Certificates/Slice0/Obligations.lean ====
section
/-! DEFINITION. The statements about the model, from the numbered rules of the specification. Each docstring names the rules; where a
statement rests on a choice of the model it names the entry of the assumption log. -/

open Sys2Proof Sys2Proof.Machine

/-- A step runs the command at the front of the queue on the rest; an empty queue lets the slow queue of the management controller
go on, or time pass (00 R10, 15 R373, 17 R417). It rests on the choices of log entries 1, 50. -/
def Obligations.StepRunsFront : Prop :=
  (∀ (s : State) (c : Instr) (rest : List Instr), step { s with pending := c :: rest } = exec c { s with pending := rest })
  ∧ (∀ (s : State) (sid : Nat) (op : SlowOp) (rest : List (Nat × SlowOp)), s.pending = [] → s.mgmt.slow = (sid, op) :: rest →
    step s = State.runSlow op { s with mgmt := { s.mgmt with slow := rest, resumed := true } })
  ∧ (∀ s : State, s.pending = [] → s.mgmt.slow = [] → step s = .next s.idle)

/-- Every command completes and leaves the queue of waiting commands as it is (00 R10). It rests on the choices of log entries 1,
2. -/
def Obligations.CommandsComplete : Prop :=
  ((∀ (c : Instr) (s t : State), exec c s = .next t → t.pending = s.pending)
   ∧ (∀ (s t : State) (c : Instr) (rest : List Instr), s.pending = c :: rest → step s = .next t → t.pending = rest))
  ∧ (∀ (c : Instr) (s : State), ∃ t, exec c s = .next t)

/-- Every step keeps memory in canonical form (01 R22, R31). It rests on the choices of log entries 1, 3. -/
def Obligations.StepKeepsMemory : Prop := ∀ s t : State, s.MemOk → step s = .next t → t.MemOk

/-- Sources, delivery and inter-processor interrupts of the HIC (17 R408, R409). -/
def Obligations.HostInterrupts : Prop :=
  ∀ (s : State) (src : Fin 1024) (value : Word),
    let h := mget Hirte.reset s.host.hirte src.val
    let entry (t : State) (x : Hirte) : State := { t with host := { t.host with hirte := mset Hirte.reset s.host.hirte src.val x } }
    let vectored (t : State) (core vec : Nat) : State := { t with
      host := { t.host with vectors := mset 0 t.host.vectors core (mget 0 t.host.vectors core ||| (BitVec.ofNat 256 1 <<< vec)) } }
    let v : Byte := value.extractLsb' 0 8
    let c : BitVec 6 := value.extractLsb' 8 6
    s.powered 2 →
      (src.val < 0xEC ∨ 0xFF < src.val → h.en = false → exec (.hicSourceEvent src) s = .next (entry s { h with pend := true }))
      ∧ (src.val < 0xEC ∨ 0xFF < src.val → h.en → exec (.hicSourceEvent src) s = .next
          (vectored (entry s { h with pend := false }) h.core.toNat h.vector.toNat))
      ∧ (0xEC ≤ src.val → src.val ≤ 0xFF → exec (.hicSourceEvent src) s = .next s)
      ∧ (value.getLsbD 14 → v.toNat < 0x20 → exec (.hirteWrite src value) s = .next s)
      ∧ (value.getLsbD 14 = false → exec (.hirteWrite src value) s = .next
          (entry s { h with vector := v, core := c, en := false }))
      ∧ (value.getLsbD 14 → 0x20 ≤ v.toNat → h.pend = false → exec (.hirteWrite src value) s = .next
          (entry s { h with vector := v, core := c, en := true }))
      ∧ (value.getLsbD 14 → 0x20 ≤ v.toNat → h.pend → exec (.hirteWrite src value) s = .next
          (vectored (entry s { vector := v, core := c, en := true, pend := false }) c.toNat v.toNat))
      ∧ (v.toNat < 0x20 → exec (.hipi value) s = .next s)
      ∧ (0x20 ≤ v.toNat → exec (.hipi value) s = .next (vectored s c.toNat v.toNat))

/-- The PCIe root port (17 R412, R413). It rests on the choices of log entries 6, 37, 49. -/
def Obligations.PcieRequests : Prop :=
  ∀ (s : State) (rid : BitVec 16) (va : Word) (size : Nat) (b : List Byte) (value : BitVec 32) (c : CoreId) (w : BitVec 5) (v : BitVec 3),
    let failed (t : State) : State := { t with host := { t.host with inFault := satAdd t.host.inFault 1 } }.report (mkRec 0 0xB000 0x19 1 0 0)
    let n := (value.extractLsb' 0 10).toNat
    let link (l : BitVec 4) (w : BitVec 5) (v : BitVec 3) : State :=
      { s with host := { s.host with lstate := l, width := w, speed := v } }.hicSource 0xEB
    s.powered 2 →
      (s.host.lstate = 2 →
        (∀ data, s.ridContext rid = none → exec (.pcieInboundRequest rid va size data) s = .next ((failed s).emit (.completion false [])))
        ∧ (∀ x r t, s.ridContext rid = some x → s.agentRead .hd (.uncached 2) x va.toNat size false = (.ok r, t) →
            exec (.pcieInboundRequest rid va size none) s = .next (t.emit (.completion true r)))
        ∧ (∀ x f t, s.ridContext rid = some x → s.agentRead .hd (.uncached 2) x va.toNat size false = (.error f, t) →
            exec (.pcieInboundRequest rid va size none) s = .next ((failed t).emit (.completion false [])))
        ∧ (∀ x l t, s.ridContext rid = some x → va ≠ 0x8000000000000000 ∨ b.length ≠ 4 →
            s.agentLocate .hd x .write (rangePieces va.toNat b.length) = (.ok l, t) →
            exec (.pcieInboundRequest rid va size (some b)) s = .next (t.agentScatter .hd (.uncached 2) l b))
        ∧ (∀ x f t, s.ridContext rid = some x → va ≠ 0x8000000000000000 ∨ b.length ≠ 4 →
            s.agentLocate .hd x .write (rangePieces va.toNat b.length) = (.error f, t) →
            exec (.pcieInboundRequest rid va size (some b)) s = .next (failed t))
        ∧ (s.ridContext rid = none → exec (.pcieMsi rid value) s = .next ((failed s).emit (.completion false [])))
        ∧ (∀ x, s.ridContext rid = some x → n < 0x100 → exec (.pcieMsi rid value) s = .next (failed s))
        ∧ (∀ x, s.ridContext rid = some x → 0x100 ≤ n →
            (s.snap.heldWrites.any (fun y => decide (y.1 = .hd) && decide (y.2.1 = 2)) = false →
              exec (.pcieMsi rid value) s = .next (s.hicSource n))
            ∧ (s.snap.heldWrites.any (fun y => decide (y.1 = .hd) && decide (y.2.1 = 2)) →
              exec (.pcieMsi rid value) s = .next { s with snap := { s.snap with heldMsi := s.snap.heldMsi ++ [n] } })))
      ∧ (∀ op m, (s.core c).wait = some (.pcie op m) →
          (∀ ok, exec (.pcieCompletion c ok b) s = .next (s.setCore c { s.core c with wait := some (.pcieDone ok (fitTo 0 m b)) }))
          ∧ exec (.pcieCompletionTimeout c) s = .next
            ({ s with host := { s.host with cplTo := satAdd s.host.cplTo 1 } }.setCore c
              { s.core c with wait := some (.pcieDone false (fitTo 0 m [])) }))
      ∧ (s.power.failStop = none → s.power.lost100 = false →
          exec (.pcieLinkEvent .training) s = .next (link 1 0 0)
          ∧ exec (.pcieLinkEvent (.up w v)) s = .next (link 2 w v)
          ∧ exec (.pcieLinkEvent .down) s = .next (link 0 0 0)
          ∧ exec (.pcieLinkEvent (.aer true)) s = .next (s.report (mkRec 0 0xB000 0x18 0 0 0))
          ∧ exec (.pcieLinkEvent (.aer false)) s = .next (s.report (mkRec 0 0xB000 0x19 1 0 0)))

/-- Register reads and writes, whole and by halves (00 R10, 01 R23, R24). It rests on the choices of log entries 4, 6, 49. -/
def Obligations.RegisterAccess : Prop :=
  ∀ (s : State) (addr : BitVec 52) (data : List Byte) (size : Nat),
    let a := addr.toNat
    let sh := 8 * (a % 8)
    let covers (n lo : Nat) : Prop := sh ≤ lo ∧ lo < sh + 8 * n
    (s.regOk a size →
      (s.regOf a = none → exec (.registerReadClear addr size) s = .next { s with busOut := List.replicate size 0 })
      ∧ ∀ r, s.regOf a = some r →
        let unread := if size = 8 then 0 else if a % 8 = 0 then 2 ^ 64 - 2 ^ 32 else 2 ^ 32 - 1
        let u := s.readClear unread r
        exec (.registerReadClear addr size) s = .next { u with busOut := leBytes size (s.regValue r / 2 ^ sh) }
        ∧ (∀ f ∈ regFields r, bits (u.regValue r) f.1 f.2.1 = if f.2.2 = .rc ∧ covers size f.1 then 0 else bits (s.regValue r) f.1 f.2.1)
        ∧ ((∀ f ∈ regFields r, f.2.2 ≠ .rc) → r ≠ .tnotq → (∀ b, r ≠ .retq b) → (∀ p, r ≠ .qfrz p) → u = s)
        ∧ (∀ p, r = .fpstat p → (u.port p).fecCorr = if covers size 48 then 0 else (s.corrected p).fecCorr)
        ∧ (∀ p, r = .qfrz p → (u.quad (s.lead p)).dryCnt = (if covers size 0 then 0 else (s.frozenCycles p).1)
            ∧ (u.quad (s.lead p)).drnCnt = if covers size 32 then 0 else (s.frozenCycles p).2)
        ∧ (r = .tnotq → u = if covers size 0 then s.popNotice.2 else s)
        ∧ (∀ b, r = .retq b → u = if covers size 0 then (s.popRetq b).2 else s))
    ∧ (s.regOk a data.length → ∀ r, s.regOf a = some r →
      let v := s.regValue r
      let w := if data.length = 8 then leNat data else if a % 8 = 0 then v / 2 ^ 32 * 2 ^ 32 + leNat data else v % 2 ^ 32 + 2 ^ 32 * leNat data
      ∃ t, exec (.registerWrite addr data) s = .next t
        ∧ (readOnlyReg r → t = s)
        ∧ (writeOnlyReg r → v = 0)
        ∧ (∀ d, r = .cdpwr d → bits w 2 2 = 3 → t = s)
        ∧ (takesWrite s w r → ∀ f ∈ regFields r, bits (t.regValue r) f.1 f.2.1 =
          if f.2.2 = .rw then bits w f.1 f.2.1
          else if f.2.2 = .w1c ∧ covers data.length f.1 ∧ bits w f.1 1 = 1 then 0
          else bits v f.1 f.2.1))

/-- Loading, validating, arming and applying an image (02 R55, R58, R59, R62, R63, R66). It rests on the choices of log entries 46,
65. -/
def Obligations.ImageStore : Prop :=
  ∀ (s : State) (off : Nat) (data : List Byte),
    let i := s.image
    let now (j : Image) : State := { s with image := j }
    let inForce : Prop := i.active ≠ [] ∧ i.noActive = false
    let fits : Prop := off + data.length ≤ 0x400000
    exec .sictlValidate s = .next (if i.shd = .loading then now { i with shd := .validating } else s)
    ∧ exec .sictlArm s = .next (if i.shd = .valid ∧ inForce then now { i with shd := .armed } else s)
    ∧ exec .sictlDisarm s = .next (if i.shd = .armed ∧ i.committed = false then now { i with shd := .valid } else s)
    ∧ exec .sictlClear s = .next
        (if i.shd = .armed then s
         else now (({ i with shd := .empty, selected := if i.selected = some true then some false else i.selected }).setShadow []))
    ∧ (fits → i.shd = .empty ∨ i.shd = .invalid ∨ i.shd = .retired → exec (.loadWindowWrite off data) s = .next
        (now (({ i with shd := .loading, loadPath := false }).setShadow (List.replicate off 0xFF ++ data))))
    ∧ (fits → i.shd = .loading → i.loadPath = false → off + data.length ≤ i.shadow.length → exec (.loadWindowWrite off data) s = .next
        (now (i.setShadow (i.shadow.take off ++ data ++ i.shadow.drop (off + data.length)))))
    ∧ (0x400000 < off + data.length ∨ (i.shd = .loading ∧ i.loadPath) ∨ i.shd = .validating ∨ i.shd = .valid ∨ i.shd = .armed
        ∨ i.shd = .resetPending → exec (.loadWindowWrite off data) s = .next s)
    ∧ (i.shd ≠ .validating → exec .imageValidationComplete s = .next s)
    ∧ (i.shd = .validating → exec .imageValidationComplete s = .next
        (match imageBad s.validation i.shadow with
         | some r => now { i with
             shd := .invalid
             rejCode := BitVec.ofNat 8 r.code
             rejType := BitVec.ofNat 8 r.type
             rejOffset := BitVec.ofNat 24 r.offset }
         | none => now { i with
             shd := if s.resetClassSame (imageSections i.shadow) then .valid else .resetPending
             rejCode := 0
             rejType := 0
             rejOffset := 0 }))
    ∧ (i.applying = false ∨ ¬inForce → exec .flipApplyDone s = .next s)
    ∧ (i.applying → inForce → ∃ t, exec .flipApplyDone s = .next t ∧ t.image.activeIsB = !i.activeIsB ∧ t.image.slotA = i.slotA
        ∧ t.image.slotB = i.slotB ∧ t.image.selSeq = i.selSeq + 1 ∧ t.image.shd = .retired ∧ t.image.hold = false)

/-- Input power, clocks, and power and thermal limits (18 R423, R424, R425, R426, R429, R437, 14 R355, 19 R449, 03 R87). It rests
on the choices of log entries 6, 48. -/
def Obligations.PowerAndThermal : Prop :=
  (∀ (s : State) (vin : BitVec 16) (header : Bool) (rail : Byte),
     let p := s.power
     let v := vin.toNat
     let counted := countedSample p vin v header
     let s1 : State := { s with power := counted }
     let calm : Prop := counted.low44 ≠ 10 ∧ (p.brownHold = false ∨ counted.high50 < 10000)
     (s.powered 0 = false → exec .powerOn s = .next { s with power := { p with domains := 1 } })
     ∧ (s.powered 0 → ∃ t, exec .powerLoss s = .next t ∧ t.mem = [] ∧ t.cores = [] ∧ t.image.secs = [] ∧ t.power.domains = 0
         ∧ t.tether = Tether.reset ∧ t.mgmt.sessions = [] ∧ t.fatalLog = [] ∧ t.image.slotA = s.image.slotA ∧ t.image.slotB = s.image.slotB
         ∧ t.image.keys = s.image.keys ∧ t.mgmt.keys = s.mgmt.keys ∧ t.calib = s.calib ∧ t.snap.cabinet = s.snap.cutCabinet
         ∧ t.mgmt.floor = s.mgmt.floor ∧ t.out = s.out ++ (if p.failstopLow = true then [.pin 0 true] else []) ∧ t.pending = s.pending)
     ∧ (s.powered 0 → exec .powerOn s = .next s)
     ∧ (s.powered 0 = false → exec .powerLoss s = .next s ∧ exec (.inputVoltageSample vin header) s = .next s
         ∧ exec (.refClockCheck true true) s = .next s)
     ∧ (s.powered 0 → calm → p.pfw = false → counted.low48 < 10 → counted.lowHeader < 2 →
         exec (.inputVoltageSample vin header) s = .next s1)
     ∧ (s.powered 0 → p.pfw → 4900 < v → header = false → p.brownHold = false ∨ counted.high50 < 10000 →
         exec (.inputVoltageSample vin header) s = .next { s with power := { counted with pfw := false } })
     ∧ (s.powered 0 → p.brownHold = false → counted.low44 ≠ 10 → p.pfw = false → 10 ≤ counted.low48 ∨ 2 ≤ counted.lowHeader →
         exec (.inputVoltageSample vin header) s = .next
           (({ s with power := { counted with pfw := true, pfwSeen := true, pfwCnt := satAdd p.pfwCnt 1 } }).injectStop 3 |>.hicSource 0xEA))
     ∧ (s.powered 0 → p.pfw → counted.low44 = 10 → ∃ t, exec (.inputVoltageSample vin header) s = .next t
         ∧ t.power.domains = 1 ∧ t.power.brownHold ∧ t.power.poweredDown ∧ t.mem = [])
     ∧ (s.powered 0 → 1 ≤ p.step → p.lost156 = false → p.lost100 = false →
         exec (.refClockCheck true true) s = .next s
         ∧ exec (.refClockCheck false true) s = .next ({ s with power := { p with lost156 := true } }.report (mkRec 0 0xC004 0x1B 3 0 0))
         ∧ exec (.refClockCheck true false) s = .next
           ((({ s with power := { p with lost100 := true }, host := { s.host with lstate := 0, width := 0, speed := 0 } } : State).hicSource 0xEB).report
             (mkRec 0 0xC003 0x19 1 0 0)))
     ∧ (s.powered 0 → p.step < 1 → ∀ a b, exec (.refClockCheck a b) s = .next s)
     ∧ (s.powered 0 = false ∨ p.step < 3 → exec (.regulatorFault rail) s = .next s)
     ∧ (p.failStop = none ∨ p.poweredDown → exec .failStopPowerDown s = .next s)
     ∧ (s.powered 0 → 3 ≤ p.step → exec (.regulatorFault rail) s = .next (s.report (mkRec 0 0xC001 0x16 3 0 rail.toNat)))
     ∧ (∀ cls, p.failStop = some cls → p.poweredDown = false → ∃ t, exec .failStopPowerDown s = .next t ∧ t.mem = [] ∧ t.cores = []
         ∧ t.power.poweredDown ∧ t.power.domains = p.domains &&& 3 ∧ t.fatalLog = s.fatalLog ∧ t.mgmt = s.mgmt))
  ∧ (∀ (s : State) (d : Fin 4) (b : Byte) (watts : BitVec 16) (m : MemSensor),
       let x := s.cdPwr d
       let step (lo dflt len : Nat) : Nat := if s.hasSec 11 = true then bits (s.secNat 11 0 8) lo len else dflt
       let t1 := step 24 95 8 - x.early.toNat
       let t2 := step 32 100 8 - x.early.toNat
       let hyst := step 40 3 4
       let n := if t2 ≤ b.toNat ∨ (2 ≤ x.tlim.toNat ∧ t2 ≤ b.toNat + hyst) then 2
         else if t1 ≤ b.toNat ∨ (1 ≤ x.tlim.toNat ∧ t1 ≤ b.toNat + hyst) then 1 else 0
       let sampled := sampledDie x b n
       let failed : CdPwr := { x with sensorFailed := true, tlim := 2, stepCnt := if x.tlim = 2 then x.stepCnt else satAdd x.stepCnt 1 }
       let y := s.stack (sensorKey m)
       let t := b.toNat + (s.sensor m).2.2.2
       let hotter := sampledStack y b
       let each := eachDie
       let window (g : Nat) : State := { s with power := { s.power with pin := watts, goodWindows := g } }
       (∀ g, s.cdUp d → x.idle = false → x.target = some g → exec (.pstepComplete d) s = .next (s.setCdPwr d { x with pstate := g, target := none }))
       ∧ (s.cdUp d = false ∨ x.idle ∨ x.target = none → exec (.pstepComplete d) s = .next s)
       ∧ (s.cdUp d → s.frozen = false →
           (∀ z ∈ s.cores, z.1 < 96 → z.1 / 24 = d.val → z.2.st = .halted ∨ z.2.st = .reset ∨ z.2.st = .run ∧ z.2.wait = some .interrupt) →
           (∀ z ∈ s.quads, z.1 / 384 = d.val → z.2.queue = [] ∧ z.2.fault = false) →
           (∀ z ∈ s.engines, z.1 / 7 = d.val → z.2.st = .idle) →
           (∀ z ∈ s.movers, (if z.1 < 192 then z.1 / 48 else (z.1 - 192) / 16) = d.val → z.2.st = .idle) →
           exec (.cdIdleEntry d) s = .next (s.setCdPwr d { x with idle := true }))
       ∧ (∀ z ∈ s.cores, z.1 < 96 → z.1 / 24 = d.val → z.2.st = .dfault ∨ z.2.st = .run ∧ z.2.wait ≠ some .interrupt →
           exec (.cdIdleEntry d) s = .next s)
       ∧ (s.cdUp d → x.sensorFailed = false → b.toNat + x.early.toNat < 110 →
           exec (.cdThermalSample d (some b)) s = .next ((s.setCdPwr d sampled).retarget d))
       ∧ (s.cdUp d → x.sensorFailed = false → 110 ≤ b.toNat + x.early.toNat → exec (.cdThermalSample d (some b)) s = .next
           (((s.setCdPwr d sampled).retarget d).report (mkRec (d.val + 1) 0xC002 0x15 3 0 b.toNat)))
       ∧ (s.cdUp d → x.sensorFailed = false → exec (.cdThermalSample d none) s = .next
           (((s.setCdPwr d failed).retarget d).report (mkRec (d.val + 1) 0xC002 0x14 1 0 0)))
       ∧ (s.cdUp d → x.sensorFailed → exec (.cdThermalSample d none) s = .next s
           ∧ (b.toNat + x.early.toNat < 110 → exec (.cdThermalSample d (some b)) s = .next ((s.setCdPwr d (sampledDie x b 2)).retarget d)))
       ∧ (s.cdUp d = false → ∀ o, exec (.cdThermalSample d o) s = .next s)
       ∧ (s.powered (s.sensor m).2.2.1 → y.sensFail = false →
           let ends (l : Nat) : Prop :=
             let u := s.setStack (sensorKey m) (hotter l)
             let r : State := if l = 3 ∧ y.level ≠ 3 then u.report (mkRec (s.sensor m).1 (s.sensor m).2.1 0x15 3 0 b.toNat) else u
             exec (.stackThermalSample m (some b)) s = .next (if s.anyThrottled = u.anyThrottled then r else r.sendSlow u.anyThrottled)
           (105 ≤ t ∨ y.level = 3 → ends 3)
           ∧ (t < 105 → y.level ≠ 3 → 95 ≤ t ∨ (y.level = 2 ∧ 92 ≤ t) → ends 2)
           ∧ (t < 95 → y.level ≠ 3 → t < 92 ∨ y.level ≠ 2 → 85 ≤ t ∨ (y.level ≠ 0 ∧ 82 ≤ t) → ends 1)
           ∧ (t < 82 ∨ (t < 85 ∧ y.level = 0) → y.level ≠ 3 → ends 0))
       ∧ (s.powered (s.sensor m).2.2.1 = false → ∀ o, exec (.stackThermalSample m o) s = .next s)
       ∧ (s.powered 0 = false → exec (.powerWindow watts) s = .next s)
       ∧ (s.powered 0 →
           (4800 < watts.toNat → exec (.powerWindow watts) s = .next (each (fun z g => { z with
             plim := true, powLim := BitVec.ofNat 2 (min 2 (g.toNat + 1)), stepCnt := if z.plim then z.stepCnt else satAdd z.stepCnt 1 }) (window 0)))
           ∧ (4560 ≤ watts.toNat → watts.toNat ≤ 4800 → exec (.powerWindow watts) s = .next (window 0))
           ∧ (watts.toNat < 4560 → s.power.goodWindows < 9 → exec (.powerWindow watts) s = .next (window (s.power.goodWindows + 1)))
           ∧ (watts.toNat < 4560 → 9 ≤ s.power.goodWindows → 
             exec (.powerWindow watts) s = .next (each (fun z _ => { z with plim := false, powLim := 0 }) (window 0)))))

/-- Start-up, activation and module reset (18 R427, R428, R429, 02 R61, 19 R440, R446, R447, R448). It rests on the choices of log
entries 5, 6, 23, 42, 48, 54, 55, 65. -/
def Obligations.StartUp : Prop :=
  ∀ (s : State) (locked : BitVec 8) (lanes : List (LinkId × Bool)) (sris : Bool),
    let p := s.power
    let i := s.image
    let may (n : Nat) : Prop := s.powered 0 ∧ p.step + 1 = n ∧ p.failStop = none ∧ s.mgmt.rom = false ∧ (n < 3 ∨ p.pfw = false)
      ∧ (n = 1 → 10000 ≤ p.high50)
    let noActive (j : Image) (t : State) : Prop := t = { s with
      image := { j with selected := none, noActive := true, unfit := true, secs := mset [] [] 4 (s.sec 4) }
      power := { p with step := 5 } }
    (may 1 → exec .startUpStep1 s = .next
      ((({ s with
          fresh := s.fresh + 1
          mgmt := { s.mgmt with attest := (countFrom 0 64).map (Config.freeByte s.fresh) }
          power := { p with step := 1, startUps := p.startUps + 1, counter := 0 } } : State).emit (.pin 1 false)).driveFailstop))
    ∧ (may 2 → ∃ t, exec (.startUpStep2 locked) s = .next t ∧ (match s.mgmt.fwMgmt.choose s.mgmt.floor with
        | none => t = { s with mgmt := { s.mgmt with rom := true } }
        | some b => t.power.step = 2 ∧ t.mgmt.rom = false ∧ t.mgmt.fwMgmt.running = some b ∧ t.calRun = s.calib
          ∧ (i.shd ≠ .validating →
              if i.shd = .resetPending ∧ imageVerifies i.keys i.shadow = true then t.image.selected = some true ∧ t.image.unfit = false
              else t.image.selected = some false ∧ t.image.unfit = !imageVerifies i.keys i.active)))
    ∧ (may 3 →
        let u : State := { s with calRun := s.calib }
        let on : BitVec 10 := (if p.brownHold = true then 0x3F5 else 0x3F7) ||| (p.domains &&& 3)
        match Config.rails.find? (fun r => (s.calib.good 3 r).isNone) with
        | some r => exec (.startUpStep3 lanes) s = .next (u.report (mkRec 0 0xC001 0x16 3 0 r))
        | none => match lanes.find? (fun x => (s.calib.good 5 (linkIds x.1).1).isNone || !x.2) with
          | some x => exec (.startUpStep3 lanes) s = .next
              (({ u with power := { p with domains := on } } : State).report (mkRec (linkEnd x.1 true).1 (linkEnd x.1 true).2 0x0F 3 0 0))
          | none => ∃ t, exec (.startUpStep3 lanes) s = .next t ∧ t.power.step = 3 ∧ t.mgmt.ppr = [] ∧ t.mem = s.mem ∧ t.power.domains = on
              ∧ ∀ q : Fin 12, (t.port q).st = if s.portRole q = 0 then .off else .training)
    ∧ (may 4 → ∃ t, exec (.startUpStep4 sris) s = .next t ∧ (match s.mgmt.fwHost.choose s.mgmt.floor with
        | none => t = s
        | some b => t.power.step = 4 ∧ t.mgmt.fwHost.running = some b ∧ t.powered 3 ∧ t.host.sris = sris))
    ∧ (may 5 → i.selected ≠ some true ∨ i.shd ≠ .resetPending → ∃ t, exec .activation s = .next t
        ∧ (if i.unfit = false ∧ imageVerifies i.keys i.active = true then
             t.power.step = 5 ∧ t.image.activeIsB = i.activeIsB ∧ t.image.noActive = false ∧ t.image.shd = i.shd
           else noActive i t))
    ∧ (may 5 → i.selected = some true → i.shd = .resetPending → ∃ t, exec .activation s = .next t
        ∧ (if imageVerifies i.keys i.shadow = true then
             t.power.step = 5 ∧ t.image.activeIsB = !i.activeIsB ∧ t.image.selSeq = i.selSeq + 1 ∧ t.image.shd = .retired
             ∧ t.image.slotA = i.slotA ∧ t.image.slotB = i.slotB ∧ t.image.noActive = false
           else if i.unfit = false ∧ imageVerifies i.keys i.active = true then
             t.power.step = 5 ∧ t.image.activeIsB = i.activeIsB ∧ t.image.noActive = false ∧ t.image.shd = .invalid
           else noActive { i with shd := .invalid } t))
    ∧ (¬ may 1 → exec .startUpStep1 s = .next s)
    ∧ (¬ may 2 → exec (.startUpStep2 locked) s = .next s)
    ∧ (¬ may 3 → exec (.startUpStep3 lanes) s = .next s)
    ∧ (¬ may 4 → exec (.startUpStep4 sris) s = .next s)
    ∧ (¬ may 5 → exec .activation s = .next s)
    ∧ (p.failStop = some 0x15 → exec .mrstN s = .next s)
    ∧ (s.powered 0 → p.failStop ≠ some 0x15 → ∃ t, exec .mrstN s = .next t ∧ t.power.step = min p.step 2
        ∧ t.power.failStop = none ∧ t.power.domains = p.domains &&& 3 ∧ t.calib = s.calib ∧ i.keys = t.image.keys)

/-- Management sessions, retransmissions, subscriptions and heartbeats (17 R414, R415, R416, R417, R419). It rests on the choices
of log entries 6, 13, 50. -/
def Obligations.Sessions : Prop :=
  ∀ (s : State) (slot : Nat) (msg sig1 sig2 : List Byte) (rq : VmpReq) (x : Session),
    let signed := beBytes 1 slot ++ msg
    let init := signed ++ sig1 ++ sig2
    let key := mget MgmtKey.reset s.mgmt.keys slot
    let ed := (msg.drop 1248).take 32
    let ml := msg.drop 1280
    let wellFormed : Prop := slot ≤ 3 ∧ sig1.length = 64 ∧ sig2.length = 3309
    let known := s.mgmt.sessions.find? (fun y => decide (y.init.1 = init))
    let dropped : State := { s with mgmt := { s.mgmt with dropped := s.mgmt.dropped + 1 } }
    let taken := s.modSession rq.sid (fun y => { y with lastSeq := rq.mseq })
    s.mgmtUp → s.mgmt.rom = false → s.mgmt.resumed = false →
      (wellFormed → msg.length = 1248 → known = none → s.mgmt.slow = [] → s.mgmt.sessions.length < 4 → ∀ claim,
        (key.set → exec (.sessionInit claim slot msg sig1 sig2) s = .next
          (if Config.ed25519Verify key.ed signed sig1 ∧ Config.mlDsaVerify key.ml signed sig2 = true then s.accept slot key.role init
           else s.refuseInit 5))
        ∧ (key.set = false → exec (.sessionInit claim slot msg sig1 sig2) s = .next (s.refuseInit 5)))
      ∧ (wellFormed → msg.length = 3232 → known = none → s.mgmt.slow = [] → s.mgmt.sessions.length < 4 →
        (s.anyMgmtKey = false → exec (.sessionInit true slot msg sig1 sig2) s = .next
          (if Config.ed25519Verify ed signed sig1 ∧ Config.mlDsaVerify ml signed sig2 = true then
             ({ s with mgmt := { s.mgmt with
               keys := mset MgmtKey.reset s.mgmt.keys 0 { ed := ed, ml := ml, role := 0, set := true } } } : State).accept 0 0 init
           else s.refuseInit 5))
        ∧ exec (.sessionInit false slot msg sig1 sig2) s = .next (s.refuseInit 3))
      ∧ (wellFormed → msg.length = 1248 → known = none → s.mgmt.slow = [] → 4 ≤ s.mgmt.sessions.length → ∀ claim,
        exec (.sessionInit claim slot msg sig1 sig2) s = .next (s.refuseInit 1))
      ∧ (∀ y claim, known = some y → exec (.sessionInit claim slot msg sig1 sig2) s = .next (s.emitVmp y.init.2))
      ∧ (known = none → s.mgmt.slow ≠ [] → ∀ claim, exec (.sessionInit claim slot msg sig1 sig2) s = .next
        ((s.emitVmp (datagrams none 4 3 0 0 1 1 [])).queueSlow 0 (.sessionInit claim slot msg sig1 sig2)))
      ∧ exec (.sessionIdleTimeout rq.sid) s = .next { s with mgmt := { s.mgmt with
          sessions := s.mgmt.sessions.filter (fun y => !(decide (y.sid = rq.sid) && !y.subscribed)) } }
      ∧ (Admitted s x rq 3 →
        (Prompt s rq → exec (.sessionClose rq) s = .next ((taken.answer x rq 0 []).endSessions (fun y => decide (y.sid = x.sid))))
        ∧ (¬ Prompt s rq → exec (.sessionClose rq) s = .next ((taken.ack x rq).queueSlow rq.sid (.sessionClose rq))))
      ∧ (s.session rq.sid = some x →
        (let r : State := { s with mgmt := { s.mgmt with resumed := true } }
         exec (.sessionClose rq) r = .next ((s.answer x rq 0 []).endSessions (fun y => decide (y.sid = x.sid))))
        ∧ (vmpAuthentic rq x.keys = false → exec (.sessionClose rq) s = .next dropped)
        ∧ (∀ r, vmpAuthentic rq x.keys → x.cache.find? (fun c => decide (c.1 = vmpSent rq)) = some r →
          exec (.sessionClose rq) s = .next (s.emitVmp r.2))
        ∧ (vmpAuthentic rq x.keys → x.cache.find? (fun c => decide (c.1 = vmpSent rq)) = none →
          (rq.mseq ≤ x.lastSeq → exec (.sessionClose rq) s = .next dropped)
          ∧ (x.lastSeq < rq.mseq →
            (vmpMalformed rq 3 → exec (.sessionClose rq) s = .next (taken.answer x rq 2 []))
            ∧ (vmpMalformed rq 3 = false → 8 ≤ s.outstanding rq.sid → exec (.sessionClose rq) s = .next (taken.answer x rq 1 []))
            ∧ (x.role ≠ 0 → ∀ op, exec (.repair rq op) s = .next (taken.answer x rq 2 [])))))
      ∧ (Admitted s x rq 0x60 → Prompt s rq → s.power.failStop = none →
        (x.subscribed ∨ (s.mgmt.sessions.filter (fun y => y.subscribed)).length < 2 → exec (.subscribe rq) s = .next
          ((taken.modSession x.sid (fun y => { y with subscribed := true })).answer x rq 0 []))
        ∧ (x.subscribed = false → 2 ≤ (s.mgmt.sessions.filter (fun y => y.subscribed)).length →
          exec (.subscribe rq) s = .next (taken.answer x rq 3 [])))
      ∧ (let b := s.sampleCounter
         let c : State := { b with mgmt := { b.mgmt with heartbeats := b.mgmt.heartbeats + 1 } }
         exec .mgmtHeartbeatTimer s = .next ((c.mgmt.sessions.filter (fun y => y.subscribed)).foldl
          (fun (u : State) y => (u.sendVmp y 0x61 0 0 0 c.beatPayload).1) c))

/-- What each management request does and answers (17 R415, R417, R418, R420, R421, 02 R58, R69, 14 R349, R354, 18 R429, R437). It
rests on the choices of log entries 6, 13, 46, 48, 50, 54, 55, 61, 65. -/
def Obligations.ManagementRequests : Prop :=
  (∀ (s : State) (rq : VmpReq) (x : Session) (addr : BitVec 52) (size off slot : Nat) (data ed ml : List Byte) (role : Byte)
     (type inst : BitVec 16) (stamp : Word) (epoch : BitVec 32),
     let t := s.modSession rq.sid (fun y => { y with lastSeq := rq.mseq })
     let ok (u : State) (d : List Byte) : Host.Outcome State Fault Refusal := .next (u.answer x rq 0 d)
     let no (st : Nat) : Host.Outcome State Fault Refusal := .next (t.answer x rq st [])
     let fast (m : Nat) : Prop := Admitted s x rq m
     let slow (m : Nat) : Prop := Admitted s x rq m ∧ Prompt s rq
     x.role = 0 → s.power.failStop = none →
       (fast 0x10 →
         exec (.readStatus rq 0) s = ok t.sampleCounter t.sampleCounter.beatPayload
         ∧ exec (.readStatus rq 1) s = ok { t with fatalNew := 0 } (t.fatalLog.flatMap (fun r => (countFrom 0 8).flatMap (fun i => beBytes 8 (r.word i))))
         ∧ ∀ b : Byte, 1 < b.toNat → exec (.readStatus rq b) s = no 2)
       ∧ (fast 0x11 → exec (.readReg rq addr size) s =
           (if t.inMgmtBlock addr.toNat size = true then ok t (fitTo 0 size (mget [] s.mgmt.net addr.toNat)).reverse
            else match t.mgmtAccess addr.toNat size with
             | some n => no n
             | none => ok (t.regRead addr.toNat size).2 (t.regRead addr.toNat size).1.reverse))
       ∧ (slow 0x12 → exec (.writeReg rq addr data) s =
           (if t.inMgmtBlock addr.toNat data.length = true then ok { t with mgmt := { t.mgmt with net := mset [] s.mgmt.net addr.toNat data } } []
            else match t.mgmtAccess addr.toNat data.length with
             | some n => no n
             | none => ok (t.regWrite none addr.toNat data) []))
       ∧ (slow 0x20 →
           (∀ i, off + data.length ≤ 0x400000 → data.length ≤ 1344 → s.image.write true off data = some i →
             exec (.imageWrite rq off data) s = ok { t with image := i } [])
           ∧ (off + data.length ≤ 0x400000 → data.length ≤ 1344 → s.image.write true off data = none → exec (.imageWrite rq off data) s = no 1)
           ∧ (0x400000 < off + data.length ∨ 1344 < data.length → exec (.imageWrite rq off data) s = no 2))
       ∧ (fast 0x21 →
           (off + size ≤ 0x400000 → size ≤ 1344 →
             exec (.imageRead rq true off size) s = ok t (fitTo 0xFF size ((s.image.shadow.drop off).take size))
             ∧ exec (.imageRead rq false off size) s = ok t (fitTo 0xFF size ((s.image.active.drop off).take size)))
           ∧ ∀ b, 0x400000 < off + size ∨ 1344 < size → exec (.imageRead rq b off size) s = no 2)
       ∧ (slow 0x22 →
           exec (.imageCtl rq 1) s = ok { t with image := s.image.validate } []
           ∧ exec (.imageCtl rq 2) s = ok { t with image := s.image.arm } []
           ∧ exec (.imageCtl rq 4) s = ok { t with image := s.image.disarm } []
           ∧ exec (.imageCtl rq 8) s = ok { t with image := s.image.clear } [])
       ∧ (slot ≤ 3 → ed.length = 32 → ml.length = 1952 →
           (slow 0x23 → exec (.keyslotSet rq slot ed ml) s =
             ok { t with image := { s.image with keys := mset ([], []) s.image.keys slot (ed, ml) } } [])
           ∧ (slow 0x24 → role.toNat ≤ 1 → exec (.mgmtkeySet rq slot role ed ml) s = .next
             ((({ t with mgmt := { t.mgmt with
               keys := mset MgmtKey.reset s.mgmt.keys slot { ed := ed, ml := ml, role := role, set := true } } } : State).answer x rq 0 []).endSessions
               (fun y => decide (y.slot = slot)))))
       ∧ (fast 0x30 →
           (∀ e, s.calib.find type.toNat inst.toNat = some e → exec (.calRead rq (some (type, inst))) s = ok t (s.calib.dataOf e))
           ∧ exec (.calRead rq none) s = ok t (s.calib.entries.flatMap (fun e => e.bytes ++ s.calib.dataOf e)))
       ∧ (slow 0x31 →
           let n := (((s.calib.find type.toNat inst.toNat).map (·.writes)).getD 0) + 1
           exec (.calWrite rq type inst stamp data) s = (match s.calib.put type.toNat inst.toNat 1 n stamp.toNat data with
             | some c => ok { t with calib := c } []
             | none => no 7))
       ∧ (fast 0x38 → ∀ r, size ≤ 1344 → s.powered 1 →
           s.snap.cabinet.reverse.find? (fun c => c.complete && decide (c.epoch = epoch)) = some r → off + size ≤ r.data.length →
           exec (.cabinetRead rq epoch off size) s = ok t ((r.data.drop off).take size)))
  ∧ (∀ (s : State) (rq : VmpReq) (x : Session) (m : MemSensor) (row : Nat) (spare : Fin 8) (die off : Nat) (host b : Bool) (data nonce : List Byte),
       let t := s.modSession rq.sid (fun y => { y with lastSeq := rq.mseq })
       let done (u : State) (d : List Byte) : State := u.answer x rq 0 d
       let ok (u : State) (d : List Byte) : Host.Outcome State Fault Refusal := .next (u.answer x rq 0 d)
       let no (st : Nat) : Host.Outcome State Fault Refusal := .next (t.answer x rq st [])
       let f := s.firmware host
       let z := s.stack (sensorKey m)
       let slow (m : Nat) : Prop := Admitted s x rq m ∧ Prompt s rq
       let live : Prop := s.power.failStop = none
       x.role = 0 →
         (slow 0x40 →
           (s.quiescent ∨ s.image.noActive ∨ s.power.failStop.isSome → exec (.testHold rq) s =
             ok (({ t with mgmt := { t.mgmt with testHold := true } } : State).setMaint true) [])
           ∧ (s.quiescent = false → s.image.noActive = false → live → exec (.testHold rq) s = no 3))
         ∧ (slow 0x41 →
           (s.mgmt.testHold → s.power.failStop ≠ some 0x15 → exec (.testRelease rq) s = .next (done t []).moduleReset)
           ∧ (s.mgmt.testHold → s.power.failStop = some 0x15 → exec (.testRelease rq) s = no 3)
           ∧ (s.mgmt.testHold = false → live → exec (.testRelease rq) s = no 6)
           ∧ (s.mgmt.testHold = false → s.power.failStop.isSome → exec (.testRelease rq) s = no 4))
         ∧ (slow 0x42 →
           (s.mgmt.testHold = false → ∀ op, exec (.repair rq op) s = no 6)
           ∧ (s.mgmt.testHold →
             (∀ d k, m = .stack d k →
               exec (.repair rq (.readCam m row)) s = ok t (match z.spareOf row with
                 | some i => beBytes 1 (8 + i)
                 | none => beBytes 1 0)
               ∧ exec (.repair rq (.writeCam m row (some spare))) s = ok (t.setStack (sensorKey m) { z with cam := mset 8 z.cam row spare.val }) []
               ∧ exec (.repair rq (.writeCam m row none)) s = ok (t.setStack (sensorKey m) { z with cam := mset 8 z.cam row 8 }) [])
             ∧ (∀ k, m = .module k → exec (.repair rq (.readCam m row)) s = no 2 ∧ ∀ i, exec (.repair rq (.writeCam m row i)) s = no 2)
             ∧ exec (.repair rq (.bist m)) s = ok (t.bist m) []))
         ∧ (slow 0x43 → live → die ≤ 4 → exec (.pprCommit rq die) s = ok { t with mgmt := { t.mgmt with ppr := addNew die s.mgmt.ppr } } [])
         ∧ (slow 0x43 → s.power.failStop.isSome → exec (.pprCommit rq die) s = no 4)
         ∧ (slow 0x58 →
           (s.power.failStop ≠ some 0x15 → exec (.moduleReset rq 1) s = .next (done t []).moduleReset)
           ∧ (s.power.failStop = some 0x15 → exec (.moduleReset rq 1) s = no 3)
           ∧ (∀ kind : Byte, kind ≠ 1 → kind ≠ 2 → exec (.moduleReset rq kind) s = no 2)
           ∧ (live → 3 ≤ s.power.step → s.quiescent ∨ s.mgmt.testHold ∨ s.image.noActive →
             exec (.hostReset rq) s = .next (done t []).hostReset ∧ exec (.moduleReset rq 2) s = .next (done t []).hostReset)
           ∧ (s.quiescent = false → s.mgmt.testHold = false → s.image.noActive = false →
             exec (.hostReset rq) s = no 3 ∧ exec (.moduleReset rq 2) s = no 3))
         ∧ (slow 0x48 → live → data.length ≤ 1344 → exec (.fwStage rq host off data) s = ok (t.setFirmware host (f.stage off data)) [])
         ∧ (slow 0x49 → live →
           exec (.fwActivate rq host) s =
             (if f.okSlot s.mgmt.floor f.inactive = true then ok (t.setFirmware host { f with preferB := f.inactive }) [] else no 5)
           ∧ (f.running = some b → exec (.fwCommit rq host) s =
             ok { t with mgmt := { t.mgmt with floor := max s.mgmt.floor (Config.fwVersion (f.slot b)) } } []))
         ∧ (slow 0x50 → live → nonce.length = 32 → exec (.attest rq nonce) s = ok t (t.attestReport nonce))
         ∧ (slow 0x51 → exec (.identity rq) s = ok t (certChains s.mgmt.attest)))

/-- Results of the address class (07 R453). -/
def Obligations.AddressClassResults : Prop :=
  ∀ (c : CoreId) (p : Pfx) (ad aa ab : Fin 16) (dd : Fin 32) (src : XImm) (x : XReg) (n : ShiftCount) (m : MemOp),
    GivesA (.adda c p ad aa src) c p (ximmShape src 4 5) ad
      (fun k w => w.toNat = ((k.getA aa).toNat + (ximmValue src p k).toNat) % 2 ^ 64)
    ∧ GivesA (.suba c p ad aa x) c p (dShape 4 x.dregs) ad
      (fun k w => (w.toNat + (k.getX x).toNat) % 2 ^ 64 = (k.getA aa).toNat)
    ∧ GivesA (.shla c p ad aa n) c p (dShape 4 (shiftDregs n)) ad
      (fun k w => w.toNat = (k.getA aa).toNat * 2 ^ ((shiftValue n k).toNat % 64) % 2 ^ 64)
    ∧ GivesA (.shra c p ad aa n) c p (dShape 4 (shiftDregs n)) ad
      (fun k w => w.toNat = (k.getA aa).toNat / 2 ^ ((shiftValue n k).toNat % 64))
    ∧ GivesD (.cmpeqa c p dd aa ab) c p (dShape 4 [dd]) dd (fun k w => w = if k.getA aa = k.getA ab then 1 else 0)
    ∧ GivesD (.cmpltua c p dd aa ab) c p (dShape 4 [dd]) dd
      (fun k w => w = if (k.getA aa).toNat < (k.getA ab).toNat then 1 else 0)
    ∧ GivesA (.mova c p ad src) c p (ximmShape src 3 4) ad (fun k w => w = ximmValue src p k)
    ∧ GivesD (.movda c p dd aa) c p (dShape 3 [dd]) dd (fun k w => w = k.getA aa)
    ∧ GivesA (.lea c p ad m) c p (dShape (2 + m.bytes) m.dregs) ad (fun k w => w = eaOf m k)

/-- Results of addition, subtraction and multiplication (07 R453, R183). -/
def Obligations.AddSubMulResults : Prop :=
  ∀ (c : CoreId) (p : Pfx) (dd da db : Fin 32) (i : Word),
    GivesD (.add c p dd da db) c p (dShape 4 [dd, da, db]) dd
      (fun k w => w.toNat = ((k.getD da).toNat + (k.getD db).toNat) % 2 ^ 64)
    ∧ GivesD (.sub c p dd da db) c p (dShape 4 [dd, da, db]) dd
      (fun k w => (w.toNat + (k.getD db).toNat) % 2 ^ 64 = (k.getD da).toNat)
    ∧ GivesD (.addi c p dd da i) c p (immShape 5 [dd, da]) dd
      (fun k w => w.toNat = ((k.getD da).toNat + (immSigned p 2 i).toNat) % 2 ^ 64)
    ∧ GivesD (.mul c p dd da db) c p (dShape 4 [dd, da, db]) dd
      (fun k w => w.toNat = (k.getD da).toNat * (k.getD db).toNat % 2 ^ 64)
    ∧ GivesD (.mulh c p dd da db) c p (dShape 4 [dd, da, db]) dd
      (fun k w => w.toInt = (k.getD da).toInt * (k.getD db).toInt / 2 ^ 64)
    ∧ GivesD (.mulhu c p dd da db) c p (dShape 4 [dd, da, db]) dd
      (fun k w => w.toNat = (k.getD da).toNat * (k.getD db).toNat / 2 ^ 64)

/-- Results of division and remainder with their corners (07 R453). -/
def Obligations.DivisionResults : Prop :=
  ∀ (c : CoreId) (p : Pfx) (dd da db : Fin 32),
    GivesD (.div c p dd da db) c p (longShape 4 [dd, da, db]) dd (fun k w =>
      (k.getD db = 0 → w.toInt = -1)
      ∧ ((k.getD da).toInt = -(2 ^ 63) → (k.getD db).toInt = -1 → w.toInt = -(2 ^ 63))
      ∧ (k.getD db ≠ 0 → ¬((k.getD da).toInt = -(2 ^ 63) ∧ (k.getD db).toInt = -1) →
          w.toInt = Int.tdiv (k.getD da).toInt (k.getD db).toInt))
    ∧ GivesD (.rem c p dd da db) c p (longShape 4 [dd, da, db]) dd (fun k w =>
      (k.getD db = 0 → w = k.getD da)
      ∧ ((k.getD da).toInt = -(2 ^ 63) → (k.getD db).toInt = -1 → w = 0)
      ∧ (k.getD db ≠ 0 → w.toInt = Int.tmod (k.getD da).toInt (k.getD db).toInt))
    ∧ GivesD (.divu c p dd da db) c p (longShape 4 [dd, da, db]) dd (fun k w =>
      (k.getD db = 0 → w.toNat = 2 ^ 64 - 1) ∧ (k.getD db ≠ 0 → w.toNat = (k.getD da).toNat / (k.getD db).toNat))
    ∧ GivesD (.remu c p dd da db) c p (longShape 4 [dd, da, db]) dd (fun k w =>
      (k.getD db = 0 → w = k.getD da) ∧ (k.getD db ≠ 0 → w.toNat = (k.getD da).toNat % (k.getD db).toNat))

/-- Results of logic and shifts (07 R453, R183). -/
def Obligations.LogicShiftResults : Prop :=
  ∀ (c : CoreId) (p : Pfx) (dd da db : Fin 32) (i : Word) (n : Byte),
    GivesD (.and c p dd da db) c p (dShape 4 [dd, da, db]) dd
      (fun k w => ∀ j, w.getLsbD j = ((k.getD da).getLsbD j && (k.getD db).getLsbD j))
    ∧ GivesD (.or c p dd da db) c p (dShape 4 [dd, da, db]) dd
      (fun k w => ∀ j, w.getLsbD j = ((k.getD da).getLsbD j || (k.getD db).getLsbD j))
    ∧ GivesD (.xor c p dd da db) c p (dShape 4 [dd, da, db]) dd
      (fun k w => ∀ j, w.getLsbD j = ((k.getD da).getLsbD j ^^ (k.getD db).getLsbD j))
    ∧ GivesD (.andi c p dd da i) c p (immShape 5 [dd, da]) dd
      (fun k w => ∀ j, w.getLsbD j = ((k.getD da).getLsbD j && (decide (j < 8 * p.immSize 2) && i.getLsbD j)))
    ∧ GivesD (.ori c p dd da i) c p (immShape 5 [dd, da]) dd
      (fun k w => ∀ j, w.getLsbD j = ((k.getD da).getLsbD j || (decide (j < 8 * p.immSize 2) && i.getLsbD j)))
    ∧ GivesD (.xori c p dd da i) c p (immShape 5 [dd, da]) dd
      (fun k w => ∀ j, w.getLsbD j = ((k.getD da).getLsbD j ^^ (decide (j < 8 * p.immSize 2) && i.getLsbD j)))
    ∧ GivesD (.shl c p dd da db) c p (dShape 4 [dd, da, db]) dd
      (fun k w => w.toNat = (k.getD da).toNat * 2 ^ ((k.getD db).toNat % 64) % 2 ^ 64)
    ∧ GivesD (.shr c p dd da db) c p (dShape 4 [dd, da, db]) dd
      (fun k w => w.toNat = (k.getD da).toNat / 2 ^ ((k.getD db).toNat % 64))
    ∧ GivesD (.sar c p dd da db) c p (dShape 4 [dd, da, db]) dd
      (fun k w => w.toInt = (k.getD da).toInt / 2 ^ ((k.getD db).toNat % 64))
    ∧ GivesD (.shli c p dd da n) c p (dShape 4 [dd, da]) dd
      (fun k w => w.toNat = (k.getD da).toNat * 2 ^ (n.toNat % 64) % 2 ^ 64)
    ∧ GivesD (.shri c p dd da n) c p (dShape 4 [dd, da]) dd (fun k w => w.toNat = (k.getD da).toNat / 2 ^ (n.toNat % 64))
    ∧ GivesD (.sari c p dd da n) c p (dShape 4 [dd, da]) dd (fun k w => w.toInt = (k.getD da).toInt / 2 ^ (n.toNat % 64))

/-- Results of compares, minimum, maximum, moves, EXT, CLZ and POPC (07 R453, R183, R192). -/
def Obligations.CompareMoveResults : Prop :=
  ∀ (c : CoreId) (p : Pfx) (dd da db : Fin 32) (i : Word) (n : Byte),
    GivesD (.cmpeq c p dd da db) c p (dShape 4 [dd, da, db]) dd (fun k w => w = if k.getD da = k.getD db then 1 else 0)
    ∧ GivesD (.cmplt c p dd da db) c p (dShape 4 [dd, da, db]) dd
      (fun k w => w = if (k.getD da).toInt < (k.getD db).toInt then 1 else 0)
    ∧ GivesD (.cmpltu c p dd da db) c p (dShape 4 [dd, da, db]) dd
      (fun k w => w = if (k.getD da).toNat < (k.getD db).toNat then 1 else 0)
    ∧ GivesD (.min c p dd da db) c p (dShape 4 [dd, da, db]) dd (fun k w => w.toInt = min (k.getD da).toInt (k.getD db).toInt)
    ∧ GivesD (.max c p dd da db) c p (dShape 4 [dd, da, db]) dd (fun k w => w.toInt = max (k.getD da).toInt (k.getD db).toInt)
    ∧ GivesD (.mov c p dd da) c p (dShape 3 [dd, da]) dd (fun k w => w = k.getD da)
    ∧ GivesD (.movi c p dd i) c p (immShape 4 [dd]) dd
      (fun _ w => w.toInt = toSigned (8 * p.immSize 2) (i.toNat % 2 ^ (8 * p.immSize 2)))
    ∧ (n.toNat < 8 → n.toNat % 4 ≠ 3 → GivesD (.ext c p dd da n) c p (dShape 4 [dd, da]) dd (fun k w =>
        let b := 8 * 2 ^ (n.toNat % 4)
        if n.getLsbD 2 then w.toNat = (k.getD da).toNat % 2 ^ b else w.toInt = toSigned b ((k.getD da).toNat % 2 ^ b)))
    ∧ GivesD (.clz c p dd da) c p (dShape 3 [dd, da]) dd (fun k w =>
        w.toNat ≤ 64 ∧ (∀ j, 64 - w.toNat ≤ j → (k.getD da).getLsbD j = false)
        ∧ (w.toNat < 64 → (k.getD da).getLsbD (63 - w.toNat)))
    ∧ GivesD (.popc c p dd da) c p (dShape 3 [dd, da]) dd
      (fun k w => w.toNat = ((List.range 64).filter (fun j => (k.getD da).getLsbD j)).length)

/-- Results of BSWAP, rotates, BEXT and BDEP (07 R453). -/
def Obligations.BitManipulationResults : Prop :=
  ∀ (c : CoreId) (p : Pfx) (dd da db : Fin 32) (n : Byte),
    GivesD (.bswap c p dd da) c p (dShape 4 [dd, da]) dd
      (fun k w => ∀ j < 64, w.getLsbD j = (k.getD da).getLsbD (56 - j / 8 * 8 + j % 8))
    ∧ GivesD (.rol c p dd da db) c p (dShape 5 [dd, da, db]) dd
      (fun k w => ∀ j < 64, w.getLsbD ((j + (k.getD db).toNat % 64) % 64) = (k.getD da).getLsbD j)
    ∧ GivesD (.ror c p dd da db) c p (dShape 5 [dd, da, db]) dd
      (fun k w => ∀ j < 64, w.getLsbD j = (k.getD da).getLsbD ((j + (k.getD db).toNat % 64) % 64))
    ∧ GivesD (.roli c p dd da n) c p (dShape 5 [dd, da]) dd
      (fun k w => ∀ j < 64, w.getLsbD ((j + n.toNat % 64) % 64) = (k.getD da).getLsbD j)
    ∧ GivesD (.bext c p dd da db) c p (dShape 5 [dd, da, db]) dd (fun k w =>
        let at' := (List.range 64).filter (fun j => (k.getD db).getLsbD j)
        ∀ j < 64, w.getLsbD j = (match at'[j]? with
          | some q => (k.getD da).getLsbD q
          | none => false))
    ∧ GivesD (.bdep c p dd da db) c p (dShape 5 [dd, da, db]) dd (fun k w =>
        let at' := (List.range 64).filter (fun j => (k.getD db).getLsbD j)
        (∀ q < 64, (k.getD db).getLsbD q = false → w.getLsbD q = false)
        ∧ ∀ (j q : Nat), at'[j]? = some q → w.getLsbD q = (k.getD da).getLsbD j)

/-- Results and flags of scalar floating point (06 R452, 07 R185, R453). It rests on the choices of log entries 30, 31. -/
def Obligations.ScalarFloatResults : Prop :=
  ∀ (c : CoreId) (p : Pfx) (dd da db dc : Fin 32) (i : Byte),
    let f := scalarFmt p
    let sh (n : Nat) (d : List (Fin 32)) : Shape := { bytes := n, d := d, types := scalarTypes }
    let long (n : Nat) (d : List (Fin 32)) : Shape := { sh n d with unpaired := true }
    let v (k : Core) (r : Fin 32) : FVal := f.ofD (k.getD r)
    let gives (k k1 : Core) (x : FVal × Flg) : Prop := k1 = (k.flag x.2).setD dd (f.toD x.1)
    Completes (.fadd c p dd da db) c p (long 4 [dd, da, db]) (fun k k1 => gives k k1 (f.add k.rnd (v k da) (v k db)))
    ∧ Completes (.fsub c p dd da db) c p (long 4 [dd, da, db]) (fun k k1 => gives k k1 (f.add k.rnd (v k da) (v k db).neg))
    ∧ Completes (.fmul c p dd da db) c p (long 4 [dd, da, db]) (fun k k1 => gives k k1 (f.mul k.rnd (v k da) (v k db)))
    ∧ Completes (.fma c p dd da db dc) c p (long 5 [dd, da, db, dc]) (fun k k1 => gives k k1 (f.fma k.rnd (v k da) (v k db) (v k dc)))
    ∧ Completes (.fdiv c p dd da db) c p (long 4 [dd, da, db]) (fun k k1 => gives k k1 (f.div k.rnd (v k da) (v k db)))
    ∧ Completes (.fsqrt c p dd da) c p (long 3 [dd, da]) (fun k k1 => gives k k1 (f.sqrt k.rnd (v k da)))
    ∧ Completes (.fmin c p dd da db) c p (sh 4 [dd, da, db]) (fun k k1 => k1 = k.setD dd (f.toD ((v k da).pick false (v k db))))
    ∧ Completes (.fmax c p dd da db) c p (sh 4 [dd, da, db]) (fun k k1 => k1 = k.setD dd (f.toD ((v k da).pick true (v k db))))
    ∧ Completes (.fabs c p dd da) c p (sh 3 [dd, da]) (fun k k1 => k1 = k.setD dd (f.toD (v k da).abs))
    ∧ Completes (.fneg c p dd da) c p (sh 3 [dd, da]) (fun k k1 => k1 = k.setD dd (f.toD (v k da).neg))
    ∧ GivesD (.fcmpeq c p dd da db) c p (sh 4 [dd, da, db]) dd (fun k w => w = if (v k da).eq (v k db) = some true then 1 else 0)
    ∧ GivesD (.fcmplt c p dd da db) c p (sh 4 [dd, da, db]) dd (fun k w => w = if (v k da).lt (v k db) = some true then 1 else 0)
    ∧ GivesD (.fcmple c p dd da db) c p (sh 4 [dd, da, db]) dd
      (fun k w => w = if (v k da).lt (v k db) = some true ∨ (v k da).eq (v k db) = some true then 1 else 0)
    ∧ (fcvtCodes.contains i.toNat →
        Completes (.fcvt c p dd da i) c p { bytes := 4, d := [dd, da], types := fcvtCodes } (fun k k1 =>
          let x := fcvtAny i.toNat (typeCode p) k.rnd ((k.getD da).toNat % 2 ^ fmtWidth i.toNat)
          k1 = (k.flag x.2).setD dd (scalarToD (typeCode p) x.1)))

/-- NOP, HALT, MODE, IFENCE and MFENCE (06 R161, R165, R179, 08 R217, R219). It rests on the choices of log entries 10, 11. -/
def Obligations.SystemInstructions : Prop :=
  ∀ (c : CoreId) (p : Pfx) (m : Byte) (s : State),
    (Runs s c p { bytes := 1 } →
      exec (.nop c p) s = .next (s.completed c p { bytes := 1 } (s.seen c) .seq)
      ∧ ((s.core c).status.pl ≠ .user → ∃ k, k = { s.seen c with st := .halted, pair := none, haltReq := false }
          ∧ exec (.halt c p) s = .next (s.completed c p { bytes := 1 } k .seq))
      ∧ (exec (.ifence c p) s = if (s.seen c).sbuf = [] then .next (s.completed c p { bytes := 1 } (s.seen c) .seq)
          else .next (s.modCore c (fun k => { k with wait := some .storeBuffer })))
      ∧ ((s.seen c).sbuf ≠ [] → exec (.mfence c p) s = .next (s.modCore c (fun k => { k with wait := some .storeBuffer })))
      ∧ ((s.seen c).sbuf = [] → s.missServed c →
          exec (.mfence c p) s = .next (s.modCore c (fun k => { k with wait := some .fence })))
      ∧ ((s.seen c).sbuf = [] → s.missServed c = false →
          exec (.mfence c p) s = if (s.seen c).maint = true then .next (s.modCore c (fun k => { k with wait := some .fence }))
            else .next (s.completed c p { bytes := 1 } (s.seen c) .seq)))
    ∧ (Runs s c p { bytes := 2, noSlot := true } → m.toNat < 2 → (s.core c).shCnt = 0 →
        exec (.mode c p m) s = .next (s.completed c p { bytes := 2, noSlot := true }
          (match c with
            | .hazia _ => s.seen c
            | .sycen _ _ => { s.seen c with
                status := { (s.seen c).status with mode := m.getLsbD 0 }
                shCnt := 2, shMode := (s.core c).status.mode }) .seq))

/-- WAIT holds until an interrupt is pending, then takes it or goes on (R233). It rests on the choices of log entries 10, 11. -/
def Obligations.WaitHoldsUntilInterrupt : Prop :=
  ∀ (c : CoreId) (p : Pfx) (s : State),
    let k := s.core c
    let m := tagMode c k
    let k1 := (k.view m).withLoad (k.oldLoad m)
    (Runs s c p { bytes := 1 } →
      (s.interruptPending c k = false → exec (.wait c p) s = .next (s.modCore c (fun k => { k with wait := some .interrupt })))
      ∧ (s.interruptPending c k → k.unmasked →
          exec (.wait c p) s = .next (s.takeInterrupt c { k1 with slot := .none } (k.resumeAfter 1)))
      ∧ (s.interruptPending c k → k.unmasked = false →
          exec (.wait c p) s = .next (s.completed c Pfx.plain { bytes := 1 } (s.seen c) .seq)))
    ∧ (k.st = .run → k.wait = some .interrupt → s.coreFrozen c = false → (k.haltReq && k.haltsHere) = false → s.interruptPending c k →
        (k.unmasked → exec (.waitWake c) s = .next (s.takeInterrupt c { k1 with slot := .none } (k.resumeAfter 1)))
        ∧ (k.unmasked = false → exec (.waitWake c) s = .next (s.completed c Pfx.plain { bytes := 1 } (s.seen c) .seq)))
    ∧ (k.st = .halted → exec (.interruptAccept c) s = .next s ∧ exec (.waitWake c) s = .next s)

/-- Access to control registers and to the bank of another level (06 R155, R156, R157, R160). It rests on the choices of log entry
4. -/
def Obligations.ControlAndBankAccess : Prop :=
  (∀ (c : CoreId) (p : Pfx) (x : XReg) (num : BitVec 16) (s : State),
     Runs s c p { bytes := 4, d := x.dregs } →
     (ctlRefusal (s.seen c) num.toNat none = none → num ≠ 2 →
       exec (.mfc c p x num) s = .next (s.completed c p { bytes := 4, d := x.dregs }
         ((s.seen c).setX x (s.readCtl c (s.seen c) num.toNat)) .seq))
     ∧ (num = 2 → ∃ n : Word, exec (.mfc c p x num) s = .next (s.bump.completed c p { bytes := 4, d := x.dregs }
         ({ s.seen c with cycles := n }.setX x n) .seq))
     ∧ (ctlRefusal (s.seen c) num.toNat (some ((s.seen c).getX x)) = none →
       exec (.mtc c p num x) s = .next (s.completed c p { bytes := 4, d := x.dregs }
         ((s.seen c).writeCtl num.toNat ((s.seen c).getX x)) .seq))
     ∧ (∀ cause detail, ctlRefusal (s.seen c) num.toNat (some ((s.seen c).getX x)) = some (cause, detail) →
       ((cause = 1 ∧ detail = 0 ∧ ctlReadLevel num.toNat = none) ∨ (cause = 2 ∧ detail = 1 ∧ ctlReadLevel num.toNat ≠ none))
       ∧ exec (.mtc c p num x) s = .next (s.trapHere c (s.core c) cause detail none)))
  ∧ (∀ (c : CoreId) (p : Pfx) (x : XReg) (b : BitVec 16) (lvl : Level) (r : BankReg) (s : State),
       bankOperand b = some (lvl, r) → Runs s c p { bytes := 4, d := x.dregs ++ bankDregs b } →
       let sh : Shape := { bytes := 4, d := x.dregs ++ bankDregs b }
       let k := s.seen c
       let may (write : Bool) : Prop := (k.status.pl = .machine ∧ lvl ≠ .machine)
         ∨ (k.status.pl = .supervisor ∧ lvl = .user ∧ ¬(write ∧ r.isShadowStack))
       let detail : Nat := if k.status.pl = .user then 0 else 2
       (may false → exec (.mfb c p x b) s = .next (s.completed c p sh (k.setX x (match r with
           | .a n => k.getAL lvl n.val
           | .d n => k.getDL lvl n.val
           | .ctl n => ((k.bank lvl).ctl n).getD 0)) .seq))
       ∧ (may true → exec (.mtb c p b x) s = .next (s.completed c p sh (match r with
           | .a n => k.setAL lvl n.val (k.getX x)
           | .d n => k.setDL lvl n.val (k.getX x)
           | .ctl n => k.setBank lvl ((k.bank lvl).setCtl n (k.getX x))) .seq))
       ∧ (¬ may false → exec (.mfb c p x b) s = .next (s.trapHere c (s.core c) 0x02 detail none))
       ∧ (¬ may true → exec (.mtb c p b x) s = .next (s.trapHere c (s.core c) 0x02 detail none)))

/-- Commands whose effect is a trap entry (09 R220, R223, R235, 17 R409). It rests on the choices of log entry 10. -/
def Obligations.TrapsAreTaken : Prop :=
  ∀ (c : CoreId) (p : Pfx) (i : Byte) (form : IllegalForm) (cond : FetchCondition) (va : Word) (n : Fin 64) (s : State),
    let k := s.core c
    let left (c : CoreId) : State := s.modCore c (fun k => { k with wait := none, tensor := none })
    (Runs s c p { bytes := 1 } → exec (.breakI c p) s = .next (s.trapHere c k 0x03 0 none))
    ∧ (Runs s c p { bytes := 2 } → k.pend = none →
        exec (.trap c p i) s = .next (s.takeTrap c { s.seen c with slot := .none } 0x04 i.toNat none
          (k.resumeAfter (2 + p.bytes)) false))
    ∧ (s.executes c → exec (.reservedOpcode c form) s = .next (s.trapHere c k 0x01 0 none))
    ∧ (s.executes c → exec (.instructionFetchFault c cond va) s
        = .next (s.trapHere c k (fetchTrap cond).1 (fetchTrap cond).2 (some { va := va, write := false, fetch := true })))
    ∧ (s.acceptable c k → k.tensor = none → (∀ len, k.wait ≠ some (.maint len)) →
        exec (.interruptAccept c) s = .next ((left c).takeInterrupt c ((left c).core c) ((left c).core c).resumeHere))
    ∧ (∀ len, s.acceptable c k → k.wait = some (.maint len) → exec (.interruptAccept c) s = .next (s.takeInterrupt c
        { (k.view (tagMode c k)).withLoad (k.oldLoad (tagMode c k)) with slot := .none } (k.resumeAfter len)))
    ∧ (s.acceptable (.hazia n) (s.core (.hazia n)) → (s.core (.hazia n)).tensor = none →
        (∀ len, (s.core (.hazia n)).wait ≠ some (.maint len)) →
        exec (.haziaInterruptAccept n) s = .next ((left (.hazia n)).takeInterrupt (.hazia n) ((left (.hazia n)).core (.hazia n))
          ((left (.hazia n)).core (.hazia n)).resumeHere))

/-- RTE restores the saved level, mask, mode, shadow and program counter (09 R234). It rests on the choices of log entry 29. -/
def Obligations.ReturnFromTrap : Prop :=
  ∀ (c : CoreId) (p : Pfx) (s : State), Runs s c p { bytes := 1, noSlot := true } →
    let k := s.seen c
    let t := k.trapRegs k.status.pl
    let hz : Bool := match c with
      | .hazia _ => true
      | .sycen _ _ => false
    (k.status.pl = .user → exec (.rte c p) s = .next (s.trapHere c (s.core c) 0x02 0 none))
    ∧ (k.status.pl ≠ .user → t.ppl ≠ 3 → t.shcnt ≠ 3 →
        (t.origin.toNat ≤ t.ppl.toNat ∨ (k.status.pl = .machine ∧ k.status.elevate)) →
        (k.bank (levelOf t.ppl.toNat)).plb = false → k.pend = none → (s.core c).pend = none →
        ∃ k1, exec (.rte c p) s = .next (s.setCore c k1)
          ∧ k1.status = { k.status with elevate := false, pl := levelOf t.ppl.toNat, gm := t.pgm, mode := hz || t.pmode }
          ∧ k1.pc = t.pc ∧ k1.slot = (if t.pb then .taken t.target else .none) ∧ k1.shCnt = (if hz then 0 else t.shcnt)
          ∧ (t.shcnt ≠ 0 → hz = false → k1.shMode = t.shmode) ∧ k1.resv = none ∧ (∀ l, k1.bank l = k.bank l) ∧ k1.v = k.v ∧ k1.p = k.p)
    ∧ (k.status.pl ≠ .user → t.ppl ≠ 3 → t.shcnt ≠ 3 → t.ppl.toNat < t.origin.toNat →
        ¬(k.status.pl = .machine ∧ k.status.elevate) → exec (.rte c p) s = .next (s.trapHere c (s.core c) 0x02 3 none))

/-- Branches, jumps and the hardware loops (06 R166, R167, R169, 07 R453). It rests on the choices of log entries 17, 51. -/
def Obligations.BranchAndLoopResults : Prop :=
  (∀ (c : CoreId) (p : Pfx) (s : State) (dn da db : Fin 32) (an aa ab : Fin 16) (x : BitVec 16) (y : BitVec 32) (slot : Fin 17),
     let k := s.seen c
     let branch := BranchClaim c p s k slot
     branch (.br c p (.d16 x) slot) { bytes := 3 } True (fun n => n + x.signExtend 64)
     ∧ branch (.br c p (.d32 y) slot) { bytes := 5 } True (fun n => n + y.signExtend 64)
     ∧ branch (.jmp c p an slot) { bytes := 2 } True (fun _ => k.getA an)
     ∧ branch (.bz c p dn x slot) (dShape 4 [dn]) (k.getD dn = 0) (fun n => n + x.signExtend 64)
     ∧ branch (.bnz c p dn x slot) (dShape 4 [dn]) (k.getD dn ≠ 0) (fun n => n + x.signExtend 64)
     ∧ branch (.beq c p da db x slot) (dShape 5 [da, db]) (k.getD da = k.getD db) (fun n => n + x.signExtend 64)
     ∧ branch (.bne c p da db x slot) (dShape 5 [da, db]) (k.getD da ≠ k.getD db) (fun n => n + x.signExtend 64)
     ∧ branch (.blt c p da db x slot) (dShape 5 [da, db]) ((k.getD da).toInt < (k.getD db).toInt) (fun n => n + x.signExtend 64)
     ∧ branch (.bge c p da db x slot) (dShape 5 [da, db]) ((k.getD db).toInt ≤ (k.getD da).toInt) (fun n => n + x.signExtend 64)
     ∧ branch (.bltu c p da db x slot) (dShape 5 [da, db]) ((k.getD da).toNat < (k.getD db).toNat) (fun n => n + x.signExtend 64)
     ∧ branch (.bgeu c p da db x slot) (dShape 5 [da, db]) ((k.getD db).toNat ≤ (k.getD da).toNat) (fun n => n + x.signExtend 64)
     ∧ branch (.beqa c p aa ab x slot) { bytes := 5 } (k.getA aa = k.getA ab) (fun n => n + x.signExtend 64)
     ∧ branch (.bltua c p aa ab x slot) { bytes := 5 } ((k.getA aa).toNat < (k.getA ab).toNat) (fun n => n + x.signExtend 64))
  ∧ (∀ (c : CoreId) (p : Pfx) (lv : Fin 3) (n : LoopCount) (e16 : BitVec 16) (s : State),
       let sh : Shape := match n with
         | .imm _ => { bytes := 5, imm := 2, e8 := false, noSlot := true }
         | .reg r => { bytes := 4, d := [r], noSlot := true }
       Runs s c p sh →
       let k := s.seen c
       let b := k.bank k.status.pl
       let cnt : Word := match n with
         | .imm i => immZero p 2 i
         | .reg r => k.getD r
       let nxt := k.pc + BitVec.ofNat 64 (sh.len p)
       let e := nxt + e16.zeroExtend 64
       let bad : Prop := b.act.getLsbD lv.val ∨ 2 ^ 32 ≤ cnt.toNat ∨ e.toNat ≤ nxt.toNat ∨ (b.endLevel e).isSome
       let b1 := { b with
         lstart := mset 0 b.lstart lv.val nxt, lend := mset 0 b.lend lv.val e, lcount := mset 0 b.lcount lv.val (cnt.extractLsb' 0 32) }
       (bad → exec (.loop c p lv n e16) s = .next (s.trapHere c (s.core c) 0x07 0 none))
       ∧ (¬bad → cnt = 0 → exec (.loop c p lv n e16) s = .next (s.completed c p sh (k.setBank k.status.pl b1) (.skip e)))
       ∧ (¬bad → cnt ≠ 0 → exec (.loop c p lv n e16) s = .next (s.completed c p sh
           (k.setBank k.status.pl { b1 with act := b1.act ||| (BitVec.ofNat 3 1 <<< lv.val) }) .seq)))

/-- CALL and CALLR push on both stacks (09 R240). It rests on the choices of log entries 19, 51. -/
def Obligations.CallResults : Prop :=
  ∀ (c : CoreId) (p : Pfx) (disp : BitVec 32) (an : Fin 16) (slot : Fin 17) (s s1 : State) (l1 l2 : List (Nat × Nat)) (reg : Bool),
    let sh : Shape := { bytes := if reg then 2 else 5, noSlot := true }
    let i : Instr := if reg then .callr c p an slot else .call c p disp slot
    let k := s.seen c
    let b := k.bank k.status.pl
    let nxt := k.pc + BitVec.ofNat 64 (sh.len p)
    let ret := nxt + BitVec.ofNat 64 slot.val
    let target := if reg then k.getA an else nxt + disp.signExtend 64
    let entry (l : List (Nat × Nat)) : StoreEntry := { pieces := splitPieces l (leBytes 8 ret.toNat), nt := false, old := false }
    let k2 := { k with sbuf := k.sbuf ++ [entry l1, entry l2] }
    Runs s c p sh → misplaced k (sh.len p) slot = false → misalignedShadow b = none →
    (b.ssBase.toNat ≤ b.ssPtr.toNat → b.ssPtr.toNat + 8 ≤ b.ssLimit.toNat →
      s.locateTwo c k b.ssPtr (k.getA 15 - 8) { acc := .write, size := 8 } = (.ok (l1, l2), s1) →
      (k.sbuf.length ≤ 6 →
        exec i s = .next (s.ended s1 c p sh
          ((k2.setBank k.status.pl { b with ssPtr := b.ssPtr + 8 }).setA 15 (k.getA 15 - 8)) (.taken target false)))
      ∧ (6 < k.sbuf.length → exec i s = .next (s1.modCore c (fun k => { k with wait := some .full }))))
    ∧ (b.ssPtr.toNat < b.ssBase.toNat ∨ b.ssLimit.toNat < b.ssPtr.toNat + 8 → exec i s = .next (s.trapHere c (s.core c) 0x06 0 none))

/-- RET compares both return addresses (09 R240, R241). It rests on the choices of log entries 19, 51. -/
def Obligations.ReturnChecksBothStacks : Prop :=
  ∀ (c : CoreId) (p : Pfx) (slot : Fin 17) (s s1 s2 s3 : State) (l1 l2 : List (Nat × Nat)) (d1 d2 : List Byte),
    let sh : Shape := { bytes := 1, noSlot := true }
    let k := s.seen c
    let b := k.bank k.status.pl
    Runs s c p sh → misplaced k (sh.len p) slot = false → misalignedShadow b = none →
    (b.ssBase.toNat + 8 ≤ b.ssPtr.toNat → b.ssPtr.toNat ≤ b.ssLimit.toNat →
      s.locateTwo c k (b.ssPtr - 8) (k.getA 15) { acc := .read, size := 8 } = (.ok (l1, l2), s1) →
      s1.loadAt c k l1 (b.ssPtr - 8) false = .ok s2 d1 → s2.loadAt c k l2 (k.getA 15) false = .ok s3 d2 →
      (d1 = d2 → exec (.ret c p slot) s = .next (s.ended s3 c p sh
          ((k.setBank k.status.pl { b with ssPtr := b.ssPtr - 8 }).setA 15 (k.getA 15 + 8)) (.taken (BitVec.ofNat 64 (leNat d1)) false)))
      ∧ (d1 ≠ d2 → exec (.ret c p slot) s = .next (s3.trapHere c (s3.core c) 0x05 0 none)))
    ∧ (b.ssPtr.toNat < b.ssBase.toNat + 8 ∨ b.ssLimit.toNat < b.ssPtr.toNat →
        exec (.ret c p slot) s = .next (s.trapHere c (s.core c) 0x06 1 none))

/-- Results of LD and LDS (06 R162, R163, 07 R192). It rests on the choices of log entries 12, 32, 51. -/
def Obligations.LoadResults : Prop :=
  ∀ (c : CoreId) (p : Pfx) (mw : MemWidth) (x : XReg) (dd : Fin 32) (m : MemOp) (s s1 : State) (data : List Byte),
    let k := s.seen c
    let sh (d : List (Fin 32)) : Shape := { bytes := 2 + m.bytes, d := d ++ m.dregs, nt := true, ar := true }
    let ends (d : List (Fin 32)) (w : PendWrite) : State :=
      s.ended s1 c p (sh d) { k with pend := some w, closed := !tagMode c (s.core c) } .seq
    s.coreLoad c k (eaOf m k) { acc := .read, size := mw.size } p.nt = .ok s1 data →
    (Runs s c p (sh x.dregs) → widthOk mw x →
        exec (.ld c p mw x m) s = .next (ends x.dregs (match x with
          | .a n => .a k.status.pl n.val (BitVec.ofNat 64 (leNat data))
          | .d n => .d k.status.pl n.val (BitVec.ofNat 64 (leNat data)))))
    ∧ (Runs s c p (sh [dd]) → mw ≠ .d →
        exec (.lds c p mw dd m) s = .next (ends [dd] (.d k.status.pl dd.val (BitVec.ofInt 64 (toSigned (8 * mw.size) (leNat data))))))
    ∧ (Runs s c p (sh x.dregs) → widthOk mw x = false → exec (.ld c p mw x m) s = .next (s.trapHere c (s.core c) 0x01 0 none))

/-- A store enters the buffer, and the oldest store is written (08 R215, R217, 13 R316, 17 R412). It rests on the choices of log
entries 6, 32, 37, 51, 64. -/
def Obligations.StoresReachMemory : Prop :=
  (∀ (c : CoreId) (p : Pfx) (mw : MemWidth) (x : XReg) (m : MemOp) (s s1 : State) (l : List (Nat × Nat)),
     let k := s.seen c
     let sh : Shape := { bytes := 2 + m.bytes, d := x.dregs ++ m.dregs, nt := true, ar := true }
     Runs s c p sh → widthOk mw x →
     let data := leBytes mw.size (k.getX x).toNat
     let pa := (l.headD (0, 0)).1
     let config : Prop := s1.kindAt pa = .ecam
     let answered (ok : Bool) : Prop := ∃ d, (s1.core c).wait = some (.pcieDone ok d)
     s.locate c k (eaOf m k) { acc := .write, size := data.length, store := true } = (.ok l, s1) →
     (¬config → k.sbuf.length < 8 → exec (.st c p mw x m) s = .next (s.ended s1 c p sh
         { k with sbuf := k.sbuf ++ [{ pieces := splitPieces l data, nt := p.nt, old := false }] } .seq))
     ∧ (¬config → 8 ≤ k.sbuf.length → exec (.st c p mw x m) s = .next (s1.modCore c (fun k => k.waiting sh .full)))
     ∧ (config → answered true → exec (.st c p mw x m) s = .next (s.ended s1 c p sh k .seq))
     ∧ (config → answered false → exec (.st c p mw x m) s = .next (s1.trapHere c (s1.core c) 0x0D 0
         (some { va := eaOf m k, write := true, fetch := false })))
     ∧ (config → (∀ ok, ¬answered ok) → s1.deviceStoreWaits k = false →
         (rootOffset pa = none → exec (.st c p mw x m) s = .next ((s1.emit (.pcie pa data.length (some data))).modCore c
           (fun k => k.waiting sh (.pcie pa data.length))))
         ∧ (∀ off, rootOffset pa = some off → exec (.st c p mw x m) s = .next (s.ended (s1.rootWrite off data) c p sh k .seq))))
  ∧ (∀ (c : CoreId) (s : State) (a : Nat) (data : List Byte) (nt old : Bool) (rest : List StoreEntry),
       (s.core c).sbuf = { pieces := [(a, data)], nt := nt, old := old } :: rest → s.missServed c = false → data ≠ [] → (s.kindAt a).normal → (s.core c).st ≠ .reset →
       (∀ ln ∈ linesOf a data.length, s.ownsLine c ln) →
       ∃ t, exec (.storeBufferDrain c) s = .next t ∧ (t.core c).sbuf = rest ∧ t.readMem a data.length = data
         ∧ (∀ b, b < a ∨ a + data.length ≤ b → t.byteAt b = s.byteAt b)
         ∧ t.mem = s.mem ∧ t.image = s.image ∧ t.tether = s.tether ∧ t.arrays = s.arrays)

/-- A fill completes in its hold window; its way is a free one or the least recently used (08 R206, 13 R308, R310, R311, R313,
R320, R322). It rests on the choices of log entries 11, 25. -/
def Obligations.FillCompletes : Prop :=
  (∀ (d : Fin 4) (nn : Fin 24) (s s1 : State) (ln w : Nat) (st : LineState),
     let c : CoreId := .sycen d nn
     (s.core c).wait = some (.miss ln) → s.awaited (.l1d c) = [ln] → (s.line (.l1d c) ln).granted = some st →
     (s.line (.l1d c) ln).awaits = 0 →
     ((s.line (.l1d c) ln).st ≠ .i ∨ s.place (cacheKey (.l1d c)) ln (s.line (.l1d c) ln).cls = (some w, s1) →
       ∃ t, exec (.l1dFillComplete c) s = .next t ∧ (t.line (.l1d c) ln).st = st ∧ (t.line (.l1d c) ln).hold
         ∧ (t.line (.l1d c) ln).tr = .none ∧ (t.line (.l1d c) ln).poison = s.linePoison ln ∧ (t.core c).wait = none
         ∧ t.mem = s.mem ∧ t.dirty = s.dirty)
     ∧ ((s.line (.l1d c) ln).st = .i → s.place (cacheKey (.l1d c)) ln (s.line (.l1d c) ln).cls = (none, s1) →
       ∃ t, exec (.l1dFillComplete c) s = .next t ∧ (t.core c).wait = some (.miss ln) ∧ (t.line (.l1d c) ln).granted = some st))
  ∧ (∀ (s : State) (n line w : Nat) (cls : FillClass),
       let free (v : Nat) : Prop := s.mask n cls v ∧ ∀ o ∈ s.occupants n line, o.1 ≠ v
       let victim (t : State) : Option Nat := plruVictim (fun _ => true) (mget 0 t.plru (setKey n line)) (plruLevels n) 1 0
       w < (geometry n).1 →
       (free w → (∀ v < w, ¬free v) → s.place n line cls = (some w, s))
       ∧ victim (s.used n line w true) ≠ some w ∧ victim (s.used n line w false) = some w)

/-- LR, SC and TAS (06 R175, R176, R177, R178). It rests on the choices of log entries 28, 64. -/
def Obligations.AtomicResults : Prop :=
  ∀ (c : CoreId) (p : Pfx) (wide : Bool) (dd dv : Fin 32) (m : MemOp) (s s1 : State) (a : Nat),
    let k := s.seen c
    let size := if wide then 8 else 4
    let sh1 : Shape := { bytes := 2 + m.bytes, d := dd :: m.dregs, nt := true, ar := true }
    let sh2 : Shape := { sh1 with exclusive := true }
    let sh3 : Shape := { bytes := 3 + m.bytes, d := dd :: dv :: m.dregs, nt := true, ar := true, exclusive := true }
    let holds (ln : Nat) : Bool := decide (k.resv = some ln) && s.holdsLine c ln
    let ends (t : State) (sh : Shape) (w : Word) (r q : Option Nat) : State :=
      s.ended t c p sh { k with pend := some (.d k.status.pl dd.val w), closed := !tagMode c (s.core c), resv := r, pair := q } .seq
    (Runs s c p sh2 → s.atomicAccess c k (eaOf m k) size false true false p.nt true (fun _ => true) = .ok (s1, a) →
      exec (.lr c p wide dd m) s = .next (ends ((s1.touch (.l1d c) (lineOf a)).rehold c (lineOf a)) sh2
        (BitVec.ofNat 64 (s1.readNat a size)) (some (lineOf a)) (some 0)))
    ∧ (Runs s c p sh3 → s.atomicAccess c k (eaOf m k) size true true true p.nt false holds = .ok (s1, a) →
      (holds (lineOf a) → exec (.sc c p wide dd dv m) s
        = .next (ends (s1.ownedWrite c a (leBytes size (k.getD dv).toNat)) sh3 0 none none))
      ∧ (holds (lineOf a) = false → exec (.sc c p wide dd dv m) s = .next (ends s1 sh3 1 none none)))
    ∧ (Runs s c p sh1 → s.atomicAccess c k (eaOf m k) 1 true false true p.nt true (fun _ => true) = .ok (s1, a) →
      exec (.tas c p dd m) s = .next (ends ((s1.ownedWrite c a [1]).rehold c (lineOf a)) sh1 (BitVec.ofNat 64 (s1.readNat a 1)) k.resv k.pair))
    ∧ (∀ ln, (s.core c).resv = some ln → (s.core c).pair.isSome →
      (∀ cache, exec (.holdWindowEnd cache ln) s = .next s)
      ∧ ∀ e cls off data, s.putLine e cls ln off data
          = s.modSnap (fun x => { x with heldWrites := x.heldWrites ++ [(e, cls, ln, off, data)] }))

/-- Element-wise vector arithmetic, with a vector or an immediate (10 R246, R247, R248, R249). -/
def Obligations.VectorArithmetic : Prop :=
  (∀ (c : CoreId) (p : Pfx) (vd va vb vc : Fin 32) (i : Byte),
     let code := typeCode p
     let w := fmtWidth code
     let lanewise := LanewiseClaim c p vd w false
     let slow := LanewiseClaim c p vd w true
     lanewise (.vadd c p vd va vb) 4 vecAll [va, vb] (arithAdd code)
     ∧ lanewise (.vsub c p vd va vb) 4 vecAll [va, vb] (arithSub code)
     ∧ lanewise (.vmul c p vd va vb) 4 vecAll [va, vb] (arithMul code)
     ∧ lanewise (.vfma c p vd va vb vc) 5 vecFloats [va, vb, vc] (arithFma false code)
     ∧ lanewise (.vfms c p vd va vb vc) 5 vecFloats [va, vb, vc] (arithFma true code)
     ∧ slow (.vdiv c p vd va vb) 4 vecDivs [va, vb] (arithDiv code)
     ∧ slow (.vsqrt c p vd va) 3 vecDivs [va] (arithSqrt code)
     ∧ lanewise (.vmin c p vd va vb) 4 vecAll [va, vb] (arithMin code)
     ∧ lanewise (.vmax c p vd va vb) 4 vecAll [va, vb] (arithMax code)
     ∧ lanewise (.vand c p vd va vb) 4 vecInts [va, vb] (fun _ xs => (nth 0 xs 0 &&& nth 0 xs 1, .none))
     ∧ lanewise (.vor c p vd va vb) 4 vecInts [va, vb] (fun _ xs => (nth 0 xs 0 ||| nth 0 xs 1, .none))
     ∧ lanewise (.vxor c p vd va vb) 4 vecInts [va, vb] (fun _ xs => (nth 0 xs 0 ^^^ nth 0 xs 1, .none))
     ∧ lanewise (.vshl c p vd va i) 4 vecInts [va] (fun _ xs => (nth 0 xs 0 * 2 ^ (i.toNat % w), .none))
     ∧ lanewise (.vshr c p vd va i) 4 vecInts [va] (fun _ xs => (nth 0 xs 0 / 2 ^ (i.toNat % w), .none))
     ∧ lanewise (.vsar c p vd va i) 4 vecInts [va] (fun _ xs => (ofSigned w (toSigned w (nth 0 xs 0) / (2 ^ (i.toNat % w) : Nat)), .none))
     ∧ lanewise (.vmov c p vd va) 3 vecAll [va] (fun _ xs => (nth 0 xs 0, .none)))
  ∧ (∀ (c : CoreId) (p : Pfx) (vd va : Fin 32) (i : Word),
       let code := typeCode p
       let w := fmtWidth code
       let m := (immZero p 2 i).toNat
       let lanewise := ImmediateClaim c p vd va w m
       lanewise (.vbcst c p vd i) 4 (fun _ _ => (m, .none))
       ∧ lanewise (.vaddi c p vd va i) 5 (fun r a => arithAdd code r [a, m])
       ∧ lanewise (.vmuli c p vd va i) 5 (fun r a => arithMul code r [a, m])
       ∧ lanewise (.vmaxi c p vd va i) 5 (fun r a => arithMax code r [a, m])
       ∧ lanewise (.vmini c p vd va i) 5 (fun r a => arithMin code r [a, m]))
  ∧ (∀ (code w a b : Nat) (sg : Bool) (r : Rnd), intFmt code = some (w, sg) → floatFmt code = none → a < 2 ^ w → b < 2 ^ w →
       let v (x : Nat) : Int := if sg then toSigned w x else (x : Int)
       arithAdd code r [a, b] = ((a + b) % 2 ^ w, .none)
       ∧ arithSub code r [a, b] = ((a + 2 ^ w - b) % 2 ^ w, .none)
       ∧ arithMul code r [a, b] = (a * b % 2 ^ w, .none)
       ∧ arithMin code r [a, b] = (if v a ≤ v b then a else b, .none)
       ∧ arithMax code r [a, b] = (if v a ≤ v b then b else a, .none))

/-- Vector compares, selection and predicates (10 R246, R249). -/
def Obligations.VectorPredicates : Prop :=
  ∀ (c : CoreId) (p : Pfx) (vd va vb : Fin 32) (pd pa pb pc : Fin 8) (dd dn : Fin 32),
    let code := typeCode p
    let w := fmtWidth code
    let n := vlen c / 8
    let cmp := CompareClaim c p pd va vb code w n
    let bitwise (ins : Instr) (bytes : Nat) (f : Core → Nat → Bool) : Prop :=
      Completes ins c p { bytes := bytes } (fun k k1 => ∃ x, k1 = k.setP pd x ∧ ∀ i < n, x.getLsbD i = f k i)
    cmp (.vcmpeq c p pd va vb) (fun a b => decide (a = b)) (fun a b => decide (a.eq b = some true))
    ∧ cmp (.vcmplt c p pd va vb) (fun a b => decide (a < b)) (fun a b => decide (a.lt b = some true))
    ∧ cmp (.vcmple c p pd va vb) (fun a b => decide (a ≤ b)) (fun a b => decide (a.lt b = some true ∨ a.eq b = some true))
    ∧ (vecTyped p vecAll → Completes (.vsel c p vd va vb pc) c p { bytes := 5, types := vecAll } (fun k k1 => ∃ x, k1 = k.setV vd x ∧
        ∀ j < lanes c w, elemAt w x.toNat j = elemAt w (if activeIn k (some pc) w j then k.getV va else k.getV vb).toNat j))
    ∧ bitwise (.pand c p pd pa pb) 4 (fun k i => (k.getP pa).getLsbD i && (k.getP pb).getLsbD i)
    ∧ bitwise (.por c p pd pa pb) 4 (fun k i => (k.getP pa).getLsbD i || (k.getP pb).getLsbD i)
    ∧ bitwise (.pxor c p pd pa pb) 4 (fun k i => (k.getP pa).getLsbD i ^^ (k.getP pb).getLsbD i)
    ∧ bitwise (.pnot c p pd pa) 3 (fun k i => !(k.getP pa).getLsbD i)
    ∧ bitwise (.pset c p pd) 2 (fun _ _ => true)
    ∧ bitwise (.pclr c p pd) 2 (fun _ _ => false)
    ∧ Completes (.plen c p pd dn) c p { bytes := 3, d := [dn], types := vecAll ++ vecNarrow } (fun k k1 => ∃ x, k1 = k.setP pd x ∧
        ∀ i < n, x.getLsbD i = decide (8 * i < w * min (k.getD dn).toNat (lanes c w)))
    ∧ GivesD (.pcnt c p dd pa) c p { bytes := 3, d := [dd], types := vecAll ++ vecNarrow } dd (fun k x =>
        x.toNat = ((List.range (lanes c w)).filter (fun j => activeIn k (some pa) w j)).length)

/-- VPERM, VSLIDEUP and VSLIDEDN (R253). It rests on the choices of log entry 34. -/
def Obligations.VectorPermutation : Prop :=
  ∀ (c : CoreId) (p : Pfx) (vd va vb : Fin 32) (i : BitVec 16),
    let w := fmtWidth (typeCode p)
    let n := lanes c w
    let masked := PermuteClaim c p vd w n
    masked (.vperm c p vd va vb) 5 (fun k j =>
      let b := elemAt w (k.getV vb).toNat j
      if b < n then elemAt w (k.getV va).toNat b else 0)
    ∧ masked (.vslideup c p vd va i) 6 (fun k j =>
      if 0 ≤ (j : Int) - i.toInt ∧ (j : Int) - i.toInt < n then elemAt w (k.getV va).toNat ((j : Int) - i.toInt).toNat else 0)
    ∧ masked (.vslidedn c p vd va i) 6 (fun k j =>
      if 0 ≤ (j : Int) + i.toInt ∧ (j : Int) + i.toInt < n then elemAt w (k.getV va).toNat ((j : Int) + i.toInt).toNat else 0)

/-- Vector reductions and conversion (10 R251, R252). It rests on the choices of log entries 31, 33. -/
def Obligations.VectorReduceConvert : Prop :=
  ∀ (c : CoreId) (p : Pfx) (dd vd va : Fin 32) (i : Byte),
    let code := typeCode p
    let w := fmtWidth code
    let sh : Shape := { bytes := 4, d := [dd], pred := true, types := vecAll, unpaired := true }
    let extreme := ExtremeClaim c p dd va code w sh
    Completes (.vredsum c p dd va) c p sh (fun k k1 =>
      let r := reduceTree (fun a b => arithAdd (sumCode code) k.rnd [a, b]) 12 (activeElems c p k w va (widenElem code))
      k1 = (k.flag r.2).setD dd (BitVec.ofNat 64 (r.1.getD 0)))
    ∧ extreme (.vredmax c p dd va) (fun r a b => arithMax code r [a, b])
    ∧ extreme (.vredmin c p dd va) (fun r a b => arithMin code r [a, b])
    ∧ (vecTyped p vcvtCodes → vcvtCodes.contains i.toNat → 8 ≤ fmtWidth code → 8 ≤ fmtWidth i.toNat →
        Completes (.vcvt c p vd va i) c p { bytes := 5, pred := true, types := vcvtCodes } (fun k k1 => ∃ (x : BitVec 16384) (g : Flg),
          k1 = (k.flag g).setV vd x ∧ ∀ j < vlen c / max w (fmtWidth i.toNat), elemAt w x.toNat j =
            if activeIn k p.pred w j then (convertAny i.toNat code k.rnd (elemAt (fmtWidth i.toNat) (k.getV va).toNat j)).1 % 2 ^ w
            else elemAt w (k.getV vd).toNat j))

/-- Vector loads and stores (10 R250, 08 R216, R217). It rests on the choices of log entries 12, 32, 51, 64. -/
def Obligations.VectorMemory : Prop :=
  ∀ (c : CoreId) (p : Pfx) (vr : Fin 32) (m : MemOp) (s s1 : State) (l : List (VecPage × Nat)),
    let sh : Shape := { bytes := 2 + m.bytes, d := m.dregs, pred := true, nt := true, ar := true, types := vecAll }
    let k := s.seen c
    let w := fmtWidth (typeCode p)
    let va := eaOf m k
    let es := vecTouched c p k w va.toNat
    let place (x : Nat × Nat) : Nat := elemPa l x.2
    let lines := ((es.map place).filter (fun a => (s1.kindAt a).normal)).map lineOf
    Runs s c p sh → s1.missServed c = false → badAddress (w / 8) (es.map (·.2)) = none → va.toNat % (w / 8) = 0 →
    (s.locatePages c k .read (w / 8) false (vecPages (w / 8) (es.map (·.2))) = (.ok l, s1) →
      (∀ e ∈ k.sbuf, ∀ x ∈ es, e.touches (place x) (w / 8) = false) →
      s1.windowBusy k.sbuf (l.map (fun x => (x.2, x.1.size))) = false →
      (∀ x ∈ es, (s1.kindAt (place x)).normal → s1.holdsLine c (lineOf (place x))) →
      (∀ x ∈ es, s1.readPoison (place x) (w / 8) = false) →
      ∃ v : BitVec 16384, exec (.vld c p vr m) s = .next (s.ended (lines.foldl (fun (t : State) ln => t.touch (.l1d c) ln) s1) c p sh
          { k with pend := some (.v vr.val v), closed := !tagMode c (s.core c) } .seq)
        ∧ ∀ j < lanes c w, elemAt w v.toNat j = if activeIn k p.pred w j then
            s1.readNat (elemPa l ((va.toNat + j * (w / 8)) % 2 ^ 64)) (w / 8) % 2 ^ w
          else elemAt w (k.getV vr).toNat j)
    ∧ (s.locatePages c k .write (w / 8) true (vecPages (w / 8) (es.map (·.2))) = (.ok l, s1) → k.sbuf = [] →
      (∀ x ∈ es, (s1.kindAt (place x)).normal → s1.ownsLine c (lineOf (place x))) →
      exec (.vst c p vr m) s = .next (s.ended (es.foldl (fun (t : State) x =>
          let data := leBytes (w / 8) (elemAt w (k.getV vr).toNat x.1)
          if (t.kindAt (place x)).sram then t.sramWrite (place x) data else t.ownedWrite c (place x) data) s1) c p sh k .seq))

/-- Tensor forms, and the instructions that move tile rows (10 R254, R257, R259, R261, R262, R263, 05 R144). It rests on the
choices of log entries 5, 31, 35, 38, 39. -/
def Obligations.TensorAndTileRows : Prop :=
  (∀ (c : CoreId) (p : Pfx) (ad aa ab ac : Fin 16) (i : Word) (s : State),
     let k := s.seen c
     let form := TensorClaim c p s k
     form (.vaddT c p ad aa ab) (arithForm 4 0 vecAll arithAdd id) [ad, aa, ab] []
     ∧ form (.vsubT c p ad aa ab) (arithForm 4 0 vecAll arithSub id) [ad, aa, ab] []
     ∧ form (.vmulT c p ad aa ab) (arithForm 4 0 vecAll arithMul id) [ad, aa, ab] []
     ∧ form (.vmaxT c p ad aa ab) (arithForm 4 0 vecAll arithMax id) [ad, aa, ab] []
     ∧ form (.vminT c p ad aa ab) (arithForm 4 0 vecAll arithMin id) [ad, aa, ab] []
     ∧ form (.vfmaT c p ad aa ab ac) (arithForm 5 0 vecFloats (arithFma false) id) [ad, aa, ab, ac] []
     ∧ form (.vscaleT c p ad aa i) (arithForm 5 2 vecFloats arithMul id) [ad, aa] [(immZero p 2 i).toNat]
     ∧ form (.vfmaiT c p ad aa ac i) (arithForm 6 2 vecFloats (arithFma false) (fun xs => [nth 0 xs 0, nth 0 xs 2, nth 0 xs 1]))
         [ad, aa, ac] [(immZero p 2 i).toNat]
     ∧ form (.vcvtT c p ad aa) (copyForm (fun dst src => vcvtCodes.contains dst && vcvtCodes.contains src
         && (decide (8 ≤ fmtWidth dst) || decide (8 ≤ fmtWidth src))) (fun r src dst x => convertAny src dst r x)) [ad, aa] []
     ∧ form (.vcopyT c p ad aa) (copyForm (fun dst src => decide (dst = src) && vcvtCodes.contains src) (fun _ _ _ x => (x, .none)))
         [ad, aa] [])
  ∧ (∀ (d : Fin 4) (cl : Fin 24) (p : Pfx) (vr : Fin 32) (n : Fin 16) (dr : Fin 32) (s : State),
       let c : CoreId := .sycen d cl
       let k := s.seen c
       let x := (k.getD dr).toNat
       let o := s.quad (s.tileOwner { cd := d, cl := cl, arr := 0, q := 0 } n.val)
       let id : TileId := { cd := d, cl := cl, t := n }
       let tile := s.tile id
       let row := x % 128
       let free : Prop := ∀ y ∈ s.inFlight d cl, y.order < (s.tileInstr d cl n.val).getD s.fresh → n.val ∉ cTiles y.words
       let sh (types : List Nat) : Shape := { bytes := 4, d := [dr], types := types, sycenOnly := true }
       let outs := [0x01, 0x02, 0x03, 0x04, 0x05, 0x0B, 0x0C, 0x0D, 0x0E, 0x0F, 0x10]
       let es := (countFrom 0 (tileCols tile.fmt.toNat)).map (tile.at row)
       let wr := (elems (tileSlot tile.fmt.toNat) (k.getV vr).toNat (tileCols tile.fmt.toNat)).map (storedEntry tile.fmt.toNat)
       x < 2048 → bit x 7 = false → o.bound → o.ctx = s.cctx (clusterKey d cl) → free →
       tile.fmt ≠ 0xFF → row < tileRows tile.fmt.toNat →
       (Runs s c p (sh outs) → bits x 8 3 = 0 →
         (tile.poison = false → exec (.drainInstruction c p vr (BitVec.ofNat 8 n.val) dr) s = .next (s.completed c p (sh outs)
           (let ys := es.map (drainAny tile.fmt.toNat (typeCode p) k.rnd)
            (k.flag (ys.foldl (fun g y => g.or y.2) Flg.none)).setV vr
              (BitVec.ofNat 16384 (packElems (fmtWidth (typeCode p)) (ys.map (·.1))))) .seq))
         ∧ (tile.poison → exec (.drainInstruction c p vr (BitVec.ofNat 8 n.val) dr) s = .next (s.trapHere c (s.core c) 0x0F 0 none)))
       ∧ (Runs s c p (sh []) → bits x 8 3 = 0 →
         (tile.poison = false → exec (.tileRd c p vr (BitVec.ofNat 8 n.val) dr) s = .next (s.completed c p (sh [])
           (k.setV vr (BitVec.ofNat 16384 (packElems (tileSlot tile.fmt.toNat) es))) .seq))
         ∧ (tile.poison → exec (.tileRd c p vr (BitVec.ofNat 8 n.val) dr) s = .next (s.trapHere c (s.core c) 0x0F 0 none)))
       ∧ (Runs s c p (sh accFormats) → p.type = some tile.fmt →
         ∃ x1 : Tile, exec (.tileWr c p (BitVec.ofNat 8 n.val) dr vr) s = .next ((s.setTile id x1).completed c p (sh accFormats) k .seq)
           ∧ (∀ col < tileCols tile.fmt.toNat, x1.at row col = (nth (0, false) wr col).1 % 2 ^ 80)
           ∧ (∀ r col, r < 128 → col < 1024 → r ≠ row → x1.at r col = tile.at r col)
           ∧ x1.fmt = tile.fmt ∧ x1.poison = tile.poison
           ∧ x1.sat = (tile.sat || bit x 8)
           ∧ x1.nv = (tile.nv || bit x 9 || wr.any (·.2))
           ∧ x1.of = (tile.of || bit x 10)))

/-- CLEAN, CLEANINVAL, INVAL and PREFETCH (13 R325, R326, 07 R453). It rests on the choices of log entry 51. -/
def Obligations.CacheMaintenance : Prop :=
  ∀ (c : CoreId) (p : Pfx) (m : MemOp) (s s1 : State) (pa a : Nat),
    let k := s.seen c
    let sh := maintShape m
    let shp : Shape := { bytes := 2 + m.bytes, d := m.dregs, nt := true }
    let va := eaOf m k
    let ln := lineOf a
    let fin (sh : Shape) (t : State) (k : Core) : State := s.ended t c p sh k .seq
    let done (t : State) : State := fin sh t { k with maint := false, resv := (t.core c).resv }
    let op := MaintClaim c p s s1 k sh va pa a ln fin done
    (Runs s c p sh →
      op (.clean c p m) .read .clean ∧ op (.cleaninval c p m) .write .cleanInval
      ∧ (k.status.pl ≠ .user → op (.inval c p m) .write .inval)
      ∧ (k.status.pl = .user → exec (.inval c p m) s = .next (s.trapHere c (s.core c) 0x02 0 none)))
    ∧ (Runs s c p shp →
      (s.prefetchLine c va = some ln → exec (.prefetch c p m) s = .next (fin shp (s.startMiss c ln false p.nt) k))
      ∧ (s.prefetchLine c va = none → exec (.prefetch c p m) s = .next (fin shp s k)))

/-- Customer instructions and their microwords (07 R194, R195, R200). It rests on the choices of log entries 5, 36. -/
def Obligations.CustomerInstructions : Prop :=
  ∀ (c : CoreId) (p : Pfx) (entry : Byte) (ops : List AnyReg) (i : Word) (s : State),
    let e := s.decodeEntry (entry.toNat % 64)
    let k := s.seen c
    let sh := customerShape e ops
    let imm := if bits e 36 2 = 0 then 0 else immSigned p (bits e 36 2) i
    let s1 := (s.sampleCycles k).1
    let k1 := (s.sampleCycles k).2
    let run := s1.runMicro c p ops imm 256 (bits e 0 12) { before := k1, after := k1, temps := [], fresh := s1.fresh }
    let fits : Prop := entry.toNat < 64 ∧ bit e 12 ∧ operandsFit e ops
    (fits → Runs s c p sh →
      (bits e 42 2 < k.status.pl.num → exec (.customerInstruction c p entry ops i) s = .next (s.trapHere c (s.core c) 0x02 0 none))
      ∧ (k.status.pl.num ≤ bits e 42 2 →
        (∀ k2, run = .ok k2 → exec (.customerInstruction c p entry ops i) s = .next (s.ended s1.bump c p sh k2 .seq))
        ∧ (∀ cause detail, run = .error (cause, detail) →
            exec (.customerInstruction c p entry ops i) s = .next (s1.trapHere c (s1.core c) cause detail none))))
    ∧ (¬fits → Runs s c p { bytes := 2, sycenOnly := true } →
        exec (.customerInstruction c p entry ops i) s = .next (s.trapHere c (s.core c) 0x01 0 none))

/-- Posting array commands, the completion ring, tile flags and recovery (05 R127, R128, R133, R134, R148, R149, 03 R96). It rests
on the choices of log entries 5, 24, 39. -/
def Obligations.ArrayPartitions : Prop :=
  (∀ (s : State),
     (∀ (d : Fin 4) (cl : Fin 24) (p : Pfx) (vs dq : Fin 32),
       let c : CoreId := .sycen d cl
       let sh : Shape := { bytes := 3, d := [dq], sycenOnly := true }
       let k := s.seen c
       let x := (k.getD dq).toNat
       let part : PartId := { cd := d, cl := cl, arr := Fin.ofNat 4 (x / 4), q := Fin.ofNat 4 x }
       let ws := wordsOf (k.getV vs).toNat
       let s1 := s.wakeCd d
       let q := s1.quad part
       let chk := s1.acceptCheck part (some (s.cctx (clusterKey d cl))) (decide (x / 16 ≠ 0)) ws
       let fin (t : State) (w : Nat) : State := s.ended t c p sh (k.setD dq (BitVec.ofNat 64 w)) .seq
       Runs s c p sh → k.sbuf = [] →
         (chk = none → exec (.acmd c p vs dq) s = .next (fin
           ((s1.setQuad part { q with
             queue := q.queue ++ [{ words := ws, seq := q.nextSeq, order := s1.fresh, phase := .waiting, status := 0, count := 0 }]
             nextSeq := q.nextSeq + 1
             accSeq := q.nextSeq
             retSeq := if q.restarted then 0 else q.retSeq
             restarted := false }).bump)
           (256 * q.nextSeq.toNat)))
         ∧ (∀ code, chk = some code → exec (.acmd c p vs dq) s = .next (fin
           (s1.setQuad part { q with
             rejCode := code, rejOp := BitVec.ofNat 8 (cOp ws), rejTag := BitVec.ofNat 16 (cTag ws), rejCount := satAdd q.rejCount 1 })
           code.toNat)))
     ∧ (∀ (part : PartId) (value : Word),
       let s1 := s.wakeCd part.cd
       let q := s1.quad part
       exec (.qpostWrite part value) s = .next
         (match (if 4 ≤ q.fetching.length then none else s1.check1 part none) with
          | none => s1.setQuad part { q with fetching := q.fetching ++ [value] }
          | some code => s1.setQuad part { q with rejCode := code, rejOp := 0, rejTag := 0, rejCount := satAdd q.rejCount 1 }))
     ∧ (∀ (part : PartId) (va : Word) (rest : List Word), (s.quad part).fetching = va :: rest → rest.length < 4 →
       let s1 := s.setQuad part { s.quad part with fetching := rest }
       (∀ s2, s1.fetchCommand part.cd (s.quad part).ctx va.toNat = (none, s2) →
         (s2.quad part).fetching = rest →
         exec (.qpostFetchComplete part) s = .next (s2.setQuad part { s2.quad part with
           rejCode := 7, rejOp := 0, rejTag := 0, rejCount := satAdd (s2.quad part).rejCount 1 }))
       ∧ (∀ s2 ws, s1.fetchCommand part.cd (s.quad part).ctx va.toNat = (some ws, s2) → s2.acceptCheck part none false ws = none →
         (s2.quad part).fetching = rest →
         exec (.qpostFetchComplete part) s = .next (s2.enqueue part ws))))
  ∧ (∀ (s : State) (part : PartId) (value : Word) (id : TileId),
       let q := s.quad part
       let top := value.toNat / 2 ^ 56
       let restart := value.getLsbD 0 && !q.ring.enable
       let ring := ringWritten q value restart
       let p := s.lead part
       let l := s.quad p
       let live := l.queue.filter (fun c => decide (c.phase ≠ .ended))
       let issued := live.filter (fun c => decide (c.phase ≠ .waiting))
       let waiting := live.filter (fun c => decide (c.phase = .waiting))
       let emptied := recoveredQuad l
       exec (.qcplbaseWrite part value) s = .next
         (if s.lead part = part ∧ q.queue = [] ∧ (top = 0 ∨ top = 255) then s.setQuad part { q with ring := ring } else s)
       ∧ exec (.tctlClrflags id) s = .next
         (if s.tilePend id.cd id.cl id.t.val = 0 then s.setTile id { s.tile id with sat := false, nv := false, of := false } else s)
       ∧ exec (.qctlRecover part) s = .next
         (if l.bound ∧ l.fault ∧ s.frozen = false ∧ s.partAcked p = true then
           let s1 := (live.flatMap (fun c => cTiles c.words)).foldl (fun (t : State) n => t.poisonTile p n) ((s.setQuad p emptied).unparkPart p)
           let s2 := issued.foldl (fun (t : State) c => t.reportCmd p { c with status := 0x11 }) (s1.flushRecords p)
           waiting.foldl (fun (t : State) c => t.reportCmd p { c with status := 0x10 }) s2
          else s))

/-- Array commands issue and end (05 R137, R138, R140, R142, R145, R146, 03 R93). It rests on the choices of log entries 38, 39. -/
def Obligations.ArrayCommandsIssue : Prop :=
  ∀ (s : State) (part : PartId) (c : Cmd),
    let runs := ArrayRuns s part c
    runs (.loadb part) 1 (fld c.words 2 32 7) (State.loadRow part c.words) id
    ∧ runs (.mxa part) 2 (fld c.words 2 32 7) (State.vecStep part c.words) (fun t => t.countFreezes part (fld c.words 2 32 7) c.order)
    ∧ runs (.mxz part) 3 (fld c.words 2 32 7) (State.vecStep part c.words) (fun t => t.countFreezes part (fld c.words 2 32 7) c.order)
    ∧ (c.status = 0 → runs (.drain part) 4 (dMcnt c.words) (State.drainStep part c.words) id)
    ∧ (s.ready part 5 = some c → exec (.tileclr part) s = .next
        ((s.setTile (clusterTile part (cTile c.words 0))
          { entries := [], fmt := BitVec.ofNat 8 (cFmt c.words), sat := false, nv := false, of := false, poison := false }).setQuad part
          { s.quad part with
            queue := (s.quad part).queue.map (fun x => if x.order = c.order then { x with phase := .issued } else x) }))
    ∧ (s.ready part 6 = some c → exec (.fence part) s = .next (s.retire part c))
    ∧ (∀ before after, s.partRuns part → c.phase = .issued → (s.quad part).queue = before ++ c :: after →
        (∀ x ∈ before, x.phase = .ended ∧ x.seq ≠ c.seq ∧ x.order ≠ c.order) →
        exec (.commandRetire part c.seq) s = .next (s.retire part c))

/-- Control of a sequencer by the host (09 R232, R242, 17 R411, R418, 18 R435). It rests on the choices of log entries 11, 24, 50,
53, 57. -/
def Obligations.SequencerControl : Prop :=
  ∀ (s : State) (d : Fin 4) (cl : Fin 24),
    let c : CoreId := .sycen d cl
    let n := d.val * 24 + cl.val
    let k := s.core c
    let w := if (s.cdPwr d).idle then s.setCdPwr d { s.cdPwr d with idle := false } else s
    let fresh : Core := { Core.reset with
      pc := s.entryVa n
      status := { Status.reset with mode := bit (s.cflags n) 1 } }
    let held : Prop := s.image.hold ∨ s.mgmt.testHold ∨ 128 ≤ s.cctxByte n ∨ s.clusterAcked d cl = false ∨ k.sbuf ≠ []
    exec (.seqdbRing d cl) s = .next (w.setCore c { w.core c with ipend := (w.core c).ipend ||| 8 })
    ∧ exec (.seqrunRelease d cl) s = .next
      (if held then s else if k.st = .reset then s.setCore c { fresh with st := .run, ipend := k.ipend }
       else if k.st = .halted then s.setCore c { k with st := .run } else s)
    ∧ exec (.seqrunHaltreq d cl) s = .next (if k.st = .run then s.setCore c { k with haltReq := true } else s.setCore c k)
    ∧ exec (.sequencerHalt d cl) s = .next
      (if k.st = .run ∧ k.haltReq ∧ s.frozen = false ∧ k.haltsHere = true then
         match s.stopTensor c with
         | .ok s1 =>
           let s2 := s1.modCore c (fun k => { k with wait := none, tensor := none })
           s2.setCore c { (s2.core c).settle with st := .halted, pair := none, haltReq := false }
         | .error (.trap s1 cause detail addr) => s1.trapHere c (s1.core c) cause detail addr
         | .error (.waits s1 w) => s1.modCore c (fun k => { k with wait := some w })
         | .error _ => s
       else s)
    ∧ exec (.seqrunReset d cl) s = .next
      (let s1 := (s.dropRequester (.cd d) (.sequencer d cl)).setCore c { fresh with sbuf := k.sbuf }
       if k.sbuf = [] then s1.flushL1 c else s1)

/-- Translation, fault batches and withdrawal (12 R298, R301, R302, R304, R305, R306). It rests on the choices of log entries 41,
44, 59. -/
def Obligations.TranslationAndWithdrawal : Prop :=
  (∀ (s : State) (e : EtuId) (ctx : BitVec 6) (va : Word) (acc a : Access) (req : Requester) (stream t : Nat)
       (spans : List (Nat × Nat)),
     let isSeq : Bool := match req with
       | .sequencer _ _ => true
       | _ => false
     let r := s.translate e ctx va.toNat acc isSeq
     let mine : Prop := requesterEtu req = e ∧ s.requesterCtx req = ctx ∧ s.requesting req ∧ s.etuUp e
     (mine → ∀ pa, r.1 = .ok pa → exec (.translation e ctx va acc req) s = .next r.2)
     ∧ (mine → (∀ pa, r.1 ≠ .ok pa) → exec (.translation e ctx va acc req) s = .next (r.2.translationFails req va acc r.1))
     ∧ (¬mine → exec (.translation e ctx va acc req) s = .next s)
     ∧ (let x := requesterEtu req
        let early := s.translate x (s.requesterCtx req) (t * 4096 % 2 ^ 64) a isSeq
        let on : Prop := (s.etu x).pfDis = false ∧ s.etuUp x
        (on → s.announced req stream = some (a, spans) → fourTilesAhead spans = some t →
           exec (.translationPrefetch req stream) s = .next (match early.1 with
             | .page cause level => if (early.2.etu x).fbEnable then
                 early.2.park x (s.requesterCtx req) (t * 4096 % 2 ^ 64) a cause level none else early.2
             | _ => early.2))
        ∧ (¬on ∨ s.announced req stream = none ∨ (s.announced req stream = some (a, spans) ∧ fourTilesAhead spans = none) →
           exec (.translationPrefetch req stream) s = .next s))
     ∧ exec (.faultBatchTimer e) s = .next (if s.etuUp e then s.deliverBatch e true else s))
  ∧ (∀ (s : State) (e : EtuId) (value : Word) (req : Requester),
       let x := s.etu e
       let buf := !x.collBuf
       let named := retriedBatch s e x buf
       let all := value.getLsbD 6
       let legal : Prop := x.wdBusy = false ∧ x.wdBase.toNat ≤ x.wdLimit.toNat ∧
         (all ∨ (x.wdBase.toNat % 4096 = 0 ∧ (x.wdLimit.toNat + 1) % 4096 = 0))
       let ctx := value.extractLsb' 0 6
       let waits := (etuRequesters e).filter (fun q => decide (s.requesterCtx q = ctx) && (s.requesting q || s.storesWait q))
       let aged := waits.foldl State.ageStores s
       let begun := withdrawing x ctx value all waits
       let open' : Prop := x.wdBusy ∧ x.wdStuck = false
       let die := match e with
         | .cd d => d.val + 1
         | .hd => 0
       (∀ recs, x.outstanding = some recs → value.getLsbD 0 = buf → value.extractLsb' 16 16 = x.outSeq →
         exec (.fbdone e value) s = .next (named recs))
       ∧ (x.outstanding = none → exec (.fbdone e value) s = .next s)
       ∧ (¬legal → exec (.withdraw e value) s = .next (s.setEtu e { x with wdIgnored := true }))
       ∧ (legal → exec (.withdraw e value) s = .next
           (if waits = [] then (aged.setEtu e begun).withdrawDone e else aged.setEtu e begun))
       ∧ (open' → req ∈ x.wdAwaited → s.inFlightOld req = false → exec (.withdrawAck e req) s = .next
           (if without req x.wdAwaited = [] then (s.setEtu e { x with wdAwaited := [] }).withdrawDone e
            else s.setEtu e { x with wdAwaited := without req x.wdAwaited }))
       ∧ (open' → x.wdAwaited ≠ [] → exec (.withdrawTimeout e) s = .next
           ((s.setEtu e { x with wdTimeout := true, wdStuck := true }).reportStop
             { mkRec die 0x5000 0x0A 2 3 x.wdCtx.toNat with ctx := some x.wdCtx })))

/-- The interface of every engine, scrubs, captures and time-outs (11 R271, R273, R274, R279, R280, R285, 15 R369). It rests on the
choices of log entries 4, 24, 43, 57. -/
def Obligations.EngineInterface : Prop :=
  (∀ (s : State) (e : EngineId) (ctx : BitVec 6) (value : Word),
     let x := s.engine e
     let w := if (s.cdPwr e.cd).idle then s.setCdPwr e.cd { s.cdPwr e.cd with idle := false } else s
     let posts (ins : Instr) (p : EngPost) : Prop :=
       exec ins s = .next (w.setEngine e { w.engine e with fetching := (w.engine e).fetching ++ [p] })
     let top := value.toNat / 2 ^ 56
     let dropped := (s.dropRequester (.cd e.cd) (.engine e .data)).dropRequester (.cd e.cd) (.engine e .desc)
     (∀ (cd : Fin 4) (cl : Fin 24), posts (.epostWrite e cd cl value)
       { va := value, ctx := s.cctx (cd.val * 24 + cl.val), cl := some (cd, cl) })
     ∧ posts (.epostxWrite e ctx value) { va := value, ctx := ctx, cl := none }
     ∧ (∀ p rest, x.fetching = p :: rest →
       let s1 := s.setEngine e { x with fetching := rest }
       (∀ s2, s1.fetchCommand e.cd p.ctx p.va.toNat = (none, s2) → exec (.engineWordFetchComplete e) s = .next
         (s2.setEngine e { s2.engine e with rejCode := 7, rejOp := 0, rejTag := 0, rejCount := satAdd (s2.engine e).rejCount 1 }))
       ∧ (∀ s2 ws, s1.fetchCommand e.cd p.ctx p.va.toNat = (some ws, s2) →
         let y := s2.engine e
         (s2.engineCheck e p.ctx ws = none → exec (.engineWordFetchComplete e) s = .next (s2.setEngine e { y with
           queue := y.queue ++ [{ words := ws, ctx := p.ctx, cl := p.cl, seq := y.nextSeq, phase := .waiting, status := 0, count := 0,
                                  result := 0, nv := false, of := false, dz := false, descs := [], ops := [] }]
           nextSeq := y.nextSeq + 1 }))
         ∧ (∀ code, s2.engineCheck e p.ctx ws = some code → (s2.engRing e p.ctx).enable = false →
           exec (.engineWordFetchComplete e) s = .next (s2.setEngine e { y with
             rejCode := code
             rejOp := BitVec.ofNat 8 (cOp ws)
             rejTag := BitVec.ofNat 16 (cTag ws)
             rejCount := satAdd y.rejCount 1 }))))
     ∧ (∀ c cs, x.queue = c :: cs → c.phase = .issued → s.engineWorks e → s.sendDone e c →
       exec (.engineCommandRetire e) s = .next
         ((s.setEngine e { x with queue := cs, seq := c.seq, st := if x.ringParked then .wait else .idle }).reportEng e c))
     ∧ (x.st = .fault → s.engineAcked e.cd → exec (.ectlRecover e) s = .next
         ((x.queue.map (fun c => { c with status := if c.phase = .waiting then 0x10 else 0x11 })).foldl
           (fun (t : State) c => t.reportEng e c)
           (dropped.setEngine e { x with
             queue := []
             st := .idle
             cause := 0
             parked := false
             seq := (x.queue.getLast?.map (·.seq)).getD x.seq })))
     ∧ (x.st ≠ .fault ∨ s.engineAcked e.cd = false → exec (.ectlRecover e) s = .next s)
     ∧ exec (.ecplbaseWrite e ctx value) s = .next
       (if (∀ c ∈ x.queue, c.ctx ≠ ctx) ∧ (top = 0 ∨ top = 255) then
          s.setEngRing e ctx ((s.engRing e ctx).written value) else s))
  ∧ (∀ (s : State) (d : Fin 4),
       (∀ (store : Option (Fin 24)) (offset : Nat) (b : Bool),
         let pa := sramAddr d store offset
         let cs := mget ComStat.reset s.comstat d.val
         let rec' (cls sev : Nat) : McRec :=
           { mkRec (d.val + 1) (match store with
               | none => 0x7000
               | some cl => 0x7001 + cl.val) cls sev 0 0 with paddr := pa }
         let bad := scrubFound cs store offset
         let s1 := { s with comstat := mset ComStat.reset s.comstat d.val bad, badSram := addNew (pa / 8) s.badSram }
         (s.cdUp d = false → ∀ o, exec (.scrub d store offset o) s = .next s)
         ∧ (s.cdUp d → exec (.scrub d store offset .clean) s = .next s
           ∧ exec (.scrub d store offset (.corrected b)) s = .next
             ({ s with comstat := mset ComStat.reset s.comstat d.val { cs with ceCnt := satAdd cs.ceCnt 1 } }.report (rec' 5 0))
           ∧ exec (.scrub d store offset .uncorrectable) s = .next (if s.badSram.contains (pa / 8) then s1 else s1.report (rec' 6 1))))
       ∧ (let due : Prop := s.snap.captureDue.contains d.val ∧ ∀ c ∈ (s.engine ⟨d, .rand⟩).queue, c.phase ≠ .started
          let s1 := s.putManifest (manifestAt s.snap.epoch.toNat) (0x2000 + 48 * 4096 * d.val)
            ((countFrom 0 4096).flatMap (fun n => randRecord (s.rand d n)))
          (due → exec (.randCapture d) s = .next { s1 with
             randLate := addNew d.val s1.randLate
             snap := { s1.snap with captureDue := without d.val s1.snap.captureDue } })
          ∧ (¬due → exec (.randCapture d) s = .next s))
       ∧ (∀ (c : EngCmd) (o : CollOp) (os : List CollOp), s.openRecv d = some c → c.ops.filter (fun o => !o.last) = o :: os →
           (s.creState d).timedOut = false → s.frozen = false → (∀ x ∈ os, o.rank ≤ x.rank) →
           exec (.collectiveTimeout ⟨d, .cre⟩) s = .next
             ((s.setCreState d { s.creState d with timedOut := true }).raiseFault 2 (BitVec.ofNat 20 o.src))))

/-- What the engines execute (11 R277, R281, R282, R283, R284, R287, 15 R366). It rests on the choices of log entries 14, 15, 43,
57. -/
def Obligations.EngineCommands : Prop :=
  ∀ (s : State) (e : EngineId) (c : EngCmd) (cs : List EngCmd) (bad : Option (Nat × EngineError)),
    let x := s.engine e
    let b := s.startHead e c
    let s1 := b.2.modHead e (fun _ => b.1)
    let desc (ds : List ReadDesc) (i : Nat) : TensorDesc := (nth ReadDesc.null ds i).d
    let allow : Prop :=
      x.queue = c :: cs ∧ s.engineWorks e ∧ x.parked = false ∧ x.ringParked = false ∧ (c.phase = .waiting ∨ c.phase = .started)
    let runs := EngineRuns e c s s1 b bad allow
    let select := selectWork e bad desc
    let move := moveWork e bad desc
    let stream (f : Nat → RandStream → EngCmd → State → EngRes) (c : EngCmd) (s : State) : EngRes :=
      let n := fld c.words 1 0 12
      if (s.rand e.cd n).owned ∧ (s.rand e.cd n).owner = c.ctx then f n (s.rand e.cd n) c s else .stop c s (.ends 0x02)
    runs (.func e) .txe 1 (fun c s => s.withDescs e c [c.w 1, c.w 2]
      (fun ds => decide ((desc ds 0).fmt = eFmt c.words) && decide ((desc ds 1).fmt = eAux c.words)
        && decide ((desc ds 0).dims = (desc ds 1).dims))
      (fun c s => engUnits bad (txeRow e) (c.desc 0).rows ((c.desc 0).rows + 1) c s))
    ∧ runs (.sort e) .sel 1 (select 1 (fun d _ => d.dim 0))
    ∧ runs (.topk e) .sel 2 (select 2 (fun _ c => fld c.words 4 0 17))
    ∧ runs (.gather e) .gse 1 (move .gather)
    ∧ runs (.scatter e) .gse 2 (move .scatter)
    ∧ runs (.scatteradd e) .gse 3 (move .scatterAdd)
    ∧ runs (.setstream e) .rand 1 (fun c s => unlessStruck bad c s (
      let n := fld c.words 1 0 12
      if (s.rand e.cd n).owned ∧ (s.rand e.cd n).owner ≠ c.ctx then .stop c s (.ends 0x02)
      else .go c (s.setRand e.cd n
        { owned := true, owner := c.ctx, key := BitVec.ofNat 128 (c.w 2 + 2 ^ 64 * c.w 3), ctr := BitVec.ofNat 128 (c.w 4 + 2 ^ 64 * c.w 5) })))
    ∧ runs (.getstream e) .rand 2 (fun c s => unlessStruck bad c s (stream (fun _ r c s =>
      s.engWrite e c (c.w 2) (leBytes 16 r.key.toNat ++ leBytes 16 r.ctr.toNat) (fun s1 => .go c s1)) c s))
    ∧ runs (.freestream e) .rand 3 (fun c s => unlessStruck bad c s
      (stream (fun n _ c s => .go c (s.setRand e.cd n { owned := false, owner := 0, key := 0, ctr := 0 })) c s))
    ∧ runs (.fill e) .rand 4 (stream (fun n r c s =>
      s.withDescs e c [c.w 2] (fun ds => decide ((desc ds 0).fmt = eFmt c.words)) (fun c s =>
        (engUnits bad (fillRow e r) (c.desc 0).rows ((c.desc 0).rows + 1) c s).bind (fun c1 s1 =>
          let nbits := (c.desc 0).dim 0 * (c.desc 0).rows * fillWidth (fld c.words 3 0 2) (c.desc 0).fmt
          .go c1 (s1.setRand e.cd n { r with ctr := r.ctr + BitVec.ofNat 128 ((nbits + 127) / 128) })))))
    ∧ runs (.combine e) .cre 1 (fun c s =>
      let work (c : EngCmd) (s : State) : EngRes := engUnits bad (foldRow e (c.desc 0) (c.descs.drop 1)) (c.desc 0).rows ((c.desc 0).rows + 1) c s
      if c.descs ≠ [] then work c s
      else s.engRead e c true (c.w 2) (8 * fld c.words 3 0 7) (fun b s1 =>
        s1.withDescs e c (c.w 1 :: (countFrom 0 (fld c.words 3 0 7)).map (fun i => leNat ((b.drop (8 * i)).take 8)))
          (fun ds => ds.all (fun y => decide (y.d.fmt = eFmt c.words) && decide (y.d.dims = (desc ds 0).dims))) work))
    ∧ runs (.collsend e) .cre 2 (fun c s => s.withDescs e c [c.w 1]
      (fun ds => decide ((desc ds 0).fmt = eFmt c.words) && decide ((desc ds 0).packed ≤ 2 ^ 40 - 1))
      (fun c s => engUnits bad (sendUnit e) (((c.desc 0).packed + 223) / 224) (((c.desc 0).packed + 223) / 224 + 1) c s))
    ∧ runs (.collrecv e) .cre 3 (fun c s =>
      s.withDescs e c (c.w 1 :: (if c.w 2 ≠ 0 then [c.w 2] else []))
        (fun ds => ds.all (fun y => decide (y.d.fmt = eFmt c.words) && decide (y.d.dims = (desc ds 0).dims)))
        (fun c s => openRanks e c s (fun c s => (takeHeld e ((s.creState e.cd).held.length + 1) c s).bind (fun c1 s1 =>
          if c1.ops.all (·.last) then engUnits bad (foldRow e (c1.desc 0) (recvOperands c1)) (c1.desc 0).rows ((c1.desc 0).rows + 1) c1 s1
          else .hold c1 s1))))
    ∧ runs (.transpose e) .tre 1 (fun c s => s.withDescs e c [c.w 1, c.w 2]
      (fun ds => decide ((desc ds 0).fmt = (desc ds 1).fmt) && knownFmt (desc ds 0).fmt && [8, 16, 32, 64].contains (fmtWidth (desc ds 0).fmt)
        && decide ((desc ds 1).dims = [(desc ds 0).dim 1, (desc ds 0).dim 0, (desc ds 0).dim 2, (desc ds 0).dim 3]))
      (fun c s => engUnits bad (transposeRow e) (c.desc 1).rows ((c.desc 1).rows + 1) c s))
    ∧ runs (.compress e) .lze 1 (fun c s =>
      engUnits bad (compressUnit e) ((c.w 2 + chunkSize - 1) / chunkSize) ((c.w 2 + chunkSize - 1) / chunkSize + 1) c s)
    ∧ runs (.decompress e) .lze 2 (fun c s => decompressUnits e bad 0 (c.w 2 / 16 + 1) c s)

/-- Mover channels run, and their control (12 R290, R292, R294, R296, 02 R64). It rests on the choices of log entries 14, 24, 41,
46, 57, 58. -/
def Obligations.MoverChannels : Prop :=
  (∀ (s : State) (m : MoverId),
     let x := s.mover m
     let fuel := dRows x.desc + 1
     let runs := MoverRuns s m x fuel
     runs (.moverCopy m) 0 ∧ runs (.moverConvert m) 1 ∧ runs (.moverCompress m) 2 ∧ runs (.moverDecompress m) 3)
  ∧ (∀ (s : State) (m : MoverId),
       let x := s.mover m
       let w := s.wakeMover m
       let y := w.mover m
       let takes : Prop := s.moverUp m ∧ s.moverByte m < 128
       let started : Mover := { y with
         st := .run
         desc := []
         earlier := []
         row := 0
         done := 0 }
       let again (t : State) : State := match x.handing with
         | some status => t.handBack m status
         | none => if x.desc = [] then t.fetchDesc m 2 else t
       let emptied := (s.setMover m { x with st := .idle }).rekick m
       (takes → exec (.mvctlKick m) s = .next
         (if y.st = .idle ∧ w.frozen = false ∧ w.held = false then (w.setMover m started).fetchDesc m 2
          else w.setMover m { y with kicked := true }))
       ∧ (takes → x.st = .halted → s.frozen = false → s.moverAcked m →
           exec (.mvctlResume m) s = .next
             (if x.cause = 1 ∨ x.cause = 7 then s.moverIrq m else if x.emptyHanded = true then emptied
              else again (s.setMover m { x with st := .run, cause := 0 }))
           ∧ exec (.mvctlAbort m) s = .next (if x.emptyHanded = true then emptied else s.handBack m x.cause))
       ∧ (s.moverAcked m = false → exec (.mvctlResume m) s = .next s ∧ exec (.mvctlAbort m) s = .next s)
       ∧ (takes → x.st = .idle → exec (.mvctlReset m) s = .next (s.setMover m { x with idx := 0 }))
       ∧ (¬takes → exec (.mvctlKick m) s = .next s ∧ exec (.mvctlResume m) s = .next s ∧ exec (.mvctlAbort m) s = .next s
           ∧ exec (.mvctlReset m) s = .next s))

/-- Coherence requests, messages, parity errors, evictions and uncached accesses (13 R309, R312, R313, R317, R318, R319, R320,
R321, R322, R324). It rests on the choices of log entries 6, 20, 25, 26, 28, 45, 52, 64. -/
def Obligations.CoherenceTraffic : Prop :=
  (∀ (s s0 : State) (cache dst : CacheId) (line : Nat) (more : Bool),
     let n := cacheKey cache
     let x := s.line cache line
     let inL2 : Bool := decide (352 ≤ n ∧ n < 356)
     exec (.readRequest cache line more none) s = .next (if x.st = .i then s.sendRequest cache line (.read cache) more else s)
     ∧ exec (.ownershipRequest cache line more) s = .next
       (if x.st = .i ∧ 160 ≤ n then s.sendRequest cache line (.own cache) more else s)
     ∧ exec (.upgradeRequest cache line more) s = .next
       (if (x.st = .s ∨ x.st = .f ∨ x.tr = .im) ∧ 160 ≤ n then s.sendRequest cache line (.upgrade cache) more else s)
     ∧ (∀ m rest, inL2 = false → x.hold = false → x.tr ≠ .is → x.tr ≠ .im → x.snoops = m :: rest → exec (.snoop cache line more) s = .next
         ((((s.wakeFor cache).setLine cache line { x with snoops := rest }).serveSnoop cache line m).pump line))
     ∧ (inL2 = false → x.hold ∨ x.tr = .is ∨ x.tr = .im → exec (.snoop cache line more) s = .next s)
     ∧ (∀ (d : Fin 4) m rest, cache = .l2 d → mget [] s.snoopq d.val = (line, m) :: rest → exec (.snoop cache line more) s = .next
         (({ s with snoopq := mset [] s.snoopq d.val rest } : State).arrive d.val line (.forwarded m) more))
     ∧ (x.hold → s.pinned line = false → exec (.holdWindowEnd cache line) s = .next
         ((x.snoops.foldl (fun (t : State) _ => t.takeSnoop cache line) (s.setLine cache line { x with hold := false })).pump line).letGo)
     ∧ (∀ m rest, x.snoops = m :: rest →
         s.takeSnoop cache line = ((s.wakeFor cache).setLine cache line { (s.wakeFor cache).line cache line with snoops := rest }).serveSnoop cache line m)
     ∧ (x.hold = false ∨ s.pinned line → exec (.holdWindowEnd cache line) s = .next s)
     ∧ (n < 352 → dst ≠ dieL2 (dirOf n) →
         (x.st = .m → s.serveSnoop cache line (.read dst) = ((s.handUp n line).restate cache line .s).grant dst line .f)
         ∧ (x.st = .e → s.serveSnoop cache line (.read dst) = (s.restate cache line .f).grant dst line .f)
         ∧ s.serveSnoop cache line (.inval dst) = (s.dropCopy cache line).acked dst line)
     ∧ (∀ st w, inL2 = false → cache ≠ .l3 → x.granted = some st → x.awaits = 0 →
         (x.st ≠ .i ∧ w = x.way ∧ s0 = s ∨ x.st = .i ∧ s.place n line x.cls = (some w, s0)) →
         let t := if st = .f then s0.demoteF (dirOf n) line cache else s0
         let s1 := (t.setLine cache line { t.line cache line with
           st := st, poison := s0.linePoison line, way := w, tr := .none, granted := none, hold := holdsLines n }).used n line w (!x.nt)
         exec (.fillRetry cache line) s = .next s1
         ∧ ((s1.dirEntry (dirOf n) line).awaited = [cache] →
             exec (.fillAck cache line) s = .next ((s1.closeEntry (dirOf n) line).pump line).letGo)
         ∧ (∀ c : CacheId, st = .f → dirOf n < 4 → dirOf (cacheKey c) = dirOf n → cacheKey c ≠ n → line < 2 ^ 48 →
             (s0.line c line).st = .f → (t.line c line).st = .s)))
  ∧ (∀ (s : State) (cache c : CacheId) (line : Nat) (more : Bool),
       let st := (s.line c line).st
       let ends (w : ParityAt) (t : State) : Prop := (t.line cache line).st ≠ .i →
         exec (.readRequest cache line more (some (c, w))) s = .next t
       (st ≠ .i → st ≠ .m → ends .data ((s.dropClean c line).report (parityRec c line false)))
       ∧ (st = .m → ends .data (s.report (parityRec c line true)))
       ∧ (cacheKey c < 160 → ends .tag ((s.dropClean c line).report (parityRec c line false)))
       ∧ (160 ≤ cacheKey c → ends .tag (s.report (parityRec c line true)))
       ∧ ends .directory (s.report (parityRec c line true)))
  ∧ (∀ (s : State) (cache : CacheId) (line : Nat) (more : Bool) (src : EtuId) (cls : Fin 5) (addr : BitVec 52) (size : Nat)
         (data : List Byte),
       let x := s.line cache line
       let dir := dirOf (cacheKey cache)
       let a := addr.toNat
       (x.tr = .mi ∨ x.tr = .ei → exec (.writeback cache line more) s = .next (s.arrive dir line (.writeback cache) more))
       ∧ (x.tr ≠ .mi → x.tr ≠ .ei → exec (.writeback cache line more) s = .next s)
       ∧ (x.tr = .ei → exec (.cleanEvictionNotice cache line more) s = .next (s.arrive dir line (.notice cache) more))
       ∧ (x.tr ≠ .ei → exec (.cleanEvictionNotice cache line more) s = .next s)
       ∧ (dir < 4 → x.tr = .mi → s.serveDie dir line (.writeback cache) = some
           ((s.restate (dieL2 dir) line .m).modLine cache line (fun y => if y.tr = .mi ∨ y.tr = .ei then { y with tr := .none } else y)))
       ∧ ((s.kindAt a).normal → s.busOk a size → 0 < size →
           ((linesOf a size).any (s.inputHeld src) → exec (.uncachedRead src addr size more) s = .next s)
           ∧ ((linesOf a size).any (s.inputHeld src) = false →
               (a % 128 + size ≤ 128 → exec (.uncachedRead src addr size more) s =
                 .next (s.arrive (uncachedDir src) (lineOf a) (.uncached src 0 (a % 128) size none) more))
               ∧ (128 < a % 128 + size → exec (.uncachedRead src addr size more) s = .next
                   { (linesOf a size).foldl (fun (t : State) l => t.touch (servingCache src) l) s with busOut := s.readMem a size })))
       ∧ (∀ t : State, t.takeTurn (uncachedDir src) (lineOf a) (.uncached src 0 (a % 128) size none) =
           { (t.noteSlot (uncachedDir src) (DirReq.uncached src 0 0 0 none).slot).touch (servingCache src) (lineOf a) with
             busOut := t.readMem (lineOf a * 128 + a % 128) size })
       ∧ ((s.kindAt a).normal = false ∨ s.busOk a size = false → exec (.uncachedRead src addr size more) s = .next { s with busOut := [] })
       ∧ ((s.kindAt a).normal → s.busOk a data.length → data ≠ [] → (∀ l ∈ linesOf a data.length, (s.dirEntry (uncachedDir src) l).batch = []) →
           exec (.uncachedWrite src cls addr data false) s = .next
             (if (linesOf a data.length).any (fun l => !s.quiet l || s.writeHeld l) then s
              else (linesOf a data.length).foldl (fun (t : State) _ => t.noteSlot (uncachedDir src) (DirReq.uncached src 0 0 0 none).slot)
                (s.writeMem src cls a data))
           ∧ exec (.uncachedWrite src cls addr data true) s = .next
             ((linePieces (data.length + 1) a data).foldl (fun (t : State) y =>
               t.arrive (uncachedDir src) y.1 (.uncached src cls y.2.1 y.2.2.length (some y.2.2)) true) s)))

/-- Reads and writes of the memory tiers, with their errors and seals (14 R331, R332, R335, R337, R339, R344). It rests on the
choices of log entries 4, 5, 27, 42. -/
def Obligations.TierReadsAndWrites : Prop :=
  ∀ (s : State) (addr : BitVec 52) (b : MemBlockId) (t : Nat),
    let a := addr.toNat
    let line := a % 4096 / 128
    let pa := s.tileAddr b t
    let at' := s.dramPlace b t
    s.dramTile a = some (b, t) →
    exec (.dramRead addr .clean) s = .next s
    ∧ exec (.dramRead addr .uncorrectable) s = .next ((s.poisonDram b t 6 0x02 0 (pa + 128 * line)).askRemap b at' line)
    ∧ (∀ multi,
      let k := s.block b
      let s1 := (s.setBlock b { k with eccCe := satAdd k.eccCe 1 }).report (tierRec b t 0x01 0 0 (pa + 128 * line))
      (b = .hd → exec (.dramRead addr (.corrected multi)) s = .next (if multi then s1.askRemap b at' line else s1))
      ∧ (∀ d, b = .mb d →
        let n := d.val * 4 + at' % 4
        let r := trackRow (s1.stack n).tracker (rowKey at' line)
        let s2 := s1.setStack n { s1.stack n with tracker := r.1 }
        exec (.dramRead addr (.corrected multi)) s
          = .next (if multi ∨ k.remapThresh.toNat ≤ r.2 then s2.askRemap b at' line else s2)))
    ∧ (∀ (who : SealReader), (s.kindAt a).normal → s.tileOf a = some (b, t) → s.verifies who →
      let c := (s.cleanTile pa).bump
      let k := c.block b
      let src := readerSrc (Config.freeWord s.fresh).toNat who
      exec (.sealVerifyingRead addr who .agrees) s = .next c
      ∧ exec (.sealVerifyingRead addr who .clears) s = .next
        ((c.setBlock b { k with retryOk := satAdd k.retryOk 1 }).report (tierRec b t 0x03 0 0 (c.tileAddr b t)))
      ∧ exec (.sealVerifyingRead addr who .persists) s = .next
        ((c.poisonDram b t src 0x04 src (c.tileAddr b t)).sealFails who pa))
    ∧ (∀ who o, s.verifies who = false → exec (.sealVerifyingRead addr who o) s = .next s)
    ∧ (∀ data : List Byte, (s.kindAt a).normal → data.length = 128 → s.isDirty (lineOf a) = false →
      exec (.dramLineWrite addr data) s = .next (s.dramWrite (lineOf a) data true))

/-- The seal engine (14 R342, R352, R353). It rests on the choices of log entries 27, 42. -/
def Obligations.SealEngine : Prop :=
  ∀ (s : State) (b : MemBlockId) (value : Word),
    let k := s.block b
    let begins (s : State) (op result done : Nat) : State := s.setBlock b { s.block b with
      seBusy := true
      seMismatch := 0
      seCmd := some { op := op, irq := value.getLsbD 8, result := BitVec.ofNat 8 result, done := done } }
    let page := bits k.seStart.toNat 0 11
    let slot := bits k.seStart.toNat 11 2
    let ents := k.poison.map (fun x => leBytes 8 x.1) ++ k.retired.map (fun g => leBytes 8 (granuleTile b g + 2 ^ 32))
    (k.seBusy → exec (.readseal b value) s = .next s ∧ exec (.verify b value) s = .next s ∧ exec (.listpoison b value) s = .next s
      ∧ exec (.reseal b value) s = .next s ∧ exec (.move b value) s = .next s)
    ∧ (k.seBusy = false → k.range b = none →
      exec (.readseal b value) s = .next (begins s 1 1 0) ∧ exec (.verify b value) s = .next (begins s 2 1 0)
      ∧ ((s.etu (blockEtu b)).maint → exec (.reseal b value) s = .next (begins s 4 1 0)))
    ∧ (k.seBusy = false → (s.etu (blockEtu b)).maint = false → exec (.reseal b value) s = .next (begins s 4 2 0))
    ∧ (∀ f n, k.seBusy = false → k.range b = some (f, n) →
      (let w := s.seWrite b ((countFrom f n).flatMap (fun t => leBytes 4 (s.sealOf b t)))
       exec (.readseal b value) s = .next (begins w.2.bump 1 w.1 (if w.1 = 0 then n else 0)))
      ∧ exec (.verify b value) s = .next (begins
        ((countFrom f n).foldl (fun (s : State) t => if sealTile b t then s else s.cleanTile (s.tileAddr b t)) s) 2 0 n)
      ∧ ((s.etu (blockEtu b)).maint → exec (.reseal b value) s = .next (begins
        ((countFrom f n).foldl (fun (s : State) t => s.resealTile b t) s) 4 0 n)))
    ∧ (k.seBusy = false → let w := s.seWrite b ents.flatten
        exec (.listpoison b value) s = .next (begins w.2 3 w.1 (if w.1 = 0 then ents.length else 0)))
    ∧ (∀ c, k.seCmd = some c →
      let s1 := s.setBlock b { k with seBusy := false, seCmd := none, seResult := c.result, seDone := BitVec.ofNat 32 c.done }
      exec (.sealEngineCommandComplete b) s = .next (if c.irq then s1.hicSource (0xE0 + blockKey b) else s1))
    ∧ (k.seBusy = false → k.moving = none → page < blockPages b → (∀ i < 4, s.poolPage b i ≠ page) → bits k.seStart.toNat 13 19 = 0 →
      (∀ r ∈ k.redirects, r.slot ≠ slot) → exec (.move b value) s = .next (s.setBlock b { k with
        redirects := k.redirects.filter (fun r => decide (r.page ≠ page)) ++ [{ page := page, slot := slot }]
        moving := some (page, slot, value.getLsbD 8)
        seResult := 0
        seDone := 0 }))
    ∧ (k.seBusy = false → k.moving.isSome → exec (.move b value) s = .next
        (let t := s.setBlock b { k with seResult := 5 }
         if value.getLsbD 8 then t.hicSource (0xE0 + blockKey b) else t))
    ∧ (∀ pg sl irq, k.moving = some (pg, sl, irq) →
      let s1 := (s.setBlock b { k with moving := none, seResult := 0, seDone := 0x40000 }).logRepair b (4 + 2 ^ 37 * pg + 2 ^ 48 * sl)
      exec (.pageMoveComplete b) s = .next (if irq then s1.hicSource (0xE0 + blockKey b) else s1))

/-- Repair, patrol, die links and acknowledgement of records (14 R339, R345, R350, 01 R21, 18 R433). It rests on the choices of log
entries 6, 24, 27, 42. -/
def Obligations.RepairAndLinks : Prop :=
  ∀ (s : State) (b : MemBlockId) (l : LinkId) (die : DieId) (value : Word) (line : Fin 32) (o : DramOutcome) (cmp : SealOutcome)
      (fwd : Bool),
    let k := s.block b
    let x := mget LinkState.reset s.links (linkIds l).1
    let put (y : LinkState) : State := { s with links := mset LinkState.reset s.links (linkIds l).1 y }
    let failed := if fwd then x.fwd else x.back
    let count (n : Nat) : LinkState := if fwd then { x with fwd := n } else { x with back := n }
    let q := s.mcq die.val
    let p1 := s.dramOutcome b k.patrol line.val o
    let p2 := if sealTile b k.patrol then p1 else p1.sealOutcome b k.patrol 5 cmp
    (k.patrol + 1 < blockTiles b → exec (.patrol b line o cmp) s = .next (p2.setBlock b { p2.block b with patrol := k.patrol + 1 }))
    ∧ (∀ (d : Fin 4) (r : RemapReq) (rest : List RemapReq) (i : Nat) (bad : List (Fin 8)), b = .mb d → k.unlogged = [] →
      k.remaps = r :: rest → s.frozen = false → s.power.failStop = none →
      let n := d.val * 4 + r.stack
      let y := s.stack n
      let t := ((s.setBlock b { k with remaps := rest }).copyRow b r bad).setStack n { y with
        cam := mset 8 y.cam r.row i
        newRemap := satAdd y.newRemap 1
        lastRow := remapLast r.row i false (decide (bad ≠ [])) }
      (k.autoDis → exec (.rowRemap b bad) s = .next s)
      ∧ (k.autoDis = false → y.spareOf r.row = none → y.freeSpare (r.row / 12288) = some i →
        exec (.rowRemap b bad) s = .next (t.setBlock b { t.block b with unlogged := [rowLogWord 1 r.stack r.row i] })))
    ∧ (∀ (d : Fin 4) (w : Nat) (bad : List (Fin 8)), b = .mb d → k.unlogged = [w] →
        exec (.rowRemap b bad) s = .next ((s.setBlock b { k with unlogged := [] }).logRepair b w))
    ∧ (∀ g rest, k.retq = g :: rest → exec (.retqRead b) s = .next
        { s.setBlock b { k with retq := rest, retLost := false } with
          busOut := leBytes 8 (BitVec.ofNat 64 (1 + 2 * b2n (sealTile b (granuleTile b g)) + 4 * b2n k.retLost
            + s.tileAddr b (granuleTile b g) / 4096 * 4096)).toNat })
    ∧ exec (.mcack die value) s = .next
        (s.setMcq die.val { q with slots := q.slots.filter (fun y => decide (y.2.seq ≠ value.extractLsb' 0 16)) })
    ∧ (∀ t, exec (.sealCacheEvict b t) s = .next (s.setBlock b { k with sealCache := k.sealCache.filter (fun y => decide (y.1 ≠ t)) }))
    ∧ (x.down = false → exec (.dieLinkFlitReceive l fwd true) s = .next (put (count 0)))
    ∧ (x.down = false → failed < 8 → exec (.dieLinkFlitReceive l fwd false) s = .next
        ((put (count (failed + 1))).report (mkRec (linkEnd l fwd).1 (linkEnd l fwd).2 0x0E 0 0 0)))
    ∧ (x.down = false → 8 ≤ failed → exec (.dieLinkFlitReceive l fwd false) s = .next
        ((put { x with down := true }).report (mkRec (linkEnd l fwd).1 (linkEnd l fwd).2 0x0F 3 0 0)))
    ∧ (x.down → ∀ ok, exec (.dieLinkFlitReceive l fwd ok) s = .next s)

/-- Fabric ports, collective flits and the Bridle (15 R360, R361, R363, R364, R368, 16 R395, R396). It rests on the choices of log
entries 6, 40, 47, 62, 63. -/
def Obligations.FabricTraffic : Prop :=
  (∀ (s0 s : State) (p : Fin 12) (data0 data : List Byte) (peer peerPort : Nat) (failed : Bool),
     let x := s.port p
     let f := Flit.ofBytes data
     let taken : State := (s.setPort p { x.takeHeader f with rxSeq := x.rxSeq + 1, nackSent := false }).pumpPort p (x.waitq.length + 1)
     let y := taken.port p
     let known (peer peerPort : Nat) : Port := { x with peerSeen := BitVec.ofNat 20 peer, peerPSeen := BitVec.ofNat 4 peerPort }
     let up (peer peerPort : Nat) (st : PortState) : State := (s.setPort p (portUp known peer peerPort st)).pumpPort p (x.waitq.length + 1)
     let rec' : McRec := mkRec (p.val / 3 + 1) (0xA000 + p.val) 0x13 1 0 1
     (x.st ≠ .loopback → s.arriving p data = some (data, s))
     ∧ (∀ b rest, x.st = .loopback → x.loop = b :: rest →
         s.arriving p data = some (if flitGood data then b else data, s.setPort p { x with loop := rest }))
     ∧ (x.st = .loopback → x.loop = [] → exec (.flitReceive p data) s = .next s)
     ∧ (s0.arriving p data0 = some (data, s) →
         (x.carries → flitGood data → f.reserved = 0 → f.ftype = 1 ∨ f.ftype = 2 → f.fseq = x.rxSeq.toNat →
           f.dst = s.moduleId →
           exec (.flitReceive p data0) s0 = .next ((taken.setPort p { y with rxq := y.rxq ++ [f] }).sendNull p 0 f.vc))
         ∧ (x.carries → flitGood data → f.reserved = 0 → f.ftype = 1 ∨ f.ftype = 2 → f.fseq = x.rxSeq.toNat →
           f.dst ≠ s.moduleId →
           exec (.flitReceive p data0) s0 = .next ((taken.forwardFlit p f).sendNull p 0 f.vc))
         ∧ (x.carries → flitGood data → f.reserved = 0 → f.ftype = 0 → f.fseq = x.rxSeq.toNat →
           exec (.flitReceive p data0) s0 = .next ((s.setPort p { x.takeHeader f with nackSent := false }).pumpPort p (x.waitq.length + 1)))
         ∧ (x.carries → flitGood data = false ∨ f.reserved ≠ 0 →
           exec (.flitReceive p data0) s0 = .next (s.discardFlit p true))
         ∧ (x.carries → flitGood data → f.reserved = 0 → f.fseq ≠ x.rxSeq.toNat →
           exec (.flitReceive p data0) s0 = .next (s.discardFlit p false))
         ∧ (x.carries = false → exec (.flitReceive p data0) s0 = .next s))
     ∧ (∀ g s1 q, s.takeFlit p (fun g => decide (g.ftype = 3)) = (some g, s1) → g.payload = [1, q] →
         let z := s1.port p
         let owed := z.replay.dropWhile (fun h => decide (h.fseq ≠ q.toNat))
         let again := z.nackSeq = q.toNat ∧ 0 < z.failedReplays
         let replayed (n : Nat) : State := owed.foldl (fun (t : State) h => t.transmit p h)
           (s1.setPort p { z with nackSeq := q.toNat, failedReplays := n, replays := satAdd z.replays 1 })
         (owed = [] ∨ s1.power.failStop.isSome ∨ (again ∧ failed = false) → exec (.linkctlNack p failed) s = .next s1)
         ∧ (owed ≠ [] → s1.power.failStop = none →
           (¬again → exec (.linkctlNack p failed) s = .next (replayed 1))
           ∧ (again → z.failedReplays < 8 → exec (.linkctlNack p true) s = .next (replayed (z.failedReplays + 1)))
           ∧ (again → 8 ≤ z.failedReplays → exec (.linkctlNack p true) s = .next (s1.portDown p))))
     ∧ (∀ g s1, s.takeFlit p (fun g => decide (g.ftype = 3)) = (some g, s1) → g.payload.headD 0 ≠ 1 →
         exec (.linkctlNack p failed) s = .next s1)
     ∧ exec (.fecAlignmentLoss p) s = .next (if x.carries then s.portDown p else s)
     ∧ exec (.retrainTimeout p) s = .next (if x.st = .training then s.portDown p else s)
     ∧ (x.st = .training → s.powered 9 →
         (s.portRole p ≠ 0 → s.portRole p ≠ 3 →
           (peer = s.portPeerId p → peerPort = s.portPeerPort p →
             exec (.portTrainingComplete p peer peerPort) s = .next (up peer peerPort .up))
           ∧ (peer ≠ s.portPeerId p ∨ peerPort ≠ s.portPeerPort p →
             exec (.portTrainingComplete p peer peerPort) s = .next ((s.setPort p (known peer peerPort)).report rec')))
         ∧ (s.portRole p = 3 →
           (s.moduleId = s.portPeerId p → p.val = s.portPeerPort p →
             exec (.portTrainingComplete p peer peerPort) s = .next (up s.moduleId p.val .loopback))
           ∧ (s.moduleId ≠ s.portPeerId p ∨ p.val ≠ s.portPeerPort p →
             exec (.portTrainingComplete p peer peerPort) s = .next ((s.setPort p (known s.moduleId p.val)).report rec')))))
  ∧ (∀ (s : State) (cd : Fin 4) (p : Fin 12) (f : Flit),
       let st := s.creState cd
       (∀ s1, s.cdUp cd → (s.port p).rxq.find? (fun g => decide (g.ftype = 1) && decide (g.dcd = cd.val)) = some f →
           s.deliverColl cd (some p) f = (true, s1) →
           exec (.collFlit cd (some p)) s = .next ((s1.setPort p { s1.port p with rxq := (s1.port p).rxq.erase f }).returnCredit p f.vc))
       ∧ (∀ s1 rest, s.cdUp cd → st.localq = f :: rest → s.deliverColl cd none f = (true, s1) →
           exec (.collFlit cd none) s = .next (s1.setCreState cd { s1.creState cd with localq := (s1.creState cd).localq.drop 1 }))
       ∧ (∀ o rest, s.openRecv cd = none → st.held = (o, f) :: rest →
           let q : Fin 12 := o.getD (Fin.ofNat 12 (3 * cd.val))
           exec (.nomatchTimeout cd) s = .next ((s.setCreState cd { st with held := rest }).setPort q
             { s.port q with noMatch := satAdd (s.port q).noMatch 1 }))
       ∧ (s.seeksPair →
           let s0 := (countFrom 0 s.bridlePorts.length).foldl
             (fun (t : State) i => t.sendBridle t.bridleId 2 0 i 0 0 true t.pairInfo.bytes) s
           let s1 : State := { s0 with snap := { s0.snap with
             pairSent := s0.snap.pairSent || s.bridlePorts.any (fun p => (s.port p).carries) } }
           (s1.snap.peer = none → exec .bridlePairingTimer s = .next (s1.pairFails 1))
           ∧ (s1.snap.peer.isSome → exec .bridlePairingTimer s = .next s1.tryPair))
       ∧ (s.seeksPair = false → exec .bridlePairingTimer s = .next s)
       ∧ (∀ s1, s.takeBridle p 2 = (some f, s1) → s1.seeksPair → f.src = s1.bridleId →
           exec (.bridlePairing p) s = .next
             (State.tryPair { s1 with snap := { s1.snap with peer := some (PairInfo.ofBytes f.payload) } }))
       ∧ (∀ b, s.seeksPair → s.snap.peer = some b →
           let a := s.pairInfo
           (pairReason a b = 0 → pairReason b a = 0 →
             (s.snap.pairSent → s.tryPair = { s with snap := { s.snap with paired := true, pairFail := 0 } })
             ∧ (s.snap.pairSent = false → s.tryPair = s))
           ∧ (pairReason a b ≠ 0 → s.tryPair = s.pairFails (pairReason a b))
           ∧ (pairReason a b = 0 → pairReason b a ≠ 0 → s.tryPair = s.pairFails (pairReason b a)))
       ∧ (∀ s1, s.takeBridle p 0 = (some f, s1) → s1.intake f = .ward →
           let t := s1.dramPut (s1.halfBase s1.snap.epoch.toNat + s1.homeSize + f.offset) f.payload
           exec (.bridleSlotData p) s = .next { t with snap := { t.snap with
             wardBytes := t.snap.wardBytes + f.payload.length
             rcvd := if (f.offset + f.payload.length) % 65536 = 0 then t.snap.rcvd + 1 else t.snap.rcvd } })
       ∧ (∀ s1, s.takeBridle p 1 = (some f, s1) → s1.intake f = .ward →
           let t := s1.putManifest (wardManifestAt s1.snap.epoch.toNat) f.offset f.payload
           exec (.bridleManifest p) s = .next { t with snap := { t.snap with wardBytes := t.snap.wardBytes + f.payload.length } })
       ∧ (∀ s1, s.takeBridle p 3 = (some f, s1) → s1.intake f = .ward → s1.snap.wardBytes = leNat (f.payload.take 8) →
           exec (.bridleEndOfStream p false) s = .next
             (if s1.digestsAgree (wardManifestAt s1.snap.epoch.toNat) (s1.halfBase s1.snap.epoch.toNat + s1.homeSize) = true then
                { s1 with snap := { s1.snap with wardDone := true } }.sendBridle f.src 3 f.collId 0 0 0 true (leBytes 8 s1.snap.wardBytes)
              else s1.raiseFault 6 (BitVec.ofNat 20 s1.bridleId))))

/-- Stops, notices, heartbeats and token blocks of the Tether (15 R372, R373, R376, R377, R381, R383, 16 R400). It rests on the
choices of log entries 4, 6, 24, 45, 47. -/
def Obligations.TetherStopsAndNotices : Prop :=
  (∀ (s : State) (cause : Byte) (t : TokenIn),
     let own (n : Nat) : State := ({ s with tether := { s.tether with tseq := s.tether.tseq + 1 } }.floodStop none s.moduleId
       s.tether.tseq.toNat n).stopHere s.moduleId n
     let seen : State := { s with tether := { s.tether with stopsTaken := s.tether.stopsTaken ++ [(t.origin, t.tseq)] } }
     exec (.stop .own cause) s = .next (own cause.toNat)
     ∧ exec .tctlStop s = .next (own 6)
     ∧ (s.powered 0 → s.tdir t.port.val ≠ 0 → t.crcOk → (t.origin, t.tseq) ∉ s.tether.stopsTaken →
         exec (.stop (.port t) cause) s = .next ((seen.floodStop (some t.port.val) t.origin.toNat t.tseq.toNat cause.toNat).stopHere
           t.origin.toNat cause.toNat))
     ∧ (s.powered 0 → s.tdir t.port.val ≠ 0 → t.crcOk → (t.origin, t.tseq) ∈ s.tether.stopsTaken →
         exec (.stop (.port t) cause) s = .next s)
     ∧ (s.powered 0 → s.tdir t.port.val ≠ 0 → t.crcOk = false → exec (.stop (.port t) cause) s = .next
         (let u := s.setTport t.port { s.tport t.port with crcErr := satAdd (s.tport t.port).crcErr 1 }
          { u with tether := { u.tether with tcrcErr := satAdd u.tether.tcrcErr 1 } }))
     ∧ (∀ n, (s.stopHere n cause.toNat).frozen))
  ∧ (∀ (s : State) (t : TokenIn) (subject : BitVec 20) (b : Byte) (p : Fin 8),
       let x := s.tport t.port
       let live : Prop := s.powered 0 ∧ t.crcOk ∧ x.held = none
       let flood (arg : Nat) : State := s.passOn t (without t.port.val s.usedTports) 5 0 arg (some 0)
       let wrong : Bool := decide (t.origin.toNat ≠ s.tpeer t.port.val)
       let beat : State := s.setTport t.port { x with seen := true, peerSeen := t.origin, mismatch := x.mismatch || (!x.seen && wrong) }
       (live → t.half = false → s.tdir t.port.val = 2 → exec (.noticeFault t subject b) s = .next (s.faultUp t.origin subject t.tseq.toNat b.toNat))
       ∧ (∀ u, live → t.half = false → s.tdir t.port.val = 2 → b ≠ 1 → s.upPort = some u → t.origin.toNat ∈ s.managed →
           let s1 := (s.deliverNotice 1 b.toNat t.origin subject).sampleCounter
           exec (.noticeFault t subject b) s = .next
             (if s1.tether.sentUp.any (fun y => decide (y.1 = subject) && decide ((s1.power.counter - y.2).toNat < 25000)) = true then s1
              else ({ s1 with tether := s1.tether.noteSent subject s1.power.counter }).sendOwn [u] 5 0 (1 + 256 * b.toNat) (some subject.toNat)))
       ∧ exec .tctlNote s = .next (({ s with tether := { s.tether with tseq := s.tether.tseq + 1 } }).faultUp (BitVec.ofNat 20 s.moduleId)
           s.tether.subject s.tether.tseq.toNat 5)
       ∧ (live → s.tdir t.port.val ≠ 0 →
           let u : State := flood (2 + 256 * b.toNat)
           (t.half = false → exec (.noticeThermalSlow t b) s = .next
             (({ u with tether := { u.tether with slow := (u.tether.slow.filter (fun (y : SlowNotice) => decide (y.origin ≠ t.origin)))
                 ++ [({ origin := t.origin, factor := b } : SlowNotice)] } }).deliverNotice 2 b.toNat t.origin 0))
           ∧ (let v : State := flood 3
              t.half = false → exec (.noticeClear t) s = .next
               (({ v with tether := { v.tether with slow := v.tether.slow.filter (fun (y : SlowNotice) => decide (y.origin ≠ t.origin)) } }).deliverNotice 3 0
                 t.origin 0))
           ∧ exec (.heartbeat t) s = .next
             (if !x.seen && wrong then beat.report (mkRec 0 (0xA010 + t.port.val) 0x13 1 0 1) else beat))
       ∧ (s.powered 0 → exec .tetherHeartbeatTimer s = .next
           (s.sendOwn s.usedTports 6 0 0 none))
       ∧ (s.powered 0 → exec (.tetherBlockLock p) s = .next (s.setTport p { s.tport p with lock := true, gone := false, held := none }))
       ∧ (s.powered 0 → s.tdir p.val ≠ 0 → (s.tport p).gone = false →
           exec (.heartbeatLost p) s = .next (s.neighbourLost p).settleAll)
       ∧ (∀ n rest, s.tether.notices = n :: rest → exec .tnotqRead s = .next { s with
           tether := { s.tether with noticeLost := false, notices := rest }
           busOut := leBytes 8 (BitVec.ofNat 64 (1 + 2 * b2n s.tether.noticeLost + 2 ^ 8 * n.code.toNat + 2 ^ 16 * n.data.toNat
             + 2 ^ 24 * n.origin.toNat + 2 ^ 44 * n.subject.toNat)).toNat })
       ∧ (s.tether.notices = [] → exec .tnotqRead s = .next { s with
           tether := { s.tether with noticeLost := false }
           busOut := leBytes 8 (BitVec.ofNat 64 (2 * b2n s.tether.noticeLost)).toNat }))
  ∧ (∀ (s : State) (t : TokenIn) (subject : BitVec 20) (b : Byte) (id : BitVec 16) (slot : Fin 4) (op : BitVec 3) (rid : BitVec 11) (v : Word),
       let x := s.tport t.port
       let freed := s.setTport t.port { x with held := none }
       let dropped : State :=
         let u := freed.setTport t.port { freed.tport t.port with crcErr := satAdd (freed.tport t.port).crcErr 1 }
         { u with tether := { u.tether with tcrcErr := satAdd u.tether.tcrcErr 1 } }
       s.powered 0 → s.tdir t.port.val ≠ 0 →
       (∀ (i : Instr) (body : TokenBody), (i, body) ∈ [(.noticeFault t subject b, noticeBody 1 b.toNat subject.toNat),
           (.noticeThermalSlow t b, noticeBody 2 b.toNat 0), (.noticeClear t, noticeBody 3 0 0),
           (.reduceUp t slot op rid v, reduceBody 0 slot op rid v), (.reduceResult t slot op rid v, reduceBody 1 slot op rid v)] →
         let first := TokenIn.block t body
         (x.held = none → t.half → exec i s = .next (s.setTport t.port { x with held := some first }))
         ∧ (x.held = some first → t.half = false → t.crcOk → exec i s = exec i freed)
         ∧ (∀ h, x.held = some h → t.half ∨ h ≠ first ∨ t.crcOk = false → exec i s = .next dropped))
       ∧ (∀ h, x.held = some h → ∀ i ∈ [Instr.heartbeat t, .barrierArrive t id, .barrierComplete t id, .flipArrive t, .flipOpen (.port t),
           .flipComplete t, .flipAbandon t], exec i s = .next dropped))

/-- Barriers, flips and reduces of the Tether (15 R378, R379, R380, R383, 02 R64, R65, 16 R400). It rests on the choices of log
entries 45, 47, 55, 65. -/
def Obligations.BarriersFlipsReduces : Prop :=
  (∀ (s : State) (t : TokenIn) (value x : Word) (id : BitVec 16) (slot : Fin 4) (op : BitVec 3) (rid : BitVec 11),
     let good : Prop := s.powered 0 ∧ t.crcOk ∧ (s.tport t.port).held = none
     let up : Prop := good ∧ s.tdir t.port.val = 2
     let down : Prop := good ∧ s.tdir t.port.val = 1
     let pass (kind sub arg : Nat) (ext : Option Nat) : State := s.passOn t s.downPorts kind sub arg ext
     let flipClosed (u : State) : State :=
       { u with tether := { u.tether with flipOwn := false, flipPorts := [], flipSent := false, flipOpened := false, flipTimer := false } }
     (s.powered 0 → exec (.tbar value) s = .next (s.arriveBarrier 8 (value.extractLsb' 0 16)).takeHeldArrivals)
     ∧ (up → exec (.barrierArrive t id) s = .next (s.arriveBarrier t.port.val id).takeHeldArrivals)
     ∧ (down → exec (.barrierComplete t id) s = .next ((pass 3 1 id.toNat none).barrierDone t.origin id).takeHeldArrivals)
     ∧ (s.image.shd = .armed → s.image.committed = false → s.quiescent → s.imageInForce → exec .flipQuiescent s = .next
         { s with
           image := { s.image with hold := true, committed := true }
           tether := { s.tether with flipOwn := true } }.settleFlip)
     ∧ (up → t.port.val ∉ s.tether.flipPorts → exec (.flipArrive t) s = .next
         { s with tether := { s.tether with flipPorts := s.tether.flipPorts ++ [t.port.val] } }.settleFlip)
     ∧ (up → t.port.val ∈ s.tether.flipPorts → exec (.flipArrive t) s = .next { s with tether := { s.tether with barErr := true } })
     ∧ (s.powered 0 → s.tetherRole = 2 → s.tether.flipOpened = false → exec (.flipOpen .own) s = .next
         (({ s with tether := { s.tether with flipOpened := true, flipTimer := true } }).sendOwn s.downPorts 2 2 0 none).settleFlip)
     ∧ (down → exec (.flipOpen (.port t)) s = .next
         (({ s with tether := { s.tether with flipOpened := true } }).passOn t s.downPorts 2 2 0 none).settleFlip
       ∧ exec (.flipComplete t) s = .next (flipClosed (pass 2 1 0 none)).flipCompletes
       ∧ exec (.flipAbandon t) s = .next (flipClosed (pass 2 3 0 none)).flipAbandoned)
     ∧ (s.powered 0 → s.tetherRole = 2 → s.tether.flipTimer → exec .flipAbandonTimeout s = .next
         (flipClosed (s.sendOwn s.downPorts 2 3 0 none)).flipAbandoned)
     ∧ (s.powered 0 → exec (.tredctl value) s = .next
         (s.contribute 8 (value.extractLsb' 0 2).toNat (value.extractLsb' 2 3) (value.extractLsb' 5 11) s.tether.tred))
     ∧ (up → t.half = false → exec (.reduceUp t slot op rid x) s = .next (s.contribute t.port.val slot.val op rid x))
     ∧ (down → t.half = false →
         let u := pass 4 1 (rid.toNat + 2 ^ 11 * op.toNat + 2 ^ 14 * slot.val) (some x.toNat)
         exec (.reduceResult t slot op rid x) s = .next
           (({ u with tether := { u.tether with
               reds := u.tether.reds.filter (fun r => decide (r.slot ≠ slot.val))
               redRes := mset 0 u.tether.redRes slot.val x } }).deliverNotice 5 slot.val t.origin 0)))
  ∧ (∀ (s : State) (id : BitVec 16) (f : Nat) (o : BitVec 20),
       let put (b : BarSlot) : State :=
         { s with tether := { s.tether with bars := s.tether.bars.filter (fun y => decide (y.slot ≠ b.slot)) ++ [b] } }
       (∀ b, s.barSlot id = some b →
         (f = 8 → s.arriveBarrier f id = (put { b with own := true }).settleBarrier id)
         ∧ (f ≠ 8 → f ∉ b.ports → s.arriveBarrier f id = (put { b with ports := b.ports ++ [f] }).settleBarrier id)
         ∧ (f ≠ 8 → f ∈ b.ports → s.arriveBarrier f id = { s with tether := { s.tether with barErr := true } })
         ∧ (let complete : Prop := (b.own ∨ s.ownCounts ∨ 0x8000 ≤ id.toNat ∧ s.hasSec 10 = false) ∧ ∀ p ∈ s.awaitedPorts, p ∈ b.ports
            (¬complete ∨ b.sentUp → s.settleBarrier id = s)
            ∧ (complete → b.sentUp = false →
               (∀ u, s.upPort = some u → s.settleBarrier id = (put { b with sentUp := true }).sendOwn [u] 3 0 id.toNat none)
               ∧ (s.upPort = none → s.settleBarrier id = (s.sendOwn s.downPorts 3 1 id.toNat none).barrierDone (BitVec.ofNat 20 s.moduleId) id)))
         ∧ (id.toNat < 0x8000 → s.barrierDone o id = (State.deliverNotice
             { s with tether := { s.tether with bars := s.tether.bars.filter (fun y => decide (y.slot ≠ b.slot)) } } 4 b.slot o 0)))
       ∧ (s.barSlot id = none →
         (∀ i, s.freeBar = some i → s.arriveBarrier f id =
           (put { slot := i, id := id, own := decide (f = 8), ports := if f = 8 then [] else [f], sentUp := false }).settleBarrier id)
         ∧ (s.freeBar = none → s.arriveBarrier f id =
           { s with tether := { s.tether with heldArrivals := s.tether.heldArrivals ++ [(f, id)] } })))
  ∧ (∀ (s : State) (from' slot : Nat) (op : BitVec 3) (id : BitVec 11) (x : Word),
       let put (r : RedSlot) : State :=
         { s with tether := { s.tether with reds := s.tether.reds.filter (fun y => decide (y.slot ≠ r.slot)) ++ [r] } }
       (s.redSlot slot = none → op ≠ 7 → s.contribute from' slot op id x =
         (put { slot := slot, op := op, id := id, operands := [(from', x)], sentUp := false }).settleReduce slot)
       ∧ (s.redSlot slot = none → op = 7 → s.contribute from' slot op id x = s)
       ∧ (∀ r, s.redSlot slot = some r →
         let fits : Prop := r.op = op ∧ r.id = id ∧ r.sentUp = false ∧ ∀ y ∈ r.operands, y.1 ≠ from'
         let own : Option Word := if s.ownCounts = true then some (redNeutral r.op.toNat) else (r.operands.find? (fun y => decide (y.1 = 8))).map (·.2)
         let complete : Prop := own.isSome ∧ ∀ p ∈ s.awaitedPorts, p ∈ r.operands.map (·.1)
         let xs := own.toList ++ (countFrom 0 8).filterMap (fun p => (r.operands.find? (fun y => decide (y.1 = p))).map (·.2))
         let v := (xs.drop 1).foldl (redCombine r.op.toNat) (xs.headD 0)
         let arg := r.id.toNat + 2 ^ 11 * r.op.toNat + 2 ^ 14 * r.slot
         (fits → s.contribute from' slot op id x = (put { r with operands := r.operands ++ [(from', x)] }).settleReduce slot)
         ∧ (¬fits → s.contribute from' slot op id x = { s with tether := { s.tether with barErr := true } })
         ∧ (¬complete ∨ r.sentUp → s.settleReduce slot = s)
         ∧ (complete → r.sentUp = false →
           (∀ u, s.upPort = some u → s.settleReduce slot = (put { r with sentUp := true }).sendOwn [u] 4 0 arg (some v.toNat))
           ∧ (s.upPort = none → s.settleReduce slot =
             (let t := s.sendOwn s.downPorts 4 1 arg (some v.toNat)
              State.deliverNotice { t with tether := { t.tether with
                reds := t.tether.reds.filter (fun y => decide (y.slot ≠ slot)), redRes := mset 0 t.tether.redRes slot v } }
                5 slot (BitVec.ofNat 20 s.moduleId) 0))))
       ∧ (∀ a b : Word, redCombine 0 a b = a + b ∧ redCombine 1 a b = (if a.slt b then b else a) ∧ redCombine 2 a b = (if a.slt b then a else b)
         ∧ redCombine 3 a b = a &&& b ∧ redCombine 4 a b = a ||| b))

/-- The course of a snapshot epoch (16 R386, R387, R388, R389, R390, R394, R398). It rests on the choices of log entries 27, 47. -/
def Obligations.SnapshotEpochs : Prop :=
  ∀ (s : State) (g : Nat),
    let x := s.snap
    let busy := x.draining && decide (x.drainEpoch.toNat % 2 = (x.epoch.toNat + 1) % 2)
    let at' := manifestAt x.epoch.toNat
    let copied := copiedGranule s g at'
    let position := mset none x.positions ((x.epoch.toNat + 1) % 32) (some (s.readMem (manifestAt (x.epoch.toNat + 1) + 0x100000)
      (min (s.readNat (manifestAt (x.epoch.toNat + 1) + 24) 4) 0x700000)))
    (x.phase = .run → exec .snapctlArrive s = .next
      { s with snap := { x with positions := position, phase := .clean, overrun := x.overrun || busy } })
    ∧ (x.phase = .copy ∨ x.phase = .commitWait → exec .snapctlArrive s = .next
      (if x.arriving then s else { s with snap := { x with positions := position, arriving := true, overrun := true } }))
    ∧ (x.phase ≠ .run → x.phase ≠ .copy → x.phase ≠ .commitWait → exec .snapctlArrive s = .next s)
    ∧ (x.phase = .clean → s.cleanBlocked = false →
        let c := s.cleanSet
        exec .snapshotCleanComplete s = .next
          ((({ c with snap := { c.snap with phase := .hold } }).arriveBarrier 8
            (BitVec.ofNat 16 (0x8000 + 2 * ((x.epoch.toNat + 1) % 0x4000)))).takeHeldArrivals))
    ∧ (∀ rest, x.phase = .copy → x.demand = [] → x.uncopied = g :: rest → exec .backgroundCopy s = .next copied)
    ∧ (x.phase = .copy → x.demand = [] → x.uncopied = [] → x.manifestDone = false → x.captureDue = [] →
        exec .backgroundCopy s = .next s.streamPlaced.finishManifest)
    ∧ (x.phase = .copy → x.demand = [] → x.uncopied = [] → x.manifestDone ∨ x.captureDue ≠ [] → exec .backgroundCopy s = .next s.streamPlaced)
    ∧ (x.phase = .copy → x.demand.head? = some g → exec (.demandCopyComplete g) s = .next copied)
    ∧ (x.phase = .copy → x.manifestDone → x.streaming = false ∨ (x.streamAcked ∧ x.wardDone) →
        exec .commitArrive s = .next
          ((({ s with snap := { x with phase := .commitWait } }).arriveBarrier 8
            (BitVec.ofNat 16 (0x8001 + 2 * (x.epoch.toNat % 0x4000)))).takeHeldArrivals))
    ∧ (x.phase = .commitWait →
        let u := s.flagManifest at' 2
        let v : State := { u with snap := { u.snap with
          committed := u.snap.epoch, phase := if u.snap.arriving then .clean else .run, arriving := false } }
        s.takeCommit = if v.snap.drainDue then v.startDrain else v)
    ∧ (x.phase = .run → x.draining = false → x.committed ≠ 0xFFFFFFFF → exec .snapctlDrain s = .next
        { s with snap := { x with draining := true, drainEpoch := x.committed, drainDue := false } })
    ∧ (s.hasSec 10 → s.secNat 10 8 2 ≠ 0 → exec .cabinetDrainTimer s = .next { s with snap := { x with drainDue := true } })
    ∧ (x.draining → s.powered 1 → s.powered 8 →
        let l := x.cabinet ++ [{ epoch := x.drainEpoch, complete := true, data := s.drainRecord x.drainEpoch.toNat }]
        exec .cabinetDrainComplete s = .next
          { s with snap := { x with draining := false, drained := x.drainEpoch, cabinet := trimCabinet l.length l } })

/-- Rollback, restore, transfer and takeover (16 R391, R402, R403, R405). It rests on the choices of log entries 47, 56. -/
def Obligations.RollbackAndRestore : Prop :=
  ∀ (s : State) (value : Word),
    let x := s.snap
    let c := x.rollEpoch
    let m := manifestAt c.toNat
    let rs := s.manifestRanges m
    let good := decide (rs.map (fun r => (r.1, r.2.1)) = s.snapRanges) && decide (s.snapRanges.map (fun r => s.rangeDigest r.1 r.2) = rs.map (·.2.2))
      && decide (s.manifestDigest m = s.readMem (m + 64) 32)
    let n := x.xferEpoch.toNat
    let w := wardManifestAt n
    let size := ((s.manifestRanges w).map (·.2.1)).foldl (· + ·) 0
    (x.phase = .stopped → x.rolling = false →
        let t := (s.rollbackUnits.dropSet (s.rangesAt c.toNat)).copyBack (s.halfBase c.toNat) (s.rangesAt c.toNat)
        exec .snapctlRollback s = .next { t with snap := { t.snap with rolling := true } })
    ∧ (x.phase = .stopped → x.rolling → exec .rollbackComplete s = .next
        (if s.rangesAgree m (s.halfBase c.toNat) = true then s.enterRolled c
         else { s with snap := { x with rolling := false, restoreErr := true } }))
    ∧ (x.phase = .stopped → x.restoring → exec .restoreComplete s = .next
        (if good then s.enterRolled c else { s with snap := { x with restoring := false, restoreErr := true } }))
    ∧ exec .snapctlResume s = .next (if x.phase = .rolled then { s with snap := { x with phase := .run } } else s)
    ∧ (x.phase = .stopped ∨ x.phase = .rolled → s.readNat w 4 = 0x464D5846 → s.readNat (w + 8) 4 = n → x.epoch.toNat ≤ n + 1 →
        exec .snapctlSendward s = .next
          (((countFrom 0 (size / 65536)).foldl (fun (t : State) g => t.sendGranule x.xferDest.toNat n (s.halfBase n + s.homeSizeAt n) (65536 * g)) s).sendManifest
            x.xferDest.toNat n w size))
    ∧ (s.spare → exec (.takeover value) s = .next
        { s with snap := { x with
            assumedId := value.extractLsb' 0 20
            takeover := x.takeover || value.getLsbD 20
            epoch := if value.getLsbD 20 then c else x.epoch } })
    ∧ (s.spare = false → exec (.takeover value) s = .next s)
    ∧ (∀ e, s.readNat (manifestAt e) 4 = 0x464D5846 → s.readNat (manifestAt e + 8) 4 = e →
        s.rangesAt e = (s.manifestRanges (manifestAt e)).map (fun r => (r.1, r.2.1)))
    ∧ (∀ t e, s.enterRolled e = t → t.snap.phase = .rolled ∧ t.snap.epoch = e ∧ t.tether.stopped = false ∧ t.tether.stopSeen = false)

/-- The state after power-on, with memory in canonical form (06 R157, 15 R383, 16 R407, 18 R422, R429). It rests on the choices of
log entries 3, 7. -/
def Obligations.ResetState : Prop :=
  (let s := State.reset
   s.pending = [] ∧ s.power.domains = 1 ∧ s.power.step = 0 ∧ s.power.failStop = none ∧ s.tether.stopped = false ∧ s.tether.tred = 0
   ∧ s.snap.phase = .off ∧ s.snap.committed = 0xFFFFFFFF ∧ s.snap.drained = 0xFFFFFFFF ∧ s.mem = []
   ∧ (∀ c, s.core c = Core.reset) ∧ (∀ p, s.quad p = Quad.reset) ∧ (∀ e, s.engine e = Engine.reset) ∧ (∀ i, s.stack i = StackState.reset))
  ∧ (State.reset.MemOk ∧ State.reset.StoresOk)

/-- Every step keeps the sparse stores in canonical form (03 R102, 05 R149, 13 R316, 17 R408). It rests on the choices of log
entries 1, 3. -/
def Obligations.StepKeepsStores : Prop := ∀ s t : State, s.StoresOk → step s = .next t → t.StoresOk

/-- Writes reach exactly their bytes (01 R31, 13 R308, R319). It rests on the choices of log entries 3, 28. -/
def Obligations.WritesAreLocal : Prop :=
  ∀ (s : State) (c : CoreId) (e : EtuId) (cls : FillClass) (a : Nat) (data : List Byte),
    (data ≠ [] →
      (s.ownedWrite c a data).readMem a data.length = data
      ∧ ∀ b, b < a ∨ a + data.length ≤ b → (s.ownedWrite c a data).byteAt b = s.byteAt b)
    ∧ ((s.kindAt a).sram → (∀ i < data.length, s.isDirty (lineOf (a + i)) = false) →
      (s.writeMem e cls a data).readMem a data.length = data
      ∧ ∀ b, b < a ∨ a + data.length ≤ b → (s.writeMem e cls a data).byteAt b = s.byteAt b)
    ∧ ((s.kindAt a).sram = false → data ≠ [] → a % 128 + data.length ≤ 128 → s.quiet (lineOf a) → s.writeHeld (lineOf a) = false →
        s.uncopiedLine (lineOf a) = false → s.snap.heldWrites = [] → (s.line (servingCache e) (lineOf a)).st ≠ .i →
        e = .hd ∨ (s.dirEntry 4 (lineOf a)).way.isSome →
      (s.writeMem e cls a data).readMem a data.length = data
      ∧ ∀ b, b < a ∨ a + data.length ≤ b → (s.writeMem e cls a data).byteAt b = s.byteAt b)

/-- The load delay, and what a load reads: memory through the L1 D, or a waiting store (06 R162, R163, 08 R206, R216). It rests on
the choices of log entries 12, 32, 51. -/
def Obligations.LoadDelayAndSource : Prop :=
  (∀ (k : Core) (l : Level) (n : Fin 32) (w v : Word), k.pend = some (.d l n.val w) →
     ((k.view true).getDL l n.val = w)
     ∧ ((k.view false).getDL l n.val = k.getDL l n.val)
     ∧ (∀ j, j ≠ n.val → (k.view true).getDL l j = k.getDL l j)
     ∧ ((((k.view false).setDL l n.val v).withLoad (k.oldLoad false)).getDL l n.val = w)
     ∧ (k.view true).pend = none ∧ (k.view false).pend = none)
  ∧ (∀ (c : CoreId) (k : Core) (va : Word) (n : AccessNeeds) (s s1 : State) (a m : Nat) (l : List (Nat × Nat)) (e : StoreEntry) (nt : Bool),
       (s.locate c k va n = (.ok [(a, m)], s1) → (s1.kindAt a).normal → (∀ x ∈ k.sbuf, x.touches a m = false) →
         (∀ ln ∈ linesOf a m, s1.holdsLine c ln) → s1.missServed c = false → s1.readPoison a m = false →
         s.coreLoad c k va n nt = .ok ((linesOf a m).foldl (fun (t : State) ln => t.touch (.l1d c) ln) s1) (s1.readMem a m))
       ∧ (s.locate c k va n = (.ok l, s1) → s1.isNormal l → k.sbuf = [e] → l.any (fun x => e.touches x.1 x.2) →
         (l.all (fun x => e.covers x.1 x.2) → s.coreLoad c k va n nt = .ok s1 (l.flatMap (fun x => e.slice x.1 x.2)))
         ∧ (l.all (fun x => e.covers x.1 x.2) = false → s.coreLoad c k va n nt = .stop (.waits s1 .storeBuffer))))

/-- A double fault halts the core, raises one record and keeps the trap registers (R227). It rests on the choices of log entries
22, 24, 41, 57. -/
def Obligations.DoubleFault : Prop :=
  (∀ (s : State) (c : CoreId) (k : Core) (cause detail : Nat) (addr : Option TrapAddr) (r : Resume),
    k.status.pl = .machine ∨ (k.status.pl = .supervisor ∧ k.status.gm) →
    s.takeTrap c k cause detail addr r false
      = (s.setCore c { k.settle with st := .dfault, wait := none, pair := none, haltReq := false }).reportStop (doubleFaultRec c k cause)
    ∧ (doubleFaultRec c k cause).cls = 0x08 ∧ (doubleFaultRec c k cause).sev = 2 ∧ (doubleFaultRec c k cause).scope = 2
    ∧ (doubleFaultRec c k cause).vaddr = k.pc ∧ (doubleFaultRec c k cause).pl.toNat = k.status.pl.num
    ∧ (doubleFaultRec c k cause).gm = k.status.gm ∧ (doubleFaultRec c k cause).detail = BitVec.ofNat 8 cause
    ∧ (∀ l, k.settle.trapRegs l = k.trapRegs l) ∧ k.settle.status = k.status)
  ∧ (∀ (s : State) (d : Fin 4) (cl : Fin 24), (s.core (.sycen d cl)).st = .dfault →
      s.executes (.sycen d cl) = false
      ∧ exec (.seqrunRelease d cl) s = .next s
      ∧ ∃ t, exec (.seqrunReset d cl) s = .next t
        ∧ (t.core (.sycen d cl)).st = .reset ∧ (t.core (.sycen d cl)).pc = s.entryVa (d.val * 24 + cl.val))

/-- Taking an exception or an interrupt (09 R224, R226, R228). -/
def Obligations.TrapEntry : Prop :=
  ∀ (s : State) (c : CoreId) (k : Core) (cause detail : Nat) (addr : Option TrapAddr) (r : Resume) (irq : Bool) (n : Level),
    targetLevel k.status.gm irq k.status.pl = some n → cause < 256 → detail < 256 → k.pend = none → r.loop = none →
    let hz : Bool := match c with
      | .hazia _ => true
      | .sycen _ _ => false
    ∃ k1 : Core, s.takeTrap c k cause detail addr r irq = s.setCore c k1
      ∧ n.num + (if k.status.gm ∧ ¬ irq then 2 else 1) = k.status.pl.num
      ∧ (k1.trapRegs n).pc = r.pc ∧ (k1.trapRegs n).ppl.toNat = k.status.pl.num ∧ (k1.trapRegs n).origin.toNat = k.status.pl.num
      ∧ (k1.trapRegs n).pgm = k.status.gm ∧ (k1.trapRegs n).pmode = (hz || k.status.mode) ∧ (k1.trapRegs n).pb = r.target.isSome
      ∧ (k1.trapRegs n).target = r.target.getD 0 ∧ (k1.trapRegs n).shcnt = r.shCnt ∧ (k1.trapRegs n).shmode = r.shMode
      ∧ (k1.trapRegs n).esc = decide (n.num + 2 = k.status.pl.num) ∧ (k1.trapRegs n).int = irq
      ∧ (k1.trapRegs n).cause.toNat = cause ∧ (k1.trapRegs n).detail.toNat = detail ∧ (k1.trapRegs n).addrv = addr.isSome
      ∧ (∀ a, addr = some a → (k1.trapRegs n).vpage.toNat = a.va.toNat / 4096 % 2 ^ 45 ∧ (k1.trapRegs n).write = a.write
          ∧ (k1.trapRegs n).fetch = a.fetch)
      ∧ k1.status = { k.status with gm := true, pl := n, mode := hz || (k.trapRegs n).hmode }
      ∧ k1.pc.toNat = ((k.trapRegs n).base.toNat * 4096 + cause * 64) % 2 ^ 64
      ∧ (k1.trapRegs n).base = (k.trapRegs n).base ∧ (k1.trapRegs n).hmode = (k.trapRegs n).hmode
      ∧ k1.resv = none ∧ k1.shCnt = 0 ∧ k1.slot = .none
      ∧ (∀ l, k1.bank l = k.bank l) ∧ k1.v = k.v ∧ k1.p = k.p ∧ k1.sbuf = k.sbuf ∧ k1.ien = k.ien ∧ k1.ipend = k.ipend
end

