-- ==== Sys2Proof/Laws/Instr.lean ====
section
/-! SUPPORT. What the frame around a meaning does: one lemma for each way an instruction can end (Machine/Trap.lean). -/

namespace Sys2Proof.Machine

variable {s s1 : State} {c : CoreId} {p : Pfx} {sh : Shape} {body : State → Core → Res} {k1 : Core}

/-- A core that does not execute now: the command has no effect. -/
theorem runInstr_idle (h : s.executes c = false) : s.runInstr c p sh body = s := by
  simp [State.runInstr, h]

/-- An illegal encoding takes the illegal-instruction exception. -/
theorem runInstr_illegal (h : s.executes c = true) (hi : sh.illegal c p (s.core c) = true) :
    s.runInstr c p sh body = s.trapHere c (s.core c) 0x01 0 none := by
  simp [State.runInstr, h, hi]

/-- The meaning completes. -/
theorem runInstr_done {ctl : Ctl} (h : Runs s c p sh) (hb : body s (s.seen c) = .done s1 k1 ctl) :
    s.runInstr c p sh body =
      s1.setCore c (((k1.counted sh).withLoad ((s.core c).oldLoad (tagMode c (s.core c)))).complete (s.core c).slot (sh.len p) ctl) := by
  unfold State.seen at hb
  simp [State.runInstr, h.1, h.2, hb]

/-- The meaning completes and leaves the rest of the state alone. -/
theorem runInstr_completed {ctl : Ctl} (h : Runs s c p sh) (hb : body s (s.seen c) = .done s k1 ctl) :
    s.runInstr c p sh body = s.completed c p sh k1 ctl := runInstr_done h hb

/-- The meaning raises a precise exception. -/
theorem runInstr_trap {cause detail : Nat} {addr : Option TrapAddr} (h : Runs s c p sh)
    (hb : body s (s.seen c) = .trap s1 cause detail addr) :
    s.runInstr c p sh body = s1.trapHere c (s1.core c) cause detail addr := by
  unfold State.seen at hb
  simp [State.runInstr, h.1, h.2, hb]

/-- The meaning waits. -/
theorem runInstr_waits {w : Wait} (h : Runs s c p sh) (hb : body s (s.seen c) = .waits s1 w) :
    s.runInstr c p sh body = s1.modCore c (fun k => k.waiting sh w) := by
  unfold State.seen at hb
  simp [State.runInstr, h.1, h.2, hb]

/-- The meaning takes a completing trap. -/
theorem runInstr_completing {cause detail : Nat} (h : Runs s c p sh) (hb : body s (s.seen c) = .completing s1 k1 cause detail) :
    s.runInstr c p sh body =
      s1.takeTrap c { k1.withLoad ((s.core c).oldLoad (tagMode c (s.core c))) with slot := .none } cause detail none
        ((s.core c).resumeAfter (sh.len p)) false := by
  unfold State.seen at hb
  simp [State.runInstr, h.1, h.2, hb]

/-- An instruction that changes its own core alone. -/
theorem runLocal_completed {f : Core → Core} (h : Runs s c p sh) :
    s.runLocal c p sh f = s.completed c p sh (f (s.seen c)) .seq := runInstr_completed h rfl

end Sys2Proof.Machine
end

