-- ==== Sys2Proof/Laws/Map.lean ====
section
/-! SUPPORT. The laws of the sparse stores: reading after writing, and the canonical form that every operation keeps. -/

namespace Sys2Proof.Machine

variable {α : Type}

theorem mget_minsert_same (d : α) (m : SMap α) (k : Nat) (v : α) : mget d (minsert k v m) k = v := by
  induction m with
  | nil => simp [minsert, mget]
  | cons x m ih =>
    obtain ⟨k', v'⟩ := x
    simp only [minsert]
    split
    · simp [mget]
    · split
      · simp [mget]
      · simp only [mget]; split
        · contradiction
        · exact ih

theorem mget_minsert_other (d : α) (m : SMap α) (k j : Nat) (v : α) (h : j ≠ k) : mget d (minsert k v m) j = mget d m j := by
  induction m with
  | nil => simp [minsert, mget, h]
  | cons x m ih =>
    obtain ⟨k', v'⟩ := x
    simp only [minsert]
    split
    · simp [mget, h]
    · split
      · rename_i e; subst e; simp [mget, h]
      · simp only [mget]; split
        · rfl
        · exact ih

theorem mget_merase_other (d : α) (m : SMap α) (k j : Nat) (h : j ≠ k) : mget d (merase k m) j = mget d m j := by
  induction m with
  | nil => rfl
  | cons x m ih =>
    obtain ⟨k', v'⟩ := x
    simp only [merase]
    split
    · rename_i e; subst e; simp [mget, h, ih]
    · simp only [mget]; split
      · rfl
      · exact ih

variable [DecidableEq α]

omit [DecidableEq α] in
theorem mget_merase_same (d : α) (m : SMap α) (k : Nat) : mget d (merase k m) k = d := by
  induction m with
  | nil => rfl
  | cons x m ih =>
    obtain ⟨k', v⟩ := x
    simp only [merase]
    split
    · exact ih
    · rename_i e; simpa only [mget, if_neg e] using ih

/-- Reading the key just written. -/
@[simp] theorem mget_mset_same (d : α) (m : SMap α) (k : Nat) (v : α) : mget d (mset d m k v) k = v := by
  unfold mset
  split
  · rename_i e; rw [mget_merase_same, e]
  · exact mget_minsert_same d m k v

/-- Reading a key other than the one written. -/
theorem mget_mset_other (d : α) (m : SMap α) (k j : Nat) (v : α) (h : j ≠ k) : mget d (mset d m k v) j = mget d m j := by
  unfold mset
  split
  · exact mget_merase_other d m k j h
  · exact mget_minsert_other d m k j v h

/-- The bound of a canonical form. -/
def aboveBound : Option Nat → Nat → Prop
  | none, _ => True
  | some l, k => l < k

theorem mwfFrom_cons (d : α) (lo : Option Nat) (k : Nat) (v : α) (m : SMap α) :
    mwfFrom d lo ((k, v) :: m) = true ↔ aboveBound lo k ∧ v ≠ d ∧ mwfFrom d (some k) m = true := by
  cases lo <;> simp [mwfFrom, aboveBound, and_assoc]

theorem mwfFrom_weaken (d : α) (lo : Option Nat) (k : Nat) (m : SMap α) (hk : aboveBound lo k) (h : mwfFrom d (some k) m = true) :
    mwfFrom d lo m = true := by
  cases m with
  | nil => rfl
  | cons x m =>
    obtain ⟨k', v⟩ := x
    rw [mwfFrom_cons] at *
    refine ⟨?_, h.2⟩
    cases lo with
    | none => trivial
    | some l => exact Nat.lt_trans hk h.1

theorem mwfFrom_minsert (d : α) (lo : Option Nat) (m : SMap α) (k : Nat) (v : α) (hv : v ≠ d) (hk : aboveBound lo k)
    (h : mwfFrom d lo m = true) : mwfFrom d lo (minsert k v m) = true := by
  induction m generalizing lo with
  | nil => simp only [minsert]; rw [mwfFrom_cons]; exact ⟨hk, hv, rfl⟩
  | cons x m ih =>
    obtain ⟨k', v'⟩ := x
    rw [mwfFrom_cons] at h
    simp only [minsert]
    split
    · rename_i e
      rw [mwfFrom_cons, mwfFrom_cons]
      exact ⟨hk, hv, e, h.2⟩
    · split
      · rename_i e; subst e
        rw [mwfFrom_cons]; exact ⟨hk, hv, h.2.2⟩
      · rename_i e1 e2
        rw [mwfFrom_cons]
        exact ⟨h.1, h.2.1, ih (some k') (by simp only [aboveBound]; omega) h.2.2⟩

theorem mwfFrom_merase (d : α) (lo : Option Nat) (m : SMap α) (k : Nat) (h : mwfFrom d lo m = true) :
    mwfFrom d lo (merase k m) = true := by
  induction m generalizing lo with
  | nil => rfl
  | cons x m ih =>
    obtain ⟨k', v'⟩ := x
    rw [mwfFrom_cons] at h
    simp only [merase]
    split
    · exact ih lo (mwfFrom_weaken d lo k' m h.1 h.2.2)
    · rw [mwfFrom_cons]; exact ⟨h.1, h.2.1, ih (some k') h.2.2⟩

theorem mwf_mset (d : α) (m : SMap α) (k : Nat) (v : α) (h : mwf d m = true) : mwf d (mset d m k v) = true := by
  unfold mset mwf
  split
  · exact mwfFrom_merase d none m k h
  · rename_i e; exact mwfFrom_minsert d none m k v e trivial h

theorem mwfFrom_filter (d : α) (p : Nat × α → Bool) (lo : Option Nat) (m : SMap α) (h : mwfFrom d lo m = true) :
    mwfFrom d lo (m.filter p) = true := by
  induction m generalizing lo with
  | nil => rfl
  | cons x m ih =>
    obtain ⟨k, v⟩ := x
    rw [mwfFrom_cons] at h
    rw [List.filter_cons]
    split
    · rw [mwfFrom_cons]; exact ⟨h.1, h.2.1, ih (some k) h.2.2⟩
    · exact ih lo (mwfFrom_weaken d lo k m h.1 h.2.2)

theorem mwf_filter (d : α) (p : Nat × α → Bool) (m : SMap α) (h : mwf d m = true) : mwf d (m.filter p) = true :=
  mwfFrom_filter d p none m h

theorem mwfFrom_mmap (d : α) (f : Nat → α → α) (lo : Option Nat) (m : SMap α) (h : mwfFrom d lo m = true) :
    mwfFrom d lo (mmap d f m) = true := by
  induction m generalizing lo with
  | nil => rfl
  | cons x m ih =>
    obtain ⟨k, v⟩ := x
    rw [mwfFrom_cons] at h
    unfold mmap
    rw [List.filterMap_cons]
    by_cases e : f k v = d
    · simp only [e, if_true]
      exact mwfFrom_weaken d lo k _ h.1 (ih (some k) h.2.2)
    · simp only [e, if_false]
      rw [mwfFrom_cons]; exact ⟨h.1, e, ih (some k) h.2.2⟩

theorem mwf_mmap (d : α) (f : Nat → α → α) (m : SMap α) (h : mwf d m = true) : mwf d (mmap d f m) = true :=
  mwfFrom_mmap d f none m h

theorem mwf_nil (d : α) : mwf d ([] : SMap α) = true := rfl

end Sys2Proof.Machine
end

