-- ==== Sys2Proof/Laws/State.lean ====
section
/-! SUPPORT. What each basic update of the state leaves alone: one lemma per field and update, so that no proof unfolds a record
update. -/

namespace Sys2Proof.Machine

@[simp] theorem State.setCore_pending (s : State) (c : CoreId) (k : Core) : (s.setCore c k).pending = s.pending := rfl
@[simp] theorem State.setCore_fresh (s : State) (c : CoreId) (k : Core) : (s.setCore c k).fresh = s.fresh := rfl
@[simp] theorem State.setCore_out (s : State) (c : CoreId) (k : Core) : (s.setCore c k).out = s.out := rfl
@[simp] theorem State.setCore_busOut (s : State) (c : CoreId) (k : Core) : (s.setCore c k).busOut = s.busOut := rfl
@[simp] theorem State.setCore_mem (s : State) (c : CoreId) (k : Core) : (s.setCore c k).mem = s.mem := rfl
@[simp] theorem State.setCore_dirty (s : State) (c : CoreId) (k : Core) : (s.setCore c k).dirty = s.dirty := rfl
@[simp] theorem State.setCore_badSram (s : State) (c : CoreId) (k : Core) : (s.setCore c k).badSram = s.badSram := rfl
@[simp] theorem State.setCore_image (s : State) (c : CoreId) (k : Core) : (s.setCore c k).image = s.image := rfl
@[simp] theorem State.setCore_calib (s : State) (c : CoreId) (k : Core) : (s.setCore c k).calib = s.calib := rfl
@[simp] theorem State.setCore_calRun (s : State) (c : CoreId) (k : Core) : (s.setCore c k).calRun = s.calRun := rfl
@[simp] theorem State.setCore_arrays (s : State) (c : CoreId) (k : Core) : (s.setCore c k).arrays = s.arrays := rfl
@[simp] theorem State.setCore_quads (s : State) (c : CoreId) (k : Core) : (s.setCore c k).quads = s.quads := rfl
@[simp] theorem State.setCore_tiles (s : State) (c : CoreId) (k : Core) : (s.setCore c k).tiles = s.tiles := rfl
@[simp] theorem State.setCore_srseed (s : State) (c : CoreId) (k : Core) : (s.setCore c k).srseed = s.srseed := rfl
@[simp] theorem State.setCore_engines (s : State) (c : CoreId) (k : Core) : (s.setCore c k).engines = s.engines := rfl
@[simp] theorem State.setCore_engRings (s : State) (c : CoreId) (k : Core) : (s.setCore c k).engRings = s.engRings := rfl
@[simp] theorem State.setCore_rands (s : State) (c : CoreId) (k : Core) : (s.setCore c k).rands = s.rands := rfl
@[simp] theorem State.setCore_fuses (s : State) (c : CoreId) (k : Core) : (s.setCore c k).fuses = s.fuses := rfl
@[simp] theorem State.setCore_comstat (s : State) (c : CoreId) (k : Core) : (s.setCore c k).comstat = s.comstat := rfl
@[simp] theorem State.setCore_cre (s : State) (c : CoreId) (k : Core) : (s.setCore c k).cre = s.cre := rfl
@[simp] theorem State.setCore_randLate (s : State) (c : CoreId) (k : Core) : (s.setCore c k).randLate = s.randLate := rfl
@[simp] theorem State.setCore_movers (s : State) (c : CoreId) (k : Core) : (s.setCore c k).movers = s.movers := rfl
@[simp] theorem State.setCore_etus (s : State) (c : CoreId) (k : Core) : (s.setCore c k).etus = s.etus := rfl
@[simp] theorem State.setCore_lines (s : State) (c : CoreId) (k : Core) : (s.setCore c k).lines = s.lines := rfl
@[simp] theorem State.setCore_dies (s : State) (c : CoreId) (k : Core) : (s.setCore c k).dies = s.dies := rfl
@[simp] theorem State.setCore_module (s : State) (c : CoreId) (k : Core) : (s.setCore c k).module = s.module := rfl
@[simp] theorem State.setCore_dieGrant (s : State) (c : CoreId) (k : Core) : (s.setCore c k).dieGrant = s.dieGrant := rfl
@[simp] theorem State.setCore_moduleGrant (s : State) (c : CoreId) (k : Core) : (s.setCore c k).moduleGrant = s.moduleGrant := rfl
@[simp] theorem State.setCore_plru (s : State) (c : CoreId) (k : Core) : (s.setCore c k).plru = s.plru := rfl
@[simp] theorem State.setCore_reqq (s : State) (c : CoreId) (k : Core) : (s.setCore c k).reqq = s.reqq := rfl
@[simp] theorem State.setCore_snoopq (s : State) (c : CoreId) (k : Core) : (s.setCore c k).snoopq = s.snoopq := rfl
@[simp] theorem State.setCore_links (s : State) (c : CoreId) (k : Core) : (s.setCore c k).links = s.links := rfl
@[simp] theorem State.setCore_blocks (s : State) (c : CoreId) (k : Core) : (s.setCore c k).blocks = s.blocks := rfl
@[simp] theorem State.setCore_dram (s : State) (c : CoreId) (k : Core) : (s.setCore c k).dram = s.dram := rfl
@[simp] theorem State.setCore_ports (s : State) (c : CoreId) (k : Core) : (s.setCore c k).ports = s.ports := rfl
@[simp] theorem State.setCore_tether (s : State) (c : CoreId) (k : Core) : (s.setCore c k).tether = s.tether := rfl
@[simp] theorem State.setCore_snap (s : State) (c : CoreId) (k : Core) : (s.setCore c k).snap = s.snap := rfl
@[simp] theorem State.setCore_host (s : State) (c : CoreId) (k : Core) : (s.setCore c k).host = s.host := rfl
@[simp] theorem State.setCore_mgmt (s : State) (c : CoreId) (k : Core) : (s.setCore c k).mgmt = s.mgmt := rfl
@[simp] theorem State.setCore_cdpwr (s : State) (c : CoreId) (k : Core) : (s.setCore c k).cdpwr = s.cdpwr := rfl
@[simp] theorem State.setCore_power (s : State) (c : CoreId) (k : Core) : (s.setCore c k).power = s.power := rfl
@[simp] theorem State.setCore_mcheck (s : State) (c : CoreId) (k : Core) : (s.setCore c k).mcheck = s.mcheck := rfl
@[simp] theorem State.setCore_fatalLog (s : State) (c : CoreId) (k : Core) : (s.setCore c k).fatalLog = s.fatalLog := rfl
@[simp] theorem State.setCore_fatalNew (s : State) (c : CoreId) (k : Core) : (s.setCore c k).fatalNew = s.fatalNew := rfl

@[simp] theorem State.modCore_pending (s : State) (c : CoreId) (f : Core → Core) : (s.modCore c f).pending = s.pending := rfl
@[simp] theorem State.modCore_fresh (s : State) (c : CoreId) (f : Core → Core) : (s.modCore c f).fresh = s.fresh := rfl
@[simp] theorem State.modCore_out (s : State) (c : CoreId) (f : Core → Core) : (s.modCore c f).out = s.out := rfl
@[simp] theorem State.modCore_busOut (s : State) (c : CoreId) (f : Core → Core) : (s.modCore c f).busOut = s.busOut := rfl
@[simp] theorem State.modCore_mem (s : State) (c : CoreId) (f : Core → Core) : (s.modCore c f).mem = s.mem := rfl
@[simp] theorem State.modCore_dirty (s : State) (c : CoreId) (f : Core → Core) : (s.modCore c f).dirty = s.dirty := rfl
@[simp] theorem State.modCore_badSram (s : State) (c : CoreId) (f : Core → Core) : (s.modCore c f).badSram = s.badSram := rfl
@[simp] theorem State.modCore_image (s : State) (c : CoreId) (f : Core → Core) : (s.modCore c f).image = s.image := rfl
@[simp] theorem State.modCore_calib (s : State) (c : CoreId) (f : Core → Core) : (s.modCore c f).calib = s.calib := rfl
@[simp] theorem State.modCore_calRun (s : State) (c : CoreId) (f : Core → Core) : (s.modCore c f).calRun = s.calRun := rfl
@[simp] theorem State.modCore_arrays (s : State) (c : CoreId) (f : Core → Core) : (s.modCore c f).arrays = s.arrays := rfl
@[simp] theorem State.modCore_quads (s : State) (c : CoreId) (f : Core → Core) : (s.modCore c f).quads = s.quads := rfl
@[simp] theorem State.modCore_tiles (s : State) (c : CoreId) (f : Core → Core) : (s.modCore c f).tiles = s.tiles := rfl
@[simp] theorem State.modCore_srseed (s : State) (c : CoreId) (f : Core → Core) : (s.modCore c f).srseed = s.srseed := rfl
@[simp] theorem State.modCore_engines (s : State) (c : CoreId) (f : Core → Core) : (s.modCore c f).engines = s.engines := rfl
@[simp] theorem State.modCore_engRings (s : State) (c : CoreId) (f : Core → Core) : (s.modCore c f).engRings = s.engRings := rfl
@[simp] theorem State.modCore_rands (s : State) (c : CoreId) (f : Core → Core) : (s.modCore c f).rands = s.rands := rfl
@[simp] theorem State.modCore_fuses (s : State) (c : CoreId) (f : Core → Core) : (s.modCore c f).fuses = s.fuses := rfl
@[simp] theorem State.modCore_comstat (s : State) (c : CoreId) (f : Core → Core) : (s.modCore c f).comstat = s.comstat := rfl
@[simp] theorem State.modCore_cre (s : State) (c : CoreId) (f : Core → Core) : (s.modCore c f).cre = s.cre := rfl
@[simp] theorem State.modCore_randLate (s : State) (c : CoreId) (f : Core → Core) : (s.modCore c f).randLate = s.randLate := rfl
@[simp] theorem State.modCore_movers (s : State) (c : CoreId) (f : Core → Core) : (s.modCore c f).movers = s.movers := rfl
@[simp] theorem State.modCore_etus (s : State) (c : CoreId) (f : Core → Core) : (s.modCore c f).etus = s.etus := rfl
@[simp] theorem State.modCore_lines (s : State) (c : CoreId) (f : Core → Core) : (s.modCore c f).lines = s.lines := rfl
@[simp] theorem State.modCore_dies (s : State) (c : CoreId) (f : Core → Core) : (s.modCore c f).dies = s.dies := rfl
@[simp] theorem State.modCore_module (s : State) (c : CoreId) (f : Core → Core) : (s.modCore c f).module = s.module := rfl
@[simp] theorem State.modCore_dieGrant (s : State) (c : CoreId) (f : Core → Core) : (s.modCore c f).dieGrant = s.dieGrant := rfl
@[simp] theorem State.modCore_moduleGrant (s : State) (c : CoreId) (f : Core → Core) : (s.modCore c f).moduleGrant = s.moduleGrant := rfl
@[simp] theorem State.modCore_plru (s : State) (c : CoreId) (f : Core → Core) : (s.modCore c f).plru = s.plru := rfl
@[simp] theorem State.modCore_reqq (s : State) (c : CoreId) (f : Core → Core) : (s.modCore c f).reqq = s.reqq := rfl
@[simp] theorem State.modCore_snoopq (s : State) (c : CoreId) (f : Core → Core) : (s.modCore c f).snoopq = s.snoopq := rfl
@[simp] theorem State.modCore_links (s : State) (c : CoreId) (f : Core → Core) : (s.modCore c f).links = s.links := rfl
@[simp] theorem State.modCore_blocks (s : State) (c : CoreId) (f : Core → Core) : (s.modCore c f).blocks = s.blocks := rfl
@[simp] theorem State.modCore_dram (s : State) (c : CoreId) (f : Core → Core) : (s.modCore c f).dram = s.dram := rfl
@[simp] theorem State.modCore_ports (s : State) (c : CoreId) (f : Core → Core) : (s.modCore c f).ports = s.ports := rfl
@[simp] theorem State.modCore_tether (s : State) (c : CoreId) (f : Core → Core) : (s.modCore c f).tether = s.tether := rfl
@[simp] theorem State.modCore_snap (s : State) (c : CoreId) (f : Core → Core) : (s.modCore c f).snap = s.snap := rfl
@[simp] theorem State.modCore_host (s : State) (c : CoreId) (f : Core → Core) : (s.modCore c f).host = s.host := rfl
@[simp] theorem State.modCore_mgmt (s : State) (c : CoreId) (f : Core → Core) : (s.modCore c f).mgmt = s.mgmt := rfl
@[simp] theorem State.modCore_cdpwr (s : State) (c : CoreId) (f : Core → Core) : (s.modCore c f).cdpwr = s.cdpwr := rfl
@[simp] theorem State.modCore_power (s : State) (c : CoreId) (f : Core → Core) : (s.modCore c f).power = s.power := rfl
@[simp] theorem State.modCore_mcheck (s : State) (c : CoreId) (f : Core → Core) : (s.modCore c f).mcheck = s.mcheck := rfl
@[simp] theorem State.modCore_fatalLog (s : State) (c : CoreId) (f : Core → Core) : (s.modCore c f).fatalLog = s.fatalLog := rfl
@[simp] theorem State.modCore_fatalNew (s : State) (c : CoreId) (f : Core → Core) : (s.modCore c f).fatalNew = s.fatalNew := rfl

@[simp] theorem State.setQuad_pending (s : State) (p : PartId) (q : Quad) : (s.setQuad p q).pending = s.pending := rfl
@[simp] theorem State.setQuad_fresh (s : State) (p : PartId) (q : Quad) : (s.setQuad p q).fresh = s.fresh := rfl
@[simp] theorem State.setQuad_out (s : State) (p : PartId) (q : Quad) : (s.setQuad p q).out = s.out := rfl
@[simp] theorem State.setQuad_busOut (s : State) (p : PartId) (q : Quad) : (s.setQuad p q).busOut = s.busOut := rfl
@[simp] theorem State.setQuad_mem (s : State) (p : PartId) (q : Quad) : (s.setQuad p q).mem = s.mem := rfl
@[simp] theorem State.setQuad_dirty (s : State) (p : PartId) (q : Quad) : (s.setQuad p q).dirty = s.dirty := rfl
@[simp] theorem State.setQuad_badSram (s : State) (p : PartId) (q : Quad) : (s.setQuad p q).badSram = s.badSram := rfl
@[simp] theorem State.setQuad_cores (s : State) (p : PartId) (q : Quad) : (s.setQuad p q).cores = s.cores := rfl
@[simp] theorem State.setQuad_image (s : State) (p : PartId) (q : Quad) : (s.setQuad p q).image = s.image := rfl
@[simp] theorem State.setQuad_calib (s : State) (p : PartId) (q : Quad) : (s.setQuad p q).calib = s.calib := rfl
@[simp] theorem State.setQuad_calRun (s : State) (p : PartId) (q : Quad) : (s.setQuad p q).calRun = s.calRun := rfl
@[simp] theorem State.setQuad_arrays (s : State) (p : PartId) (q : Quad) : (s.setQuad p q).arrays = s.arrays := rfl
@[simp] theorem State.setQuad_tiles (s : State) (p : PartId) (q : Quad) : (s.setQuad p q).tiles = s.tiles := rfl
@[simp] theorem State.setQuad_srseed (s : State) (p : PartId) (q : Quad) : (s.setQuad p q).srseed = s.srseed := rfl
@[simp] theorem State.setQuad_engines (s : State) (p : PartId) (q : Quad) : (s.setQuad p q).engines = s.engines := rfl
@[simp] theorem State.setQuad_engRings (s : State) (p : PartId) (q : Quad) : (s.setQuad p q).engRings = s.engRings := rfl
@[simp] theorem State.setQuad_rands (s : State) (p : PartId) (q : Quad) : (s.setQuad p q).rands = s.rands := rfl
@[simp] theorem State.setQuad_fuses (s : State) (p : PartId) (q : Quad) : (s.setQuad p q).fuses = s.fuses := rfl
@[simp] theorem State.setQuad_comstat (s : State) (p : PartId) (q : Quad) : (s.setQuad p q).comstat = s.comstat := rfl
@[simp] theorem State.setQuad_cre (s : State) (p : PartId) (q : Quad) : (s.setQuad p q).cre = s.cre := rfl
@[simp] theorem State.setQuad_randLate (s : State) (p : PartId) (q : Quad) : (s.setQuad p q).randLate = s.randLate := rfl
@[simp] theorem State.setQuad_movers (s : State) (p : PartId) (q : Quad) : (s.setQuad p q).movers = s.movers := rfl
@[simp] theorem State.setQuad_etus (s : State) (p : PartId) (q : Quad) : (s.setQuad p q).etus = s.etus := rfl
@[simp] theorem State.setQuad_lines (s : State) (p : PartId) (q : Quad) : (s.setQuad p q).lines = s.lines := rfl
@[simp] theorem State.setQuad_dies (s : State) (p : PartId) (q : Quad) : (s.setQuad p q).dies = s.dies := rfl
@[simp] theorem State.setQuad_module (s : State) (p : PartId) (q : Quad) : (s.setQuad p q).module = s.module := rfl
@[simp] theorem State.setQuad_dieGrant (s : State) (p : PartId) (q : Quad) : (s.setQuad p q).dieGrant = s.dieGrant := rfl
@[simp] theorem State.setQuad_moduleGrant (s : State) (p : PartId) (q : Quad) : (s.setQuad p q).moduleGrant = s.moduleGrant := rfl
@[simp] theorem State.setQuad_plru (s : State) (p : PartId) (q : Quad) : (s.setQuad p q).plru = s.plru := rfl
@[simp] theorem State.setQuad_reqq (s : State) (p : PartId) (q : Quad) : (s.setQuad p q).reqq = s.reqq := rfl
@[simp] theorem State.setQuad_snoopq (s : State) (p : PartId) (q : Quad) : (s.setQuad p q).snoopq = s.snoopq := rfl
@[simp] theorem State.setQuad_links (s : State) (p : PartId) (q : Quad) : (s.setQuad p q).links = s.links := rfl
@[simp] theorem State.setQuad_blocks (s : State) (p : PartId) (q : Quad) : (s.setQuad p q).blocks = s.blocks := rfl
@[simp] theorem State.setQuad_dram (s : State) (p : PartId) (q : Quad) : (s.setQuad p q).dram = s.dram := rfl
@[simp] theorem State.setQuad_ports (s : State) (p : PartId) (q : Quad) : (s.setQuad p q).ports = s.ports := rfl
@[simp] theorem State.setQuad_tether (s : State) (p : PartId) (q : Quad) : (s.setQuad p q).tether = s.tether := rfl
@[simp] theorem State.setQuad_snap (s : State) (p : PartId) (q : Quad) : (s.setQuad p q).snap = s.snap := rfl
@[simp] theorem State.setQuad_host (s : State) (p : PartId) (q : Quad) : (s.setQuad p q).host = s.host := rfl
@[simp] theorem State.setQuad_mgmt (s : State) (p : PartId) (q : Quad) : (s.setQuad p q).mgmt = s.mgmt := rfl
@[simp] theorem State.setQuad_cdpwr (s : State) (p : PartId) (q : Quad) : (s.setQuad p q).cdpwr = s.cdpwr := rfl
@[simp] theorem State.setQuad_power (s : State) (p : PartId) (q : Quad) : (s.setQuad p q).power = s.power := rfl
@[simp] theorem State.setQuad_mcheck (s : State) (p : PartId) (q : Quad) : (s.setQuad p q).mcheck = s.mcheck := rfl
@[simp] theorem State.setQuad_fatalLog (s : State) (p : PartId) (q : Quad) : (s.setQuad p q).fatalLog = s.fatalLog := rfl
@[simp] theorem State.setQuad_fatalNew (s : State) (p : PartId) (q : Quad) : (s.setQuad p q).fatalNew = s.fatalNew := rfl

@[simp] theorem State.setTile_pending (s : State) (t : TileId) (x : Tile) : (s.setTile t x).pending = s.pending := rfl
@[simp] theorem State.setTile_fresh (s : State) (t : TileId) (x : Tile) : (s.setTile t x).fresh = s.fresh := rfl
@[simp] theorem State.setTile_out (s : State) (t : TileId) (x : Tile) : (s.setTile t x).out = s.out := rfl
@[simp] theorem State.setTile_busOut (s : State) (t : TileId) (x : Tile) : (s.setTile t x).busOut = s.busOut := rfl
@[simp] theorem State.setTile_mem (s : State) (t : TileId) (x : Tile) : (s.setTile t x).mem = s.mem := rfl
@[simp] theorem State.setTile_dirty (s : State) (t : TileId) (x : Tile) : (s.setTile t x).dirty = s.dirty := rfl
@[simp] theorem State.setTile_badSram (s : State) (t : TileId) (x : Tile) : (s.setTile t x).badSram = s.badSram := rfl
@[simp] theorem State.setTile_cores (s : State) (t : TileId) (x : Tile) : (s.setTile t x).cores = s.cores := rfl
@[simp] theorem State.setTile_image (s : State) (t : TileId) (x : Tile) : (s.setTile t x).image = s.image := rfl
@[simp] theorem State.setTile_calib (s : State) (t : TileId) (x : Tile) : (s.setTile t x).calib = s.calib := rfl
@[simp] theorem State.setTile_calRun (s : State) (t : TileId) (x : Tile) : (s.setTile t x).calRun = s.calRun := rfl
@[simp] theorem State.setTile_arrays (s : State) (t : TileId) (x : Tile) : (s.setTile t x).arrays = s.arrays := rfl
@[simp] theorem State.setTile_quads (s : State) (t : TileId) (x : Tile) : (s.setTile t x).quads = s.quads := rfl
@[simp] theorem State.setTile_srseed (s : State) (t : TileId) (x : Tile) : (s.setTile t x).srseed = s.srseed := rfl
@[simp] theorem State.setTile_engines (s : State) (t : TileId) (x : Tile) : (s.setTile t x).engines = s.engines := rfl
@[simp] theorem State.setTile_engRings (s : State) (t : TileId) (x : Tile) : (s.setTile t x).engRings = s.engRings := rfl
@[simp] theorem State.setTile_rands (s : State) (t : TileId) (x : Tile) : (s.setTile t x).rands = s.rands := rfl
@[simp] theorem State.setTile_fuses (s : State) (t : TileId) (x : Tile) : (s.setTile t x).fuses = s.fuses := rfl
@[simp] theorem State.setTile_comstat (s : State) (t : TileId) (x : Tile) : (s.setTile t x).comstat = s.comstat := rfl
@[simp] theorem State.setTile_cre (s : State) (t : TileId) (x : Tile) : (s.setTile t x).cre = s.cre := rfl
@[simp] theorem State.setTile_randLate (s : State) (t : TileId) (x : Tile) : (s.setTile t x).randLate = s.randLate := rfl
@[simp] theorem State.setTile_movers (s : State) (t : TileId) (x : Tile) : (s.setTile t x).movers = s.movers := rfl
@[simp] theorem State.setTile_etus (s : State) (t : TileId) (x : Tile) : (s.setTile t x).etus = s.etus := rfl
@[simp] theorem State.setTile_lines (s : State) (t : TileId) (x : Tile) : (s.setTile t x).lines = s.lines := rfl
@[simp] theorem State.setTile_dies (s : State) (t : TileId) (x : Tile) : (s.setTile t x).dies = s.dies := rfl
@[simp] theorem State.setTile_module (s : State) (t : TileId) (x : Tile) : (s.setTile t x).module = s.module := rfl
@[simp] theorem State.setTile_dieGrant (s : State) (t : TileId) (x : Tile) : (s.setTile t x).dieGrant = s.dieGrant := rfl
@[simp] theorem State.setTile_moduleGrant (s : State) (t : TileId) (x : Tile) : (s.setTile t x).moduleGrant = s.moduleGrant := rfl
@[simp] theorem State.setTile_plru (s : State) (t : TileId) (x : Tile) : (s.setTile t x).plru = s.plru := rfl
@[simp] theorem State.setTile_reqq (s : State) (t : TileId) (x : Tile) : (s.setTile t x).reqq = s.reqq := rfl
@[simp] theorem State.setTile_snoopq (s : State) (t : TileId) (x : Tile) : (s.setTile t x).snoopq = s.snoopq := rfl
@[simp] theorem State.setTile_links (s : State) (t : TileId) (x : Tile) : (s.setTile t x).links = s.links := rfl
@[simp] theorem State.setTile_blocks (s : State) (t : TileId) (x : Tile) : (s.setTile t x).blocks = s.blocks := rfl
@[simp] theorem State.setTile_dram (s : State) (t : TileId) (x : Tile) : (s.setTile t x).dram = s.dram := rfl
@[simp] theorem State.setTile_ports (s : State) (t : TileId) (x : Tile) : (s.setTile t x).ports = s.ports := rfl
@[simp] theorem State.setTile_tether (s : State) (t : TileId) (x : Tile) : (s.setTile t x).tether = s.tether := rfl
@[simp] theorem State.setTile_snap (s : State) (t : TileId) (x : Tile) : (s.setTile t x).snap = s.snap := rfl
@[simp] theorem State.setTile_host (s : State) (t : TileId) (x : Tile) : (s.setTile t x).host = s.host := rfl
@[simp] theorem State.setTile_mgmt (s : State) (t : TileId) (x : Tile) : (s.setTile t x).mgmt = s.mgmt := rfl
@[simp] theorem State.setTile_cdpwr (s : State) (t : TileId) (x : Tile) : (s.setTile t x).cdpwr = s.cdpwr := rfl
@[simp] theorem State.setTile_power (s : State) (t : TileId) (x : Tile) : (s.setTile t x).power = s.power := rfl
@[simp] theorem State.setTile_mcheck (s : State) (t : TileId) (x : Tile) : (s.setTile t x).mcheck = s.mcheck := rfl
@[simp] theorem State.setTile_fatalLog (s : State) (t : TileId) (x : Tile) : (s.setTile t x).fatalLog = s.fatalLog := rfl
@[simp] theorem State.setTile_fatalNew (s : State) (t : TileId) (x : Tile) : (s.setTile t x).fatalNew = s.fatalNew := rfl

@[simp] theorem State.setEngine_pending (s : State) (e : EngineId) (x : Engine) : (s.setEngine e x).pending = s.pending := rfl
@[simp] theorem State.setEngine_fresh (s : State) (e : EngineId) (x : Engine) : (s.setEngine e x).fresh = s.fresh := rfl
@[simp] theorem State.setEngine_out (s : State) (e : EngineId) (x : Engine) : (s.setEngine e x).out = s.out := rfl
@[simp] theorem State.setEngine_busOut (s : State) (e : EngineId) (x : Engine) : (s.setEngine e x).busOut = s.busOut := rfl
@[simp] theorem State.setEngine_mem (s : State) (e : EngineId) (x : Engine) : (s.setEngine e x).mem = s.mem := rfl
@[simp] theorem State.setEngine_dirty (s : State) (e : EngineId) (x : Engine) : (s.setEngine e x).dirty = s.dirty := rfl
@[simp] theorem State.setEngine_badSram (s : State) (e : EngineId) (x : Engine) : (s.setEngine e x).badSram = s.badSram := rfl
@[simp] theorem State.setEngine_cores (s : State) (e : EngineId) (x : Engine) : (s.setEngine e x).cores = s.cores := rfl
@[simp] theorem State.setEngine_image (s : State) (e : EngineId) (x : Engine) : (s.setEngine e x).image = s.image := rfl
@[simp] theorem State.setEngine_calib (s : State) (e : EngineId) (x : Engine) : (s.setEngine e x).calib = s.calib := rfl
@[simp] theorem State.setEngine_calRun (s : State) (e : EngineId) (x : Engine) : (s.setEngine e x).calRun = s.calRun := rfl
@[simp] theorem State.setEngine_arrays (s : State) (e : EngineId) (x : Engine) : (s.setEngine e x).arrays = s.arrays := rfl
@[simp] theorem State.setEngine_quads (s : State) (e : EngineId) (x : Engine) : (s.setEngine e x).quads = s.quads := rfl
@[simp] theorem State.setEngine_tiles (s : State) (e : EngineId) (x : Engine) : (s.setEngine e x).tiles = s.tiles := rfl
@[simp] theorem State.setEngine_srseed (s : State) (e : EngineId) (x : Engine) : (s.setEngine e x).srseed = s.srseed := rfl
@[simp] theorem State.setEngine_engRings (s : State) (e : EngineId) (x : Engine) : (s.setEngine e x).engRings = s.engRings := rfl
@[simp] theorem State.setEngine_rands (s : State) (e : EngineId) (x : Engine) : (s.setEngine e x).rands = s.rands := rfl
@[simp] theorem State.setEngine_fuses (s : State) (e : EngineId) (x : Engine) : (s.setEngine e x).fuses = s.fuses := rfl
@[simp] theorem State.setEngine_comstat (s : State) (e : EngineId) (x : Engine) : (s.setEngine e x).comstat = s.comstat := rfl
@[simp] theorem State.setEngine_cre (s : State) (e : EngineId) (x : Engine) : (s.setEngine e x).cre = s.cre := rfl
@[simp] theorem State.setEngine_randLate (s : State) (e : EngineId) (x : Engine) : (s.setEngine e x).randLate = s.randLate := rfl
@[simp] theorem State.setEngine_movers (s : State) (e : EngineId) (x : Engine) : (s.setEngine e x).movers = s.movers := rfl
@[simp] theorem State.setEngine_etus (s : State) (e : EngineId) (x : Engine) : (s.setEngine e x).etus = s.etus := rfl
@[simp] theorem State.setEngine_lines (s : State) (e : EngineId) (x : Engine) : (s.setEngine e x).lines = s.lines := rfl
@[simp] theorem State.setEngine_dies (s : State) (e : EngineId) (x : Engine) : (s.setEngine e x).dies = s.dies := rfl
@[simp] theorem State.setEngine_module (s : State) (e : EngineId) (x : Engine) : (s.setEngine e x).module = s.module := rfl
@[simp] theorem State.setEngine_dieGrant (s : State) (e : EngineId) (x : Engine) : (s.setEngine e x).dieGrant = s.dieGrant := rfl
@[simp] theorem State.setEngine_moduleGrant (s : State) (e : EngineId) (x : Engine) : (s.setEngine e x).moduleGrant = s.moduleGrant := rfl
@[simp] theorem State.setEngine_plru (s : State) (e : EngineId) (x : Engine) : (s.setEngine e x).plru = s.plru := rfl
@[simp] theorem State.setEngine_reqq (s : State) (e : EngineId) (x : Engine) : (s.setEngine e x).reqq = s.reqq := rfl
@[simp] theorem State.setEngine_snoopq (s : State) (e : EngineId) (x : Engine) : (s.setEngine e x).snoopq = s.snoopq := rfl
@[simp] theorem State.setEngine_links (s : State) (e : EngineId) (x : Engine) : (s.setEngine e x).links = s.links := rfl
@[simp] theorem State.setEngine_blocks (s : State) (e : EngineId) (x : Engine) : (s.setEngine e x).blocks = s.blocks := rfl
@[simp] theorem State.setEngine_dram (s : State) (e : EngineId) (x : Engine) : (s.setEngine e x).dram = s.dram := rfl
@[simp] theorem State.setEngine_ports (s : State) (e : EngineId) (x : Engine) : (s.setEngine e x).ports = s.ports := rfl
@[simp] theorem State.setEngine_tether (s : State) (e : EngineId) (x : Engine) : (s.setEngine e x).tether = s.tether := rfl
@[simp] theorem State.setEngine_snap (s : State) (e : EngineId) (x : Engine) : (s.setEngine e x).snap = s.snap := rfl
@[simp] theorem State.setEngine_host (s : State) (e : EngineId) (x : Engine) : (s.setEngine e x).host = s.host := rfl
@[simp] theorem State.setEngine_mgmt (s : State) (e : EngineId) (x : Engine) : (s.setEngine e x).mgmt = s.mgmt := rfl
@[simp] theorem State.setEngine_cdpwr (s : State) (e : EngineId) (x : Engine) : (s.setEngine e x).cdpwr = s.cdpwr := rfl
@[simp] theorem State.setEngine_power (s : State) (e : EngineId) (x : Engine) : (s.setEngine e x).power = s.power := rfl
@[simp] theorem State.setEngine_mcheck (s : State) (e : EngineId) (x : Engine) : (s.setEngine e x).mcheck = s.mcheck := rfl
@[simp] theorem State.setEngine_fatalLog (s : State) (e : EngineId) (x : Engine) : (s.setEngine e x).fatalLog = s.fatalLog := rfl
@[simp] theorem State.setEngine_fatalNew (s : State) (e : EngineId) (x : Engine) : (s.setEngine e x).fatalNew = s.fatalNew := rfl

@[simp] theorem State.setMover_pending (s : State) (m : MoverId) (x : Mover) : (s.setMover m x).pending = s.pending := rfl
@[simp] theorem State.setMover_fresh (s : State) (m : MoverId) (x : Mover) : (s.setMover m x).fresh = s.fresh := rfl
@[simp] theorem State.setMover_out (s : State) (m : MoverId) (x : Mover) : (s.setMover m x).out = s.out := rfl
@[simp] theorem State.setMover_busOut (s : State) (m : MoverId) (x : Mover) : (s.setMover m x).busOut = s.busOut := rfl
@[simp] theorem State.setMover_mem (s : State) (m : MoverId) (x : Mover) : (s.setMover m x).mem = s.mem := rfl
@[simp] theorem State.setMover_dirty (s : State) (m : MoverId) (x : Mover) : (s.setMover m x).dirty = s.dirty := rfl
@[simp] theorem State.setMover_badSram (s : State) (m : MoverId) (x : Mover) : (s.setMover m x).badSram = s.badSram := rfl
@[simp] theorem State.setMover_cores (s : State) (m : MoverId) (x : Mover) : (s.setMover m x).cores = s.cores := rfl
@[simp] theorem State.setMover_image (s : State) (m : MoverId) (x : Mover) : (s.setMover m x).image = s.image := rfl
@[simp] theorem State.setMover_calib (s : State) (m : MoverId) (x : Mover) : (s.setMover m x).calib = s.calib := rfl
@[simp] theorem State.setMover_calRun (s : State) (m : MoverId) (x : Mover) : (s.setMover m x).calRun = s.calRun := rfl
@[simp] theorem State.setMover_arrays (s : State) (m : MoverId) (x : Mover) : (s.setMover m x).arrays = s.arrays := rfl
@[simp] theorem State.setMover_quads (s : State) (m : MoverId) (x : Mover) : (s.setMover m x).quads = s.quads := rfl
@[simp] theorem State.setMover_tiles (s : State) (m : MoverId) (x : Mover) : (s.setMover m x).tiles = s.tiles := rfl
@[simp] theorem State.setMover_srseed (s : State) (m : MoverId) (x : Mover) : (s.setMover m x).srseed = s.srseed := rfl
@[simp] theorem State.setMover_engines (s : State) (m : MoverId) (x : Mover) : (s.setMover m x).engines = s.engines := rfl
@[simp] theorem State.setMover_engRings (s : State) (m : MoverId) (x : Mover) : (s.setMover m x).engRings = s.engRings := rfl
@[simp] theorem State.setMover_rands (s : State) (m : MoverId) (x : Mover) : (s.setMover m x).rands = s.rands := rfl
@[simp] theorem State.setMover_fuses (s : State) (m : MoverId) (x : Mover) : (s.setMover m x).fuses = s.fuses := rfl
@[simp] theorem State.setMover_comstat (s : State) (m : MoverId) (x : Mover) : (s.setMover m x).comstat = s.comstat := rfl
@[simp] theorem State.setMover_cre (s : State) (m : MoverId) (x : Mover) : (s.setMover m x).cre = s.cre := rfl
@[simp] theorem State.setMover_randLate (s : State) (m : MoverId) (x : Mover) : (s.setMover m x).randLate = s.randLate := rfl
@[simp] theorem State.setMover_etus (s : State) (m : MoverId) (x : Mover) : (s.setMover m x).etus = s.etus := rfl
@[simp] theorem State.setMover_lines (s : State) (m : MoverId) (x : Mover) : (s.setMover m x).lines = s.lines := rfl
@[simp] theorem State.setMover_dies (s : State) (m : MoverId) (x : Mover) : (s.setMover m x).dies = s.dies := rfl
@[simp] theorem State.setMover_module (s : State) (m : MoverId) (x : Mover) : (s.setMover m x).module = s.module := rfl
@[simp] theorem State.setMover_dieGrant (s : State) (m : MoverId) (x : Mover) : (s.setMover m x).dieGrant = s.dieGrant := rfl
@[simp] theorem State.setMover_moduleGrant (s : State) (m : MoverId) (x : Mover) : (s.setMover m x).moduleGrant = s.moduleGrant := rfl
@[simp] theorem State.setMover_plru (s : State) (m : MoverId) (x : Mover) : (s.setMover m x).plru = s.plru := rfl
@[simp] theorem State.setMover_reqq (s : State) (m : MoverId) (x : Mover) : (s.setMover m x).reqq = s.reqq := rfl
@[simp] theorem State.setMover_snoopq (s : State) (m : MoverId) (x : Mover) : (s.setMover m x).snoopq = s.snoopq := rfl
@[simp] theorem State.setMover_links (s : State) (m : MoverId) (x : Mover) : (s.setMover m x).links = s.links := rfl
@[simp] theorem State.setMover_blocks (s : State) (m : MoverId) (x : Mover) : (s.setMover m x).blocks = s.blocks := rfl
@[simp] theorem State.setMover_dram (s : State) (m : MoverId) (x : Mover) : (s.setMover m x).dram = s.dram := rfl
@[simp] theorem State.setMover_ports (s : State) (m : MoverId) (x : Mover) : (s.setMover m x).ports = s.ports := rfl
@[simp] theorem State.setMover_tether (s : State) (m : MoverId) (x : Mover) : (s.setMover m x).tether = s.tether := rfl
@[simp] theorem State.setMover_snap (s : State) (m : MoverId) (x : Mover) : (s.setMover m x).snap = s.snap := rfl
@[simp] theorem State.setMover_host (s : State) (m : MoverId) (x : Mover) : (s.setMover m x).host = s.host := rfl
@[simp] theorem State.setMover_mgmt (s : State) (m : MoverId) (x : Mover) : (s.setMover m x).mgmt = s.mgmt := rfl
@[simp] theorem State.setMover_cdpwr (s : State) (m : MoverId) (x : Mover) : (s.setMover m x).cdpwr = s.cdpwr := rfl
@[simp] theorem State.setMover_power (s : State) (m : MoverId) (x : Mover) : (s.setMover m x).power = s.power := rfl
@[simp] theorem State.setMover_mcheck (s : State) (m : MoverId) (x : Mover) : (s.setMover m x).mcheck = s.mcheck := rfl
@[simp] theorem State.setMover_fatalLog (s : State) (m : MoverId) (x : Mover) : (s.setMover m x).fatalLog = s.fatalLog := rfl
@[simp] theorem State.setMover_fatalNew (s : State) (m : MoverId) (x : Mover) : (s.setMover m x).fatalNew = s.fatalNew := rfl

@[simp] theorem State.setEtu_pending (s : State) (e : EtuId) (x : Etu) : (s.setEtu e x).pending = s.pending := rfl
@[simp] theorem State.setEtu_fresh (s : State) (e : EtuId) (x : Etu) : (s.setEtu e x).fresh = s.fresh := rfl
@[simp] theorem State.setEtu_out (s : State) (e : EtuId) (x : Etu) : (s.setEtu e x).out = s.out := rfl
@[simp] theorem State.setEtu_busOut (s : State) (e : EtuId) (x : Etu) : (s.setEtu e x).busOut = s.busOut := rfl
@[simp] theorem State.setEtu_mem (s : State) (e : EtuId) (x : Etu) : (s.setEtu e x).mem = s.mem := rfl
@[simp] theorem State.setEtu_dirty (s : State) (e : EtuId) (x : Etu) : (s.setEtu e x).dirty = s.dirty := rfl
@[simp] theorem State.setEtu_badSram (s : State) (e : EtuId) (x : Etu) : (s.setEtu e x).badSram = s.badSram := rfl
@[simp] theorem State.setEtu_cores (s : State) (e : EtuId) (x : Etu) : (s.setEtu e x).cores = s.cores := rfl
@[simp] theorem State.setEtu_image (s : State) (e : EtuId) (x : Etu) : (s.setEtu e x).image = s.image := rfl
@[simp] theorem State.setEtu_calib (s : State) (e : EtuId) (x : Etu) : (s.setEtu e x).calib = s.calib := rfl
@[simp] theorem State.setEtu_calRun (s : State) (e : EtuId) (x : Etu) : (s.setEtu e x).calRun = s.calRun := rfl
@[simp] theorem State.setEtu_arrays (s : State) (e : EtuId) (x : Etu) : (s.setEtu e x).arrays = s.arrays := rfl
@[simp] theorem State.setEtu_quads (s : State) (e : EtuId) (x : Etu) : (s.setEtu e x).quads = s.quads := rfl
@[simp] theorem State.setEtu_tiles (s : State) (e : EtuId) (x : Etu) : (s.setEtu e x).tiles = s.tiles := rfl
@[simp] theorem State.setEtu_srseed (s : State) (e : EtuId) (x : Etu) : (s.setEtu e x).srseed = s.srseed := rfl
@[simp] theorem State.setEtu_engines (s : State) (e : EtuId) (x : Etu) : (s.setEtu e x).engines = s.engines := rfl
@[simp] theorem State.setEtu_engRings (s : State) (e : EtuId) (x : Etu) : (s.setEtu e x).engRings = s.engRings := rfl
@[simp] theorem State.setEtu_rands (s : State) (e : EtuId) (x : Etu) : (s.setEtu e x).rands = s.rands := rfl
@[simp] theorem State.setEtu_fuses (s : State) (e : EtuId) (x : Etu) : (s.setEtu e x).fuses = s.fuses := rfl
@[simp] theorem State.setEtu_comstat (s : State) (e : EtuId) (x : Etu) : (s.setEtu e x).comstat = s.comstat := rfl
@[simp] theorem State.setEtu_cre (s : State) (e : EtuId) (x : Etu) : (s.setEtu e x).cre = s.cre := rfl
@[simp] theorem State.setEtu_randLate (s : State) (e : EtuId) (x : Etu) : (s.setEtu e x).randLate = s.randLate := rfl
@[simp] theorem State.setEtu_movers (s : State) (e : EtuId) (x : Etu) : (s.setEtu e x).movers = s.movers := rfl
@[simp] theorem State.setEtu_lines (s : State) (e : EtuId) (x : Etu) : (s.setEtu e x).lines = s.lines := rfl
@[simp] theorem State.setEtu_dies (s : State) (e : EtuId) (x : Etu) : (s.setEtu e x).dies = s.dies := rfl
@[simp] theorem State.setEtu_module (s : State) (e : EtuId) (x : Etu) : (s.setEtu e x).module = s.module := rfl
@[simp] theorem State.setEtu_dieGrant (s : State) (e : EtuId) (x : Etu) : (s.setEtu e x).dieGrant = s.dieGrant := rfl
@[simp] theorem State.setEtu_moduleGrant (s : State) (e : EtuId) (x : Etu) : (s.setEtu e x).moduleGrant = s.moduleGrant := rfl
@[simp] theorem State.setEtu_plru (s : State) (e : EtuId) (x : Etu) : (s.setEtu e x).plru = s.plru := rfl
@[simp] theorem State.setEtu_reqq (s : State) (e : EtuId) (x : Etu) : (s.setEtu e x).reqq = s.reqq := rfl
@[simp] theorem State.setEtu_snoopq (s : State) (e : EtuId) (x : Etu) : (s.setEtu e x).snoopq = s.snoopq := rfl
@[simp] theorem State.setEtu_links (s : State) (e : EtuId) (x : Etu) : (s.setEtu e x).links = s.links := rfl
@[simp] theorem State.setEtu_blocks (s : State) (e : EtuId) (x : Etu) : (s.setEtu e x).blocks = s.blocks := rfl
@[simp] theorem State.setEtu_dram (s : State) (e : EtuId) (x : Etu) : (s.setEtu e x).dram = s.dram := rfl
@[simp] theorem State.setEtu_ports (s : State) (e : EtuId) (x : Etu) : (s.setEtu e x).ports = s.ports := rfl
@[simp] theorem State.setEtu_tether (s : State) (e : EtuId) (x : Etu) : (s.setEtu e x).tether = s.tether := rfl
@[simp] theorem State.setEtu_snap (s : State) (e : EtuId) (x : Etu) : (s.setEtu e x).snap = s.snap := rfl
@[simp] theorem State.setEtu_host (s : State) (e : EtuId) (x : Etu) : (s.setEtu e x).host = s.host := rfl
@[simp] theorem State.setEtu_mgmt (s : State) (e : EtuId) (x : Etu) : (s.setEtu e x).mgmt = s.mgmt := rfl
@[simp] theorem State.setEtu_cdpwr (s : State) (e : EtuId) (x : Etu) : (s.setEtu e x).cdpwr = s.cdpwr := rfl
@[simp] theorem State.setEtu_power (s : State) (e : EtuId) (x : Etu) : (s.setEtu e x).power = s.power := rfl
@[simp] theorem State.setEtu_mcheck (s : State) (e : EtuId) (x : Etu) : (s.setEtu e x).mcheck = s.mcheck := rfl
@[simp] theorem State.setEtu_fatalLog (s : State) (e : EtuId) (x : Etu) : (s.setEtu e x).fatalLog = s.fatalLog := rfl
@[simp] theorem State.setEtu_fatalNew (s : State) (e : EtuId) (x : Etu) : (s.setEtu e x).fatalNew = s.fatalNew := rfl

@[simp] theorem State.setBlock_pending (s : State) (b : MemBlockId) (x : MemBlock) : (s.setBlock b x).pending = s.pending := rfl
@[simp] theorem State.setBlock_fresh (s : State) (b : MemBlockId) (x : MemBlock) : (s.setBlock b x).fresh = s.fresh := rfl
@[simp] theorem State.setBlock_out (s : State) (b : MemBlockId) (x : MemBlock) : (s.setBlock b x).out = s.out := rfl
@[simp] theorem State.setBlock_busOut (s : State) (b : MemBlockId) (x : MemBlock) : (s.setBlock b x).busOut = s.busOut := rfl
@[simp] theorem State.setBlock_mem (s : State) (b : MemBlockId) (x : MemBlock) : (s.setBlock b x).mem = s.mem := rfl
@[simp] theorem State.setBlock_dirty (s : State) (b : MemBlockId) (x : MemBlock) : (s.setBlock b x).dirty = s.dirty := rfl
@[simp] theorem State.setBlock_badSram (s : State) (b : MemBlockId) (x : MemBlock) : (s.setBlock b x).badSram = s.badSram := rfl
@[simp] theorem State.setBlock_cores (s : State) (b : MemBlockId) (x : MemBlock) : (s.setBlock b x).cores = s.cores := rfl
@[simp] theorem State.setBlock_image (s : State) (b : MemBlockId) (x : MemBlock) : (s.setBlock b x).image = s.image := rfl
@[simp] theorem State.setBlock_calib (s : State) (b : MemBlockId) (x : MemBlock) : (s.setBlock b x).calib = s.calib := rfl
@[simp] theorem State.setBlock_calRun (s : State) (b : MemBlockId) (x : MemBlock) : (s.setBlock b x).calRun = s.calRun := rfl
@[simp] theorem State.setBlock_arrays (s : State) (b : MemBlockId) (x : MemBlock) : (s.setBlock b x).arrays = s.arrays := rfl
@[simp] theorem State.setBlock_quads (s : State) (b : MemBlockId) (x : MemBlock) : (s.setBlock b x).quads = s.quads := rfl
@[simp] theorem State.setBlock_tiles (s : State) (b : MemBlockId) (x : MemBlock) : (s.setBlock b x).tiles = s.tiles := rfl
@[simp] theorem State.setBlock_srseed (s : State) (b : MemBlockId) (x : MemBlock) : (s.setBlock b x).srseed = s.srseed := rfl
@[simp] theorem State.setBlock_engines (s : State) (b : MemBlockId) (x : MemBlock) : (s.setBlock b x).engines = s.engines := rfl
@[simp] theorem State.setBlock_engRings (s : State) (b : MemBlockId) (x : MemBlock) : (s.setBlock b x).engRings = s.engRings := rfl
@[simp] theorem State.setBlock_rands (s : State) (b : MemBlockId) (x : MemBlock) : (s.setBlock b x).rands = s.rands := rfl
@[simp] theorem State.setBlock_fuses (s : State) (b : MemBlockId) (x : MemBlock) : (s.setBlock b x).fuses = s.fuses := rfl
@[simp] theorem State.setBlock_comstat (s : State) (b : MemBlockId) (x : MemBlock) : (s.setBlock b x).comstat = s.comstat := rfl
@[simp] theorem State.setBlock_cre (s : State) (b : MemBlockId) (x : MemBlock) : (s.setBlock b x).cre = s.cre := rfl
@[simp] theorem State.setBlock_randLate (s : State) (b : MemBlockId) (x : MemBlock) : (s.setBlock b x).randLate = s.randLate := rfl
@[simp] theorem State.setBlock_movers (s : State) (b : MemBlockId) (x : MemBlock) : (s.setBlock b x).movers = s.movers := rfl
@[simp] theorem State.setBlock_etus (s : State) (b : MemBlockId) (x : MemBlock) : (s.setBlock b x).etus = s.etus := rfl
@[simp] theorem State.setBlock_lines (s : State) (b : MemBlockId) (x : MemBlock) : (s.setBlock b x).lines = s.lines := rfl
@[simp] theorem State.setBlock_dies (s : State) (b : MemBlockId) (x : MemBlock) : (s.setBlock b x).dies = s.dies := rfl
@[simp] theorem State.setBlock_module (s : State) (b : MemBlockId) (x : MemBlock) : (s.setBlock b x).module = s.module := rfl
@[simp] theorem State.setBlock_dieGrant (s : State) (b : MemBlockId) (x : MemBlock) : (s.setBlock b x).dieGrant = s.dieGrant := rfl
@[simp] theorem State.setBlock_moduleGrant (s : State) (b : MemBlockId) (x : MemBlock) : (s.setBlock b x).moduleGrant = s.moduleGrant := rfl
@[simp] theorem State.setBlock_plru (s : State) (b : MemBlockId) (x : MemBlock) : (s.setBlock b x).plru = s.plru := rfl
@[simp] theorem State.setBlock_reqq (s : State) (b : MemBlockId) (x : MemBlock) : (s.setBlock b x).reqq = s.reqq := rfl
@[simp] theorem State.setBlock_snoopq (s : State) (b : MemBlockId) (x : MemBlock) : (s.setBlock b x).snoopq = s.snoopq := rfl
@[simp] theorem State.setBlock_links (s : State) (b : MemBlockId) (x : MemBlock) : (s.setBlock b x).links = s.links := rfl
@[simp] theorem State.setBlock_dram (s : State) (b : MemBlockId) (x : MemBlock) : (s.setBlock b x).dram = s.dram := rfl
@[simp] theorem State.setBlock_ports (s : State) (b : MemBlockId) (x : MemBlock) : (s.setBlock b x).ports = s.ports := rfl
@[simp] theorem State.setBlock_tether (s : State) (b : MemBlockId) (x : MemBlock) : (s.setBlock b x).tether = s.tether := rfl
@[simp] theorem State.setBlock_snap (s : State) (b : MemBlockId) (x : MemBlock) : (s.setBlock b x).snap = s.snap := rfl
@[simp] theorem State.setBlock_host (s : State) (b : MemBlockId) (x : MemBlock) : (s.setBlock b x).host = s.host := rfl
@[simp] theorem State.setBlock_mgmt (s : State) (b : MemBlockId) (x : MemBlock) : (s.setBlock b x).mgmt = s.mgmt := rfl
@[simp] theorem State.setBlock_cdpwr (s : State) (b : MemBlockId) (x : MemBlock) : (s.setBlock b x).cdpwr = s.cdpwr := rfl
@[simp] theorem State.setBlock_power (s : State) (b : MemBlockId) (x : MemBlock) : (s.setBlock b x).power = s.power := rfl
@[simp] theorem State.setBlock_mcheck (s : State) (b : MemBlockId) (x : MemBlock) : (s.setBlock b x).mcheck = s.mcheck := rfl
@[simp] theorem State.setBlock_fatalLog (s : State) (b : MemBlockId) (x : MemBlock) : (s.setBlock b x).fatalLog = s.fatalLog := rfl
@[simp] theorem State.setBlock_fatalNew (s : State) (b : MemBlockId) (x : MemBlock) : (s.setBlock b x).fatalNew = s.fatalNew := rfl

@[simp] theorem State.setStack_pending (s : State) (n : Nat) (x : StackState) : (s.setStack n x).pending = s.pending := rfl
@[simp] theorem State.setStack_fresh (s : State) (n : Nat) (x : StackState) : (s.setStack n x).fresh = s.fresh := rfl
@[simp] theorem State.setStack_out (s : State) (n : Nat) (x : StackState) : (s.setStack n x).out = s.out := rfl
@[simp] theorem State.setStack_busOut (s : State) (n : Nat) (x : StackState) : (s.setStack n x).busOut = s.busOut := rfl
@[simp] theorem State.setStack_mem (s : State) (n : Nat) (x : StackState) : (s.setStack n x).mem = s.mem := rfl
@[simp] theorem State.setStack_dirty (s : State) (n : Nat) (x : StackState) : (s.setStack n x).dirty = s.dirty := rfl
@[simp] theorem State.setStack_badSram (s : State) (n : Nat) (x : StackState) : (s.setStack n x).badSram = s.badSram := rfl
@[simp] theorem State.setStack_cores (s : State) (n : Nat) (x : StackState) : (s.setStack n x).cores = s.cores := rfl
@[simp] theorem State.setStack_image (s : State) (n : Nat) (x : StackState) : (s.setStack n x).image = s.image := rfl
@[simp] theorem State.setStack_calib (s : State) (n : Nat) (x : StackState) : (s.setStack n x).calib = s.calib := rfl
@[simp] theorem State.setStack_calRun (s : State) (n : Nat) (x : StackState) : (s.setStack n x).calRun = s.calRun := rfl
@[simp] theorem State.setStack_arrays (s : State) (n : Nat) (x : StackState) : (s.setStack n x).arrays = s.arrays := rfl
@[simp] theorem State.setStack_quads (s : State) (n : Nat) (x : StackState) : (s.setStack n x).quads = s.quads := rfl
@[simp] theorem State.setStack_tiles (s : State) (n : Nat) (x : StackState) : (s.setStack n x).tiles = s.tiles := rfl
@[simp] theorem State.setStack_srseed (s : State) (n : Nat) (x : StackState) : (s.setStack n x).srseed = s.srseed := rfl
@[simp] theorem State.setStack_engines (s : State) (n : Nat) (x : StackState) : (s.setStack n x).engines = s.engines := rfl
@[simp] theorem State.setStack_engRings (s : State) (n : Nat) (x : StackState) : (s.setStack n x).engRings = s.engRings := rfl
@[simp] theorem State.setStack_rands (s : State) (n : Nat) (x : StackState) : (s.setStack n x).rands = s.rands := rfl
@[simp] theorem State.setStack_fuses (s : State) (n : Nat) (x : StackState) : (s.setStack n x).fuses = s.fuses := rfl
@[simp] theorem State.setStack_comstat (s : State) (n : Nat) (x : StackState) : (s.setStack n x).comstat = s.comstat := rfl
@[simp] theorem State.setStack_cre (s : State) (n : Nat) (x : StackState) : (s.setStack n x).cre = s.cre := rfl
@[simp] theorem State.setStack_randLate (s : State) (n : Nat) (x : StackState) : (s.setStack n x).randLate = s.randLate := rfl
@[simp] theorem State.setStack_movers (s : State) (n : Nat) (x : StackState) : (s.setStack n x).movers = s.movers := rfl
@[simp] theorem State.setStack_etus (s : State) (n : Nat) (x : StackState) : (s.setStack n x).etus = s.etus := rfl
@[simp] theorem State.setStack_lines (s : State) (n : Nat) (x : StackState) : (s.setStack n x).lines = s.lines := rfl
@[simp] theorem State.setStack_dies (s : State) (n : Nat) (x : StackState) : (s.setStack n x).dies = s.dies := rfl
@[simp] theorem State.setStack_module (s : State) (n : Nat) (x : StackState) : (s.setStack n x).module = s.module := rfl
@[simp] theorem State.setStack_dieGrant (s : State) (n : Nat) (x : StackState) : (s.setStack n x).dieGrant = s.dieGrant := rfl
@[simp] theorem State.setStack_moduleGrant (s : State) (n : Nat) (x : StackState) : (s.setStack n x).moduleGrant = s.moduleGrant := rfl
@[simp] theorem State.setStack_plru (s : State) (n : Nat) (x : StackState) : (s.setStack n x).plru = s.plru := rfl
@[simp] theorem State.setStack_reqq (s : State) (n : Nat) (x : StackState) : (s.setStack n x).reqq = s.reqq := rfl
@[simp] theorem State.setStack_snoopq (s : State) (n : Nat) (x : StackState) : (s.setStack n x).snoopq = s.snoopq := rfl
@[simp] theorem State.setStack_links (s : State) (n : Nat) (x : StackState) : (s.setStack n x).links = s.links := rfl
@[simp] theorem State.setStack_blocks (s : State) (n : Nat) (x : StackState) : (s.setStack n x).blocks = s.blocks := rfl
@[simp] theorem State.setStack_ports (s : State) (n : Nat) (x : StackState) : (s.setStack n x).ports = s.ports := rfl
@[simp] theorem State.setStack_tether (s : State) (n : Nat) (x : StackState) : (s.setStack n x).tether = s.tether := rfl
@[simp] theorem State.setStack_snap (s : State) (n : Nat) (x : StackState) : (s.setStack n x).snap = s.snap := rfl
@[simp] theorem State.setStack_host (s : State) (n : Nat) (x : StackState) : (s.setStack n x).host = s.host := rfl
@[simp] theorem State.setStack_mgmt (s : State) (n : Nat) (x : StackState) : (s.setStack n x).mgmt = s.mgmt := rfl
@[simp] theorem State.setStack_cdpwr (s : State) (n : Nat) (x : StackState) : (s.setStack n x).cdpwr = s.cdpwr := rfl
@[simp] theorem State.setStack_power (s : State) (n : Nat) (x : StackState) : (s.setStack n x).power = s.power := rfl
@[simp] theorem State.setStack_mcheck (s : State) (n : Nat) (x : StackState) : (s.setStack n x).mcheck = s.mcheck := rfl
@[simp] theorem State.setStack_fatalLog (s : State) (n : Nat) (x : StackState) : (s.setStack n x).fatalLog = s.fatalLog := rfl
@[simp] theorem State.setStack_fatalNew (s : State) (n : Nat) (x : StackState) : (s.setStack n x).fatalNew = s.fatalNew := rfl

@[simp] theorem State.setPort_pending (s : State) (p : Fin 12) (x : Port) : (s.setPort p x).pending = s.pending := rfl
@[simp] theorem State.setPort_fresh (s : State) (p : Fin 12) (x : Port) : (s.setPort p x).fresh = s.fresh := rfl
@[simp] theorem State.setPort_out (s : State) (p : Fin 12) (x : Port) : (s.setPort p x).out = s.out := rfl
@[simp] theorem State.setPort_busOut (s : State) (p : Fin 12) (x : Port) : (s.setPort p x).busOut = s.busOut := rfl
@[simp] theorem State.setPort_mem (s : State) (p : Fin 12) (x : Port) : (s.setPort p x).mem = s.mem := rfl
@[simp] theorem State.setPort_dirty (s : State) (p : Fin 12) (x : Port) : (s.setPort p x).dirty = s.dirty := rfl
@[simp] theorem State.setPort_badSram (s : State) (p : Fin 12) (x : Port) : (s.setPort p x).badSram = s.badSram := rfl
@[simp] theorem State.setPort_cores (s : State) (p : Fin 12) (x : Port) : (s.setPort p x).cores = s.cores := rfl
@[simp] theorem State.setPort_image (s : State) (p : Fin 12) (x : Port) : (s.setPort p x).image = s.image := rfl
@[simp] theorem State.setPort_calib (s : State) (p : Fin 12) (x : Port) : (s.setPort p x).calib = s.calib := rfl
@[simp] theorem State.setPort_calRun (s : State) (p : Fin 12) (x : Port) : (s.setPort p x).calRun = s.calRun := rfl
@[simp] theorem State.setPort_arrays (s : State) (p : Fin 12) (x : Port) : (s.setPort p x).arrays = s.arrays := rfl
@[simp] theorem State.setPort_quads (s : State) (p : Fin 12) (x : Port) : (s.setPort p x).quads = s.quads := rfl
@[simp] theorem State.setPort_tiles (s : State) (p : Fin 12) (x : Port) : (s.setPort p x).tiles = s.tiles := rfl
@[simp] theorem State.setPort_srseed (s : State) (p : Fin 12) (x : Port) : (s.setPort p x).srseed = s.srseed := rfl
@[simp] theorem State.setPort_engines (s : State) (p : Fin 12) (x : Port) : (s.setPort p x).engines = s.engines := rfl
@[simp] theorem State.setPort_engRings (s : State) (p : Fin 12) (x : Port) : (s.setPort p x).engRings = s.engRings := rfl
@[simp] theorem State.setPort_rands (s : State) (p : Fin 12) (x : Port) : (s.setPort p x).rands = s.rands := rfl
@[simp] theorem State.setPort_fuses (s : State) (p : Fin 12) (x : Port) : (s.setPort p x).fuses = s.fuses := rfl
@[simp] theorem State.setPort_comstat (s : State) (p : Fin 12) (x : Port) : (s.setPort p x).comstat = s.comstat := rfl
@[simp] theorem State.setPort_cre (s : State) (p : Fin 12) (x : Port) : (s.setPort p x).cre = s.cre := rfl
@[simp] theorem State.setPort_randLate (s : State) (p : Fin 12) (x : Port) : (s.setPort p x).randLate = s.randLate := rfl
@[simp] theorem State.setPort_movers (s : State) (p : Fin 12) (x : Port) : (s.setPort p x).movers = s.movers := rfl
@[simp] theorem State.setPort_etus (s : State) (p : Fin 12) (x : Port) : (s.setPort p x).etus = s.etus := rfl
@[simp] theorem State.setPort_lines (s : State) (p : Fin 12) (x : Port) : (s.setPort p x).lines = s.lines := rfl
@[simp] theorem State.setPort_dies (s : State) (p : Fin 12) (x : Port) : (s.setPort p x).dies = s.dies := rfl
@[simp] theorem State.setPort_module (s : State) (p : Fin 12) (x : Port) : (s.setPort p x).module = s.module := rfl
@[simp] theorem State.setPort_dieGrant (s : State) (p : Fin 12) (x : Port) : (s.setPort p x).dieGrant = s.dieGrant := rfl
@[simp] theorem State.setPort_moduleGrant (s : State) (p : Fin 12) (x : Port) : (s.setPort p x).moduleGrant = s.moduleGrant := rfl
@[simp] theorem State.setPort_plru (s : State) (p : Fin 12) (x : Port) : (s.setPort p x).plru = s.plru := rfl
@[simp] theorem State.setPort_reqq (s : State) (p : Fin 12) (x : Port) : (s.setPort p x).reqq = s.reqq := rfl
@[simp] theorem State.setPort_snoopq (s : State) (p : Fin 12) (x : Port) : (s.setPort p x).snoopq = s.snoopq := rfl
@[simp] theorem State.setPort_links (s : State) (p : Fin 12) (x : Port) : (s.setPort p x).links = s.links := rfl
@[simp] theorem State.setPort_blocks (s : State) (p : Fin 12) (x : Port) : (s.setPort p x).blocks = s.blocks := rfl
@[simp] theorem State.setPort_dram (s : State) (p : Fin 12) (x : Port) : (s.setPort p x).dram = s.dram := rfl
@[simp] theorem State.setPort_tether (s : State) (p : Fin 12) (x : Port) : (s.setPort p x).tether = s.tether := rfl
@[simp] theorem State.setPort_snap (s : State) (p : Fin 12) (x : Port) : (s.setPort p x).snap = s.snap := rfl
@[simp] theorem State.setPort_host (s : State) (p : Fin 12) (x : Port) : (s.setPort p x).host = s.host := rfl
@[simp] theorem State.setPort_mgmt (s : State) (p : Fin 12) (x : Port) : (s.setPort p x).mgmt = s.mgmt := rfl
@[simp] theorem State.setPort_cdpwr (s : State) (p : Fin 12) (x : Port) : (s.setPort p x).cdpwr = s.cdpwr := rfl
@[simp] theorem State.setPort_power (s : State) (p : Fin 12) (x : Port) : (s.setPort p x).power = s.power := rfl
@[simp] theorem State.setPort_mcheck (s : State) (p : Fin 12) (x : Port) : (s.setPort p x).mcheck = s.mcheck := rfl
@[simp] theorem State.setPort_fatalLog (s : State) (p : Fin 12) (x : Port) : (s.setPort p x).fatalLog = s.fatalLog := rfl
@[simp] theorem State.setPort_fatalNew (s : State) (p : Fin 12) (x : Port) : (s.setPort p x).fatalNew = s.fatalNew := rfl

@[simp] theorem State.setCdPwr_pending (s : State) (d : Fin 4) (x : CdPwr) : (s.setCdPwr d x).pending = s.pending := rfl
@[simp] theorem State.setCdPwr_fresh (s : State) (d : Fin 4) (x : CdPwr) : (s.setCdPwr d x).fresh = s.fresh := rfl
@[simp] theorem State.setCdPwr_out (s : State) (d : Fin 4) (x : CdPwr) : (s.setCdPwr d x).out = s.out := rfl
@[simp] theorem State.setCdPwr_busOut (s : State) (d : Fin 4) (x : CdPwr) : (s.setCdPwr d x).busOut = s.busOut := rfl
@[simp] theorem State.setCdPwr_mem (s : State) (d : Fin 4) (x : CdPwr) : (s.setCdPwr d x).mem = s.mem := rfl
@[simp] theorem State.setCdPwr_dirty (s : State) (d : Fin 4) (x : CdPwr) : (s.setCdPwr d x).dirty = s.dirty := rfl
@[simp] theorem State.setCdPwr_badSram (s : State) (d : Fin 4) (x : CdPwr) : (s.setCdPwr d x).badSram = s.badSram := rfl
@[simp] theorem State.setCdPwr_cores (s : State) (d : Fin 4) (x : CdPwr) : (s.setCdPwr d x).cores = s.cores := rfl
@[simp] theorem State.setCdPwr_image (s : State) (d : Fin 4) (x : CdPwr) : (s.setCdPwr d x).image = s.image := rfl
@[simp] theorem State.setCdPwr_calib (s : State) (d : Fin 4) (x : CdPwr) : (s.setCdPwr d x).calib = s.calib := rfl
@[simp] theorem State.setCdPwr_calRun (s : State) (d : Fin 4) (x : CdPwr) : (s.setCdPwr d x).calRun = s.calRun := rfl
@[simp] theorem State.setCdPwr_arrays (s : State) (d : Fin 4) (x : CdPwr) : (s.setCdPwr d x).arrays = s.arrays := rfl
@[simp] theorem State.setCdPwr_quads (s : State) (d : Fin 4) (x : CdPwr) : (s.setCdPwr d x).quads = s.quads := rfl
@[simp] theorem State.setCdPwr_tiles (s : State) (d : Fin 4) (x : CdPwr) : (s.setCdPwr d x).tiles = s.tiles := rfl
@[simp] theorem State.setCdPwr_srseed (s : State) (d : Fin 4) (x : CdPwr) : (s.setCdPwr d x).srseed = s.srseed := rfl
@[simp] theorem State.setCdPwr_engines (s : State) (d : Fin 4) (x : CdPwr) : (s.setCdPwr d x).engines = s.engines := rfl
@[simp] theorem State.setCdPwr_engRings (s : State) (d : Fin 4) (x : CdPwr) : (s.setCdPwr d x).engRings = s.engRings := rfl
@[simp] theorem State.setCdPwr_rands (s : State) (d : Fin 4) (x : CdPwr) : (s.setCdPwr d x).rands = s.rands := rfl
@[simp] theorem State.setCdPwr_fuses (s : State) (d : Fin 4) (x : CdPwr) : (s.setCdPwr d x).fuses = s.fuses := rfl
@[simp] theorem State.setCdPwr_comstat (s : State) (d : Fin 4) (x : CdPwr) : (s.setCdPwr d x).comstat = s.comstat := rfl
@[simp] theorem State.setCdPwr_cre (s : State) (d : Fin 4) (x : CdPwr) : (s.setCdPwr d x).cre = s.cre := rfl
@[simp] theorem State.setCdPwr_randLate (s : State) (d : Fin 4) (x : CdPwr) : (s.setCdPwr d x).randLate = s.randLate := rfl
@[simp] theorem State.setCdPwr_movers (s : State) (d : Fin 4) (x : CdPwr) : (s.setCdPwr d x).movers = s.movers := rfl
@[simp] theorem State.setCdPwr_etus (s : State) (d : Fin 4) (x : CdPwr) : (s.setCdPwr d x).etus = s.etus := rfl
@[simp] theorem State.setCdPwr_lines (s : State) (d : Fin 4) (x : CdPwr) : (s.setCdPwr d x).lines = s.lines := rfl
@[simp] theorem State.setCdPwr_dies (s : State) (d : Fin 4) (x : CdPwr) : (s.setCdPwr d x).dies = s.dies := rfl
@[simp] theorem State.setCdPwr_module (s : State) (d : Fin 4) (x : CdPwr) : (s.setCdPwr d x).module = s.module := rfl
@[simp] theorem State.setCdPwr_dieGrant (s : State) (d : Fin 4) (x : CdPwr) : (s.setCdPwr d x).dieGrant = s.dieGrant := rfl
@[simp] theorem State.setCdPwr_moduleGrant (s : State) (d : Fin 4) (x : CdPwr) : (s.setCdPwr d x).moduleGrant = s.moduleGrant := rfl
@[simp] theorem State.setCdPwr_plru (s : State) (d : Fin 4) (x : CdPwr) : (s.setCdPwr d x).plru = s.plru := rfl
@[simp] theorem State.setCdPwr_reqq (s : State) (d : Fin 4) (x : CdPwr) : (s.setCdPwr d x).reqq = s.reqq := rfl
@[simp] theorem State.setCdPwr_snoopq (s : State) (d : Fin 4) (x : CdPwr) : (s.setCdPwr d x).snoopq = s.snoopq := rfl
@[simp] theorem State.setCdPwr_links (s : State) (d : Fin 4) (x : CdPwr) : (s.setCdPwr d x).links = s.links := rfl
@[simp] theorem State.setCdPwr_blocks (s : State) (d : Fin 4) (x : CdPwr) : (s.setCdPwr d x).blocks = s.blocks := rfl
@[simp] theorem State.setCdPwr_dram (s : State) (d : Fin 4) (x : CdPwr) : (s.setCdPwr d x).dram = s.dram := rfl
@[simp] theorem State.setCdPwr_ports (s : State) (d : Fin 4) (x : CdPwr) : (s.setCdPwr d x).ports = s.ports := rfl
@[simp] theorem State.setCdPwr_tether (s : State) (d : Fin 4) (x : CdPwr) : (s.setCdPwr d x).tether = s.tether := rfl
@[simp] theorem State.setCdPwr_snap (s : State) (d : Fin 4) (x : CdPwr) : (s.setCdPwr d x).snap = s.snap := rfl
@[simp] theorem State.setCdPwr_host (s : State) (d : Fin 4) (x : CdPwr) : (s.setCdPwr d x).host = s.host := rfl
@[simp] theorem State.setCdPwr_mgmt (s : State) (d : Fin 4) (x : CdPwr) : (s.setCdPwr d x).mgmt = s.mgmt := rfl
@[simp] theorem State.setCdPwr_power (s : State) (d : Fin 4) (x : CdPwr) : (s.setCdPwr d x).power = s.power := rfl
@[simp] theorem State.setCdPwr_mcheck (s : State) (d : Fin 4) (x : CdPwr) : (s.setCdPwr d x).mcheck = s.mcheck := rfl
@[simp] theorem State.setCdPwr_fatalLog (s : State) (d : Fin 4) (x : CdPwr) : (s.setCdPwr d x).fatalLog = s.fatalLog := rfl
@[simp] theorem State.setCdPwr_fatalNew (s : State) (d : Fin 4) (x : CdPwr) : (s.setCdPwr d x).fatalNew = s.fatalNew := rfl

@[simp] theorem State.setMcq_pending (s : State) (n : Nat) (x : McQueue) : (s.setMcq n x).pending = s.pending := rfl
@[simp] theorem State.setMcq_fresh (s : State) (n : Nat) (x : McQueue) : (s.setMcq n x).fresh = s.fresh := rfl
@[simp] theorem State.setMcq_out (s : State) (n : Nat) (x : McQueue) : (s.setMcq n x).out = s.out := rfl
@[simp] theorem State.setMcq_busOut (s : State) (n : Nat) (x : McQueue) : (s.setMcq n x).busOut = s.busOut := rfl
@[simp] theorem State.setMcq_mem (s : State) (n : Nat) (x : McQueue) : (s.setMcq n x).mem = s.mem := rfl
@[simp] theorem State.setMcq_dirty (s : State) (n : Nat) (x : McQueue) : (s.setMcq n x).dirty = s.dirty := rfl
@[simp] theorem State.setMcq_badSram (s : State) (n : Nat) (x : McQueue) : (s.setMcq n x).badSram = s.badSram := rfl
@[simp] theorem State.setMcq_cores (s : State) (n : Nat) (x : McQueue) : (s.setMcq n x).cores = s.cores := rfl
@[simp] theorem State.setMcq_image (s : State) (n : Nat) (x : McQueue) : (s.setMcq n x).image = s.image := rfl
@[simp] theorem State.setMcq_calib (s : State) (n : Nat) (x : McQueue) : (s.setMcq n x).calib = s.calib := rfl
@[simp] theorem State.setMcq_calRun (s : State) (n : Nat) (x : McQueue) : (s.setMcq n x).calRun = s.calRun := rfl
@[simp] theorem State.setMcq_arrays (s : State) (n : Nat) (x : McQueue) : (s.setMcq n x).arrays = s.arrays := rfl
@[simp] theorem State.setMcq_quads (s : State) (n : Nat) (x : McQueue) : (s.setMcq n x).quads = s.quads := rfl
@[simp] theorem State.setMcq_tiles (s : State) (n : Nat) (x : McQueue) : (s.setMcq n x).tiles = s.tiles := rfl
@[simp] theorem State.setMcq_srseed (s : State) (n : Nat) (x : McQueue) : (s.setMcq n x).srseed = s.srseed := rfl
@[simp] theorem State.setMcq_engines (s : State) (n : Nat) (x : McQueue) : (s.setMcq n x).engines = s.engines := rfl
@[simp] theorem State.setMcq_engRings (s : State) (n : Nat) (x : McQueue) : (s.setMcq n x).engRings = s.engRings := rfl
@[simp] theorem State.setMcq_rands (s : State) (n : Nat) (x : McQueue) : (s.setMcq n x).rands = s.rands := rfl
@[simp] theorem State.setMcq_fuses (s : State) (n : Nat) (x : McQueue) : (s.setMcq n x).fuses = s.fuses := rfl
@[simp] theorem State.setMcq_comstat (s : State) (n : Nat) (x : McQueue) : (s.setMcq n x).comstat = s.comstat := rfl
@[simp] theorem State.setMcq_cre (s : State) (n : Nat) (x : McQueue) : (s.setMcq n x).cre = s.cre := rfl
@[simp] theorem State.setMcq_randLate (s : State) (n : Nat) (x : McQueue) : (s.setMcq n x).randLate = s.randLate := rfl
@[simp] theorem State.setMcq_movers (s : State) (n : Nat) (x : McQueue) : (s.setMcq n x).movers = s.movers := rfl
@[simp] theorem State.setMcq_etus (s : State) (n : Nat) (x : McQueue) : (s.setMcq n x).etus = s.etus := rfl
@[simp] theorem State.setMcq_lines (s : State) (n : Nat) (x : McQueue) : (s.setMcq n x).lines = s.lines := rfl
@[simp] theorem State.setMcq_dies (s : State) (n : Nat) (x : McQueue) : (s.setMcq n x).dies = s.dies := rfl
@[simp] theorem State.setMcq_module (s : State) (n : Nat) (x : McQueue) : (s.setMcq n x).module = s.module := rfl
@[simp] theorem State.setMcq_dieGrant (s : State) (n : Nat) (x : McQueue) : (s.setMcq n x).dieGrant = s.dieGrant := rfl
@[simp] theorem State.setMcq_moduleGrant (s : State) (n : Nat) (x : McQueue) : (s.setMcq n x).moduleGrant = s.moduleGrant := rfl
@[simp] theorem State.setMcq_plru (s : State) (n : Nat) (x : McQueue) : (s.setMcq n x).plru = s.plru := rfl
@[simp] theorem State.setMcq_reqq (s : State) (n : Nat) (x : McQueue) : (s.setMcq n x).reqq = s.reqq := rfl
@[simp] theorem State.setMcq_snoopq (s : State) (n : Nat) (x : McQueue) : (s.setMcq n x).snoopq = s.snoopq := rfl
@[simp] theorem State.setMcq_links (s : State) (n : Nat) (x : McQueue) : (s.setMcq n x).links = s.links := rfl
@[simp] theorem State.setMcq_blocks (s : State) (n : Nat) (x : McQueue) : (s.setMcq n x).blocks = s.blocks := rfl
@[simp] theorem State.setMcq_dram (s : State) (n : Nat) (x : McQueue) : (s.setMcq n x).dram = s.dram := rfl
@[simp] theorem State.setMcq_ports (s : State) (n : Nat) (x : McQueue) : (s.setMcq n x).ports = s.ports := rfl
@[simp] theorem State.setMcq_tether (s : State) (n : Nat) (x : McQueue) : (s.setMcq n x).tether = s.tether := rfl
@[simp] theorem State.setMcq_snap (s : State) (n : Nat) (x : McQueue) : (s.setMcq n x).snap = s.snap := rfl
@[simp] theorem State.setMcq_host (s : State) (n : Nat) (x : McQueue) : (s.setMcq n x).host = s.host := rfl
@[simp] theorem State.setMcq_mgmt (s : State) (n : Nat) (x : McQueue) : (s.setMcq n x).mgmt = s.mgmt := rfl
@[simp] theorem State.setMcq_cdpwr (s : State) (n : Nat) (x : McQueue) : (s.setMcq n x).cdpwr = s.cdpwr := rfl
@[simp] theorem State.setMcq_power (s : State) (n : Nat) (x : McQueue) : (s.setMcq n x).power = s.power := rfl
@[simp] theorem State.setMcq_fatalLog (s : State) (n : Nat) (x : McQueue) : (s.setMcq n x).fatalLog = s.fatalLog := rfl
@[simp] theorem State.setMcq_fatalNew (s : State) (n : Nat) (x : McQueue) : (s.setMcq n x).fatalNew = s.fatalNew := rfl

@[simp] theorem State.setLine_pending (s : State) (c : CacheId) (l : Nat) (x : CacheLine) : (s.setLine c l x).pending = s.pending := rfl
@[simp] theorem State.setLine_fresh (s : State) (c : CacheId) (l : Nat) (x : CacheLine) : (s.setLine c l x).fresh = s.fresh := rfl
@[simp] theorem State.setLine_out (s : State) (c : CacheId) (l : Nat) (x : CacheLine) : (s.setLine c l x).out = s.out := rfl
@[simp] theorem State.setLine_busOut (s : State) (c : CacheId) (l : Nat) (x : CacheLine) : (s.setLine c l x).busOut = s.busOut := rfl
@[simp] theorem State.setLine_mem (s : State) (c : CacheId) (l : Nat) (x : CacheLine) : (s.setLine c l x).mem = s.mem := rfl
@[simp] theorem State.setLine_dirty (s : State) (c : CacheId) (l : Nat) (x : CacheLine) : (s.setLine c l x).dirty = s.dirty := rfl
@[simp] theorem State.setLine_badSram (s : State) (c : CacheId) (l : Nat) (x : CacheLine) : (s.setLine c l x).badSram = s.badSram := rfl
@[simp] theorem State.setLine_cores (s : State) (c : CacheId) (l : Nat) (x : CacheLine) : (s.setLine c l x).cores = s.cores := rfl
@[simp] theorem State.setLine_image (s : State) (c : CacheId) (l : Nat) (x : CacheLine) : (s.setLine c l x).image = s.image := rfl
@[simp] theorem State.setLine_calib (s : State) (c : CacheId) (l : Nat) (x : CacheLine) : (s.setLine c l x).calib = s.calib := rfl
@[simp] theorem State.setLine_calRun (s : State) (c : CacheId) (l : Nat) (x : CacheLine) : (s.setLine c l x).calRun = s.calRun := rfl
@[simp] theorem State.setLine_arrays (s : State) (c : CacheId) (l : Nat) (x : CacheLine) : (s.setLine c l x).arrays = s.arrays := rfl
@[simp] theorem State.setLine_quads (s : State) (c : CacheId) (l : Nat) (x : CacheLine) : (s.setLine c l x).quads = s.quads := rfl
@[simp] theorem State.setLine_tiles (s : State) (c : CacheId) (l : Nat) (x : CacheLine) : (s.setLine c l x).tiles = s.tiles := rfl
@[simp] theorem State.setLine_srseed (s : State) (c : CacheId) (l : Nat) (x : CacheLine) : (s.setLine c l x).srseed = s.srseed := rfl
@[simp] theorem State.setLine_engines (s : State) (c : CacheId) (l : Nat) (x : CacheLine) : (s.setLine c l x).engines = s.engines := rfl
@[simp] theorem State.setLine_engRings (s : State) (c : CacheId) (l : Nat) (x : CacheLine) : (s.setLine c l x).engRings = s.engRings := rfl
@[simp] theorem State.setLine_rands (s : State) (c : CacheId) (l : Nat) (x : CacheLine) : (s.setLine c l x).rands = s.rands := rfl
@[simp] theorem State.setLine_fuses (s : State) (c : CacheId) (l : Nat) (x : CacheLine) : (s.setLine c l x).fuses = s.fuses := rfl
@[simp] theorem State.setLine_comstat (s : State) (c : CacheId) (l : Nat) (x : CacheLine) : (s.setLine c l x).comstat = s.comstat := rfl
@[simp] theorem State.setLine_cre (s : State) (c : CacheId) (l : Nat) (x : CacheLine) : (s.setLine c l x).cre = s.cre := rfl
@[simp] theorem State.setLine_randLate (s : State) (c : CacheId) (l : Nat) (x : CacheLine) : (s.setLine c l x).randLate = s.randLate := rfl
@[simp] theorem State.setLine_movers (s : State) (c : CacheId) (l : Nat) (x : CacheLine) : (s.setLine c l x).movers = s.movers := rfl
@[simp] theorem State.setLine_etus (s : State) (c : CacheId) (l : Nat) (x : CacheLine) : (s.setLine c l x).etus = s.etus := rfl
@[simp] theorem State.setLine_dies (s : State) (c : CacheId) (l : Nat) (x : CacheLine) : (s.setLine c l x).dies = s.dies := rfl
@[simp] theorem State.setLine_module (s : State) (c : CacheId) (l : Nat) (x : CacheLine) : (s.setLine c l x).module = s.module := rfl
@[simp] theorem State.setLine_dieGrant (s : State) (c : CacheId) (l : Nat) (x : CacheLine) : (s.setLine c l x).dieGrant = s.dieGrant := rfl
@[simp] theorem State.setLine_moduleGrant (s : State) (c : CacheId) (l : Nat) (x : CacheLine) : (s.setLine c l x).moduleGrant = s.moduleGrant := rfl
@[simp] theorem State.setLine_plru (s : State) (c : CacheId) (l : Nat) (x : CacheLine) : (s.setLine c l x).plru = s.plru := rfl
@[simp] theorem State.setLine_reqq (s : State) (c : CacheId) (l : Nat) (x : CacheLine) : (s.setLine c l x).reqq = s.reqq := rfl
@[simp] theorem State.setLine_snoopq (s : State) (c : CacheId) (l : Nat) (x : CacheLine) : (s.setLine c l x).snoopq = s.snoopq := rfl
@[simp] theorem State.setLine_links (s : State) (c : CacheId) (l : Nat) (x : CacheLine) : (s.setLine c l x).links = s.links := rfl
@[simp] theorem State.setLine_blocks (s : State) (c : CacheId) (l : Nat) (x : CacheLine) : (s.setLine c l x).blocks = s.blocks := rfl
@[simp] theorem State.setLine_dram (s : State) (c : CacheId) (l : Nat) (x : CacheLine) : (s.setLine c l x).dram = s.dram := rfl
@[simp] theorem State.setLine_ports (s : State) (c : CacheId) (l : Nat) (x : CacheLine) : (s.setLine c l x).ports = s.ports := rfl
@[simp] theorem State.setLine_tether (s : State) (c : CacheId) (l : Nat) (x : CacheLine) : (s.setLine c l x).tether = s.tether := rfl
@[simp] theorem State.setLine_snap (s : State) (c : CacheId) (l : Nat) (x : CacheLine) : (s.setLine c l x).snap = s.snap := rfl
@[simp] theorem State.setLine_host (s : State) (c : CacheId) (l : Nat) (x : CacheLine) : (s.setLine c l x).host = s.host := rfl
@[simp] theorem State.setLine_mgmt (s : State) (c : CacheId) (l : Nat) (x : CacheLine) : (s.setLine c l x).mgmt = s.mgmt := rfl
@[simp] theorem State.setLine_cdpwr (s : State) (c : CacheId) (l : Nat) (x : CacheLine) : (s.setLine c l x).cdpwr = s.cdpwr := rfl
@[simp] theorem State.setLine_power (s : State) (c : CacheId) (l : Nat) (x : CacheLine) : (s.setLine c l x).power = s.power := rfl
@[simp] theorem State.setLine_mcheck (s : State) (c : CacheId) (l : Nat) (x : CacheLine) : (s.setLine c l x).mcheck = s.mcheck := rfl
@[simp] theorem State.setLine_fatalLog (s : State) (c : CacheId) (l : Nat) (x : CacheLine) : (s.setLine c l x).fatalLog = s.fatalLog := rfl
@[simp] theorem State.setLine_fatalNew (s : State) (c : CacheId) (l : Nat) (x : CacheLine) : (s.setLine c l x).fatalNew = s.fatalNew := rfl

@[simp] theorem State.setCreState_pending (s : State) (d : Fin 4) (x : CreState) : (s.setCreState d x).pending = s.pending := rfl
@[simp] theorem State.setCreState_fresh (s : State) (d : Fin 4) (x : CreState) : (s.setCreState d x).fresh = s.fresh := rfl
@[simp] theorem State.setCreState_out (s : State) (d : Fin 4) (x : CreState) : (s.setCreState d x).out = s.out := rfl
@[simp] theorem State.setCreState_busOut (s : State) (d : Fin 4) (x : CreState) : (s.setCreState d x).busOut = s.busOut := rfl
@[simp] theorem State.setCreState_mem (s : State) (d : Fin 4) (x : CreState) : (s.setCreState d x).mem = s.mem := rfl
@[simp] theorem State.setCreState_dirty (s : State) (d : Fin 4) (x : CreState) : (s.setCreState d x).dirty = s.dirty := rfl
@[simp] theorem State.setCreState_badSram (s : State) (d : Fin 4) (x : CreState) : (s.setCreState d x).badSram = s.badSram := rfl
@[simp] theorem State.setCreState_cores (s : State) (d : Fin 4) (x : CreState) : (s.setCreState d x).cores = s.cores := rfl
@[simp] theorem State.setCreState_image (s : State) (d : Fin 4) (x : CreState) : (s.setCreState d x).image = s.image := rfl
@[simp] theorem State.setCreState_calib (s : State) (d : Fin 4) (x : CreState) : (s.setCreState d x).calib = s.calib := rfl
@[simp] theorem State.setCreState_calRun (s : State) (d : Fin 4) (x : CreState) : (s.setCreState d x).calRun = s.calRun := rfl
@[simp] theorem State.setCreState_arrays (s : State) (d : Fin 4) (x : CreState) : (s.setCreState d x).arrays = s.arrays := rfl
@[simp] theorem State.setCreState_quads (s : State) (d : Fin 4) (x : CreState) : (s.setCreState d x).quads = s.quads := rfl
@[simp] theorem State.setCreState_tiles (s : State) (d : Fin 4) (x : CreState) : (s.setCreState d x).tiles = s.tiles := rfl
@[simp] theorem State.setCreState_srseed (s : State) (d : Fin 4) (x : CreState) : (s.setCreState d x).srseed = s.srseed := rfl
@[simp] theorem State.setCreState_engines (s : State) (d : Fin 4) (x : CreState) : (s.setCreState d x).engines = s.engines := rfl
@[simp] theorem State.setCreState_engRings (s : State) (d : Fin 4) (x : CreState) : (s.setCreState d x).engRings = s.engRings := rfl
@[simp] theorem State.setCreState_rands (s : State) (d : Fin 4) (x : CreState) : (s.setCreState d x).rands = s.rands := rfl
@[simp] theorem State.setCreState_fuses (s : State) (d : Fin 4) (x : CreState) : (s.setCreState d x).fuses = s.fuses := rfl
@[simp] theorem State.setCreState_comstat (s : State) (d : Fin 4) (x : CreState) : (s.setCreState d x).comstat = s.comstat := rfl
@[simp] theorem State.setCreState_randLate (s : State) (d : Fin 4) (x : CreState) : (s.setCreState d x).randLate = s.randLate := rfl
@[simp] theorem State.setCreState_movers (s : State) (d : Fin 4) (x : CreState) : (s.setCreState d x).movers = s.movers := rfl
@[simp] theorem State.setCreState_etus (s : State) (d : Fin 4) (x : CreState) : (s.setCreState d x).etus = s.etus := rfl
@[simp] theorem State.setCreState_lines (s : State) (d : Fin 4) (x : CreState) : (s.setCreState d x).lines = s.lines := rfl
@[simp] theorem State.setCreState_dies (s : State) (d : Fin 4) (x : CreState) : (s.setCreState d x).dies = s.dies := rfl
@[simp] theorem State.setCreState_module (s : State) (d : Fin 4) (x : CreState) : (s.setCreState d x).module = s.module := rfl
@[simp] theorem State.setCreState_dieGrant (s : State) (d : Fin 4) (x : CreState) : (s.setCreState d x).dieGrant = s.dieGrant := rfl
@[simp] theorem State.setCreState_moduleGrant (s : State) (d : Fin 4) (x : CreState) : (s.setCreState d x).moduleGrant = s.moduleGrant := rfl
@[simp] theorem State.setCreState_plru (s : State) (d : Fin 4) (x : CreState) : (s.setCreState d x).plru = s.plru := rfl
@[simp] theorem State.setCreState_reqq (s : State) (d : Fin 4) (x : CreState) : (s.setCreState d x).reqq = s.reqq := rfl
@[simp] theorem State.setCreState_snoopq (s : State) (d : Fin 4) (x : CreState) : (s.setCreState d x).snoopq = s.snoopq := rfl
@[simp] theorem State.setCreState_links (s : State) (d : Fin 4) (x : CreState) : (s.setCreState d x).links = s.links := rfl
@[simp] theorem State.setCreState_blocks (s : State) (d : Fin 4) (x : CreState) : (s.setCreState d x).blocks = s.blocks := rfl
@[simp] theorem State.setCreState_dram (s : State) (d : Fin 4) (x : CreState) : (s.setCreState d x).dram = s.dram := rfl
@[simp] theorem State.setCreState_ports (s : State) (d : Fin 4) (x : CreState) : (s.setCreState d x).ports = s.ports := rfl
@[simp] theorem State.setCreState_tether (s : State) (d : Fin 4) (x : CreState) : (s.setCreState d x).tether = s.tether := rfl
@[simp] theorem State.setCreState_snap (s : State) (d : Fin 4) (x : CreState) : (s.setCreState d x).snap = s.snap := rfl
@[simp] theorem State.setCreState_host (s : State) (d : Fin 4) (x : CreState) : (s.setCreState d x).host = s.host := rfl
@[simp] theorem State.setCreState_mgmt (s : State) (d : Fin 4) (x : CreState) : (s.setCreState d x).mgmt = s.mgmt := rfl
@[simp] theorem State.setCreState_cdpwr (s : State) (d : Fin 4) (x : CreState) : (s.setCreState d x).cdpwr = s.cdpwr := rfl
@[simp] theorem State.setCreState_power (s : State) (d : Fin 4) (x : CreState) : (s.setCreState d x).power = s.power := rfl
@[simp] theorem State.setCreState_mcheck (s : State) (d : Fin 4) (x : CreState) : (s.setCreState d x).mcheck = s.mcheck := rfl
@[simp] theorem State.setCreState_fatalLog (s : State) (d : Fin 4) (x : CreState) : (s.setCreState d x).fatalLog = s.fatalLog := rfl
@[simp] theorem State.setCreState_fatalNew (s : State) (d : Fin 4) (x : CreState) : (s.setCreState d x).fatalNew = s.fatalNew := rfl

@[simp] theorem State.emit_pending (s : State) (o : Output) : (s.emit o).pending = s.pending := rfl
@[simp] theorem State.emit_fresh (s : State) (o : Output) : (s.emit o).fresh = s.fresh := rfl
@[simp] theorem State.emit_busOut (s : State) (o : Output) : (s.emit o).busOut = s.busOut := rfl
@[simp] theorem State.emit_mem (s : State) (o : Output) : (s.emit o).mem = s.mem := rfl
@[simp] theorem State.emit_dirty (s : State) (o : Output) : (s.emit o).dirty = s.dirty := rfl
@[simp] theorem State.emit_badSram (s : State) (o : Output) : (s.emit o).badSram = s.badSram := rfl
@[simp] theorem State.emit_cores (s : State) (o : Output) : (s.emit o).cores = s.cores := rfl
@[simp] theorem State.emit_image (s : State) (o : Output) : (s.emit o).image = s.image := rfl
@[simp] theorem State.emit_calib (s : State) (o : Output) : (s.emit o).calib = s.calib := rfl
@[simp] theorem State.emit_calRun (s : State) (o : Output) : (s.emit o).calRun = s.calRun := rfl
@[simp] theorem State.emit_arrays (s : State) (o : Output) : (s.emit o).arrays = s.arrays := rfl
@[simp] theorem State.emit_quads (s : State) (o : Output) : (s.emit o).quads = s.quads := rfl
@[simp] theorem State.emit_tiles (s : State) (o : Output) : (s.emit o).tiles = s.tiles := rfl
@[simp] theorem State.emit_srseed (s : State) (o : Output) : (s.emit o).srseed = s.srseed := rfl
@[simp] theorem State.emit_engines (s : State) (o : Output) : (s.emit o).engines = s.engines := rfl
@[simp] theorem State.emit_engRings (s : State) (o : Output) : (s.emit o).engRings = s.engRings := rfl
@[simp] theorem State.emit_rands (s : State) (o : Output) : (s.emit o).rands = s.rands := rfl
@[simp] theorem State.emit_fuses (s : State) (o : Output) : (s.emit o).fuses = s.fuses := rfl
@[simp] theorem State.emit_comstat (s : State) (o : Output) : (s.emit o).comstat = s.comstat := rfl
@[simp] theorem State.emit_cre (s : State) (o : Output) : (s.emit o).cre = s.cre := rfl
@[simp] theorem State.emit_randLate (s : State) (o : Output) : (s.emit o).randLate = s.randLate := rfl
@[simp] theorem State.emit_movers (s : State) (o : Output) : (s.emit o).movers = s.movers := rfl
@[simp] theorem State.emit_etus (s : State) (o : Output) : (s.emit o).etus = s.etus := rfl
@[simp] theorem State.emit_lines (s : State) (o : Output) : (s.emit o).lines = s.lines := rfl
@[simp] theorem State.emit_dies (s : State) (o : Output) : (s.emit o).dies = s.dies := rfl
@[simp] theorem State.emit_module (s : State) (o : Output) : (s.emit o).module = s.module := rfl
@[simp] theorem State.emit_dieGrant (s : State) (o : Output) : (s.emit o).dieGrant = s.dieGrant := rfl
@[simp] theorem State.emit_moduleGrant (s : State) (o : Output) : (s.emit o).moduleGrant = s.moduleGrant := rfl
@[simp] theorem State.emit_plru (s : State) (o : Output) : (s.emit o).plru = s.plru := rfl
@[simp] theorem State.emit_reqq (s : State) (o : Output) : (s.emit o).reqq = s.reqq := rfl
@[simp] theorem State.emit_snoopq (s : State) (o : Output) : (s.emit o).snoopq = s.snoopq := rfl
@[simp] theorem State.emit_links (s : State) (o : Output) : (s.emit o).links = s.links := rfl
@[simp] theorem State.emit_blocks (s : State) (o : Output) : (s.emit o).blocks = s.blocks := rfl
@[simp] theorem State.emit_dram (s : State) (o : Output) : (s.emit o).dram = s.dram := rfl
@[simp] theorem State.emit_ports (s : State) (o : Output) : (s.emit o).ports = s.ports := rfl
@[simp] theorem State.emit_tether (s : State) (o : Output) : (s.emit o).tether = s.tether := rfl
@[simp] theorem State.emit_snap (s : State) (o : Output) : (s.emit o).snap = s.snap := rfl
@[simp] theorem State.emit_host (s : State) (o : Output) : (s.emit o).host = s.host := rfl
@[simp] theorem State.emit_mgmt (s : State) (o : Output) : (s.emit o).mgmt = s.mgmt := rfl
@[simp] theorem State.emit_cdpwr (s : State) (o : Output) : (s.emit o).cdpwr = s.cdpwr := rfl
@[simp] theorem State.emit_power (s : State) (o : Output) : (s.emit o).power = s.power := rfl
@[simp] theorem State.emit_mcheck (s : State) (o : Output) : (s.emit o).mcheck = s.mcheck := rfl
@[simp] theorem State.emit_fatalLog (s : State) (o : Output) : (s.emit o).fatalLog = s.fatalLog := rfl
@[simp] theorem State.emit_fatalNew (s : State) (o : Output) : (s.emit o).fatalNew = s.fatalNew := rfl

@[simp] theorem State.bump_pending (s : State) : (s.bump).pending = s.pending := rfl
@[simp] theorem State.bump_out (s : State) : (s.bump).out = s.out := rfl
@[simp] theorem State.bump_busOut (s : State) : (s.bump).busOut = s.busOut := rfl
@[simp] theorem State.bump_mem (s : State) : (s.bump).mem = s.mem := rfl
@[simp] theorem State.bump_dirty (s : State) : (s.bump).dirty = s.dirty := rfl
@[simp] theorem State.bump_badSram (s : State) : (s.bump).badSram = s.badSram := rfl
@[simp] theorem State.bump_cores (s : State) : (s.bump).cores = s.cores := rfl
@[simp] theorem State.bump_image (s : State) : (s.bump).image = s.image := rfl
@[simp] theorem State.bump_calib (s : State) : (s.bump).calib = s.calib := rfl
@[simp] theorem State.bump_calRun (s : State) : (s.bump).calRun = s.calRun := rfl
@[simp] theorem State.bump_arrays (s : State) : (s.bump).arrays = s.arrays := rfl
@[simp] theorem State.bump_quads (s : State) : (s.bump).quads = s.quads := rfl
@[simp] theorem State.bump_tiles (s : State) : (s.bump).tiles = s.tiles := rfl
@[simp] theorem State.bump_srseed (s : State) : (s.bump).srseed = s.srseed := rfl
@[simp] theorem State.bump_engines (s : State) : (s.bump).engines = s.engines := rfl
@[simp] theorem State.bump_engRings (s : State) : (s.bump).engRings = s.engRings := rfl
@[simp] theorem State.bump_rands (s : State) : (s.bump).rands = s.rands := rfl
@[simp] theorem State.bump_fuses (s : State) : (s.bump).fuses = s.fuses := rfl
@[simp] theorem State.bump_comstat (s : State) : (s.bump).comstat = s.comstat := rfl
@[simp] theorem State.bump_cre (s : State) : (s.bump).cre = s.cre := rfl
@[simp] theorem State.bump_randLate (s : State) : (s.bump).randLate = s.randLate := rfl
@[simp] theorem State.bump_movers (s : State) : (s.bump).movers = s.movers := rfl
@[simp] theorem State.bump_etus (s : State) : (s.bump).etus = s.etus := rfl
@[simp] theorem State.bump_lines (s : State) : (s.bump).lines = s.lines := rfl
@[simp] theorem State.bump_dies (s : State) : (s.bump).dies = s.dies := rfl
@[simp] theorem State.bump_module (s : State) : (s.bump).module = s.module := rfl
@[simp] theorem State.bump_dieGrant (s : State) : (s.bump).dieGrant = s.dieGrant := rfl
@[simp] theorem State.bump_moduleGrant (s : State) : (s.bump).moduleGrant = s.moduleGrant := rfl
@[simp] theorem State.bump_plru (s : State) : (s.bump).plru = s.plru := rfl
@[simp] theorem State.bump_reqq (s : State) : (s.bump).reqq = s.reqq := rfl
@[simp] theorem State.bump_snoopq (s : State) : (s.bump).snoopq = s.snoopq := rfl
@[simp] theorem State.bump_links (s : State) : (s.bump).links = s.links := rfl
@[simp] theorem State.bump_blocks (s : State) : (s.bump).blocks = s.blocks := rfl
@[simp] theorem State.bump_dram (s : State) : (s.bump).dram = s.dram := rfl
@[simp] theorem State.bump_ports (s : State) : (s.bump).ports = s.ports := rfl
@[simp] theorem State.bump_tether (s : State) : (s.bump).tether = s.tether := rfl
@[simp] theorem State.bump_snap (s : State) : (s.bump).snap = s.snap := rfl
@[simp] theorem State.bump_host (s : State) : (s.bump).host = s.host := rfl
@[simp] theorem State.bump_mgmt (s : State) : (s.bump).mgmt = s.mgmt := rfl
@[simp] theorem State.bump_cdpwr (s : State) : (s.bump).cdpwr = s.cdpwr := rfl
@[simp] theorem State.bump_power (s : State) : (s.bump).power = s.power := rfl
@[simp] theorem State.bump_mcheck (s : State) : (s.bump).mcheck = s.mcheck := rfl
@[simp] theorem State.bump_fatalLog (s : State) : (s.bump).fatalLog = s.fatalLog := rfl
@[simp] theorem State.bump_fatalNew (s : State) : (s.bump).fatalNew = s.fatalNew := rfl

@[simp] theorem State.setStep_pending (s : State) (n : Nat) : (s.setStep n).pending = s.pending := rfl
@[simp] theorem State.setStep_fresh (s : State) (n : Nat) : (s.setStep n).fresh = s.fresh := rfl
@[simp] theorem State.setStep_out (s : State) (n : Nat) : (s.setStep n).out = s.out := rfl
@[simp] theorem State.setStep_busOut (s : State) (n : Nat) : (s.setStep n).busOut = s.busOut := rfl
@[simp] theorem State.setStep_mem (s : State) (n : Nat) : (s.setStep n).mem = s.mem := rfl
@[simp] theorem State.setStep_dirty (s : State) (n : Nat) : (s.setStep n).dirty = s.dirty := rfl
@[simp] theorem State.setStep_badSram (s : State) (n : Nat) : (s.setStep n).badSram = s.badSram := rfl
@[simp] theorem State.setStep_cores (s : State) (n : Nat) : (s.setStep n).cores = s.cores := rfl
@[simp] theorem State.setStep_image (s : State) (n : Nat) : (s.setStep n).image = s.image := rfl
@[simp] theorem State.setStep_calib (s : State) (n : Nat) : (s.setStep n).calib = s.calib := rfl
@[simp] theorem State.setStep_calRun (s : State) (n : Nat) : (s.setStep n).calRun = s.calRun := rfl
@[simp] theorem State.setStep_arrays (s : State) (n : Nat) : (s.setStep n).arrays = s.arrays := rfl
@[simp] theorem State.setStep_quads (s : State) (n : Nat) : (s.setStep n).quads = s.quads := rfl
@[simp] theorem State.setStep_tiles (s : State) (n : Nat) : (s.setStep n).tiles = s.tiles := rfl
@[simp] theorem State.setStep_srseed (s : State) (n : Nat) : (s.setStep n).srseed = s.srseed := rfl
@[simp] theorem State.setStep_engines (s : State) (n : Nat) : (s.setStep n).engines = s.engines := rfl
@[simp] theorem State.setStep_engRings (s : State) (n : Nat) : (s.setStep n).engRings = s.engRings := rfl
@[simp] theorem State.setStep_rands (s : State) (n : Nat) : (s.setStep n).rands = s.rands := rfl
@[simp] theorem State.setStep_fuses (s : State) (n : Nat) : (s.setStep n).fuses = s.fuses := rfl
@[simp] theorem State.setStep_comstat (s : State) (n : Nat) : (s.setStep n).comstat = s.comstat := rfl
@[simp] theorem State.setStep_cre (s : State) (n : Nat) : (s.setStep n).cre = s.cre := rfl
@[simp] theorem State.setStep_randLate (s : State) (n : Nat) : (s.setStep n).randLate = s.randLate := rfl
@[simp] theorem State.setStep_movers (s : State) (n : Nat) : (s.setStep n).movers = s.movers := rfl
@[simp] theorem State.setStep_etus (s : State) (n : Nat) : (s.setStep n).etus = s.etus := rfl
@[simp] theorem State.setStep_lines (s : State) (n : Nat) : (s.setStep n).lines = s.lines := rfl
@[simp] theorem State.setStep_dies (s : State) (n : Nat) : (s.setStep n).dies = s.dies := rfl
@[simp] theorem State.setStep_module (s : State) (n : Nat) : (s.setStep n).module = s.module := rfl
@[simp] theorem State.setStep_dieGrant (s : State) (n : Nat) : (s.setStep n).dieGrant = s.dieGrant := rfl
@[simp] theorem State.setStep_moduleGrant (s : State) (n : Nat) : (s.setStep n).moduleGrant = s.moduleGrant := rfl
@[simp] theorem State.setStep_plru (s : State) (n : Nat) : (s.setStep n).plru = s.plru := rfl
@[simp] theorem State.setStep_reqq (s : State) (n : Nat) : (s.setStep n).reqq = s.reqq := rfl
@[simp] theorem State.setStep_snoopq (s : State) (n : Nat) : (s.setStep n).snoopq = s.snoopq := rfl
@[simp] theorem State.setStep_links (s : State) (n : Nat) : (s.setStep n).links = s.links := rfl
@[simp] theorem State.setStep_blocks (s : State) (n : Nat) : (s.setStep n).blocks = s.blocks := rfl
@[simp] theorem State.setStep_dram (s : State) (n : Nat) : (s.setStep n).dram = s.dram := rfl
@[simp] theorem State.setStep_ports (s : State) (n : Nat) : (s.setStep n).ports = s.ports := rfl
@[simp] theorem State.setStep_tether (s : State) (n : Nat) : (s.setStep n).tether = s.tether := rfl
@[simp] theorem State.setStep_snap (s : State) (n : Nat) : (s.setStep n).snap = s.snap := rfl
@[simp] theorem State.setStep_host (s : State) (n : Nat) : (s.setStep n).host = s.host := rfl
@[simp] theorem State.setStep_mgmt (s : State) (n : Nat) : (s.setStep n).mgmt = s.mgmt := rfl
@[simp] theorem State.setStep_cdpwr (s : State) (n : Nat) : (s.setStep n).cdpwr = s.cdpwr := rfl
@[simp] theorem State.setStep_mcheck (s : State) (n : Nat) : (s.setStep n).mcheck = s.mcheck := rfl
@[simp] theorem State.setStep_fatalLog (s : State) (n : Nat) : (s.setStep n).fatalLog = s.fatalLog := rfl
@[simp] theorem State.setStep_fatalNew (s : State) (n : Nat) : (s.setStep n).fatalNew = s.fatalNew := rfl

@[simp] theorem State.modSnap_pending (s : State) (f : Snap → Snap) : (s.modSnap f).pending = s.pending := rfl
@[simp] theorem State.modSnap_fresh (s : State) (f : Snap → Snap) : (s.modSnap f).fresh = s.fresh := rfl
@[simp] theorem State.modSnap_out (s : State) (f : Snap → Snap) : (s.modSnap f).out = s.out := rfl
@[simp] theorem State.modSnap_busOut (s : State) (f : Snap → Snap) : (s.modSnap f).busOut = s.busOut := rfl
@[simp] theorem State.modSnap_mem (s : State) (f : Snap → Snap) : (s.modSnap f).mem = s.mem := rfl
@[simp] theorem State.modSnap_dirty (s : State) (f : Snap → Snap) : (s.modSnap f).dirty = s.dirty := rfl
@[simp] theorem State.modSnap_badSram (s : State) (f : Snap → Snap) : (s.modSnap f).badSram = s.badSram := rfl
@[simp] theorem State.modSnap_cores (s : State) (f : Snap → Snap) : (s.modSnap f).cores = s.cores := rfl
@[simp] theorem State.modSnap_image (s : State) (f : Snap → Snap) : (s.modSnap f).image = s.image := rfl
@[simp] theorem State.modSnap_calib (s : State) (f : Snap → Snap) : (s.modSnap f).calib = s.calib := rfl
@[simp] theorem State.modSnap_calRun (s : State) (f : Snap → Snap) : (s.modSnap f).calRun = s.calRun := rfl
@[simp] theorem State.modSnap_arrays (s : State) (f : Snap → Snap) : (s.modSnap f).arrays = s.arrays := rfl
@[simp] theorem State.modSnap_quads (s : State) (f : Snap → Snap) : (s.modSnap f).quads = s.quads := rfl
@[simp] theorem State.modSnap_tiles (s : State) (f : Snap → Snap) : (s.modSnap f).tiles = s.tiles := rfl
@[simp] theorem State.modSnap_srseed (s : State) (f : Snap → Snap) : (s.modSnap f).srseed = s.srseed := rfl
@[simp] theorem State.modSnap_engines (s : State) (f : Snap → Snap) : (s.modSnap f).engines = s.engines := rfl
@[simp] theorem State.modSnap_engRings (s : State) (f : Snap → Snap) : (s.modSnap f).engRings = s.engRings := rfl
@[simp] theorem State.modSnap_rands (s : State) (f : Snap → Snap) : (s.modSnap f).rands = s.rands := rfl
@[simp] theorem State.modSnap_fuses (s : State) (f : Snap → Snap) : (s.modSnap f).fuses = s.fuses := rfl
@[simp] theorem State.modSnap_comstat (s : State) (f : Snap → Snap) : (s.modSnap f).comstat = s.comstat := rfl
@[simp] theorem State.modSnap_cre (s : State) (f : Snap → Snap) : (s.modSnap f).cre = s.cre := rfl
@[simp] theorem State.modSnap_randLate (s : State) (f : Snap → Snap) : (s.modSnap f).randLate = s.randLate := rfl
@[simp] theorem State.modSnap_movers (s : State) (f : Snap → Snap) : (s.modSnap f).movers = s.movers := rfl
@[simp] theorem State.modSnap_etus (s : State) (f : Snap → Snap) : (s.modSnap f).etus = s.etus := rfl
@[simp] theorem State.modSnap_lines (s : State) (f : Snap → Snap) : (s.modSnap f).lines = s.lines := rfl
@[simp] theorem State.modSnap_dies (s : State) (f : Snap → Snap) : (s.modSnap f).dies = s.dies := rfl
@[simp] theorem State.modSnap_module (s : State) (f : Snap → Snap) : (s.modSnap f).module = s.module := rfl
@[simp] theorem State.modSnap_dieGrant (s : State) (f : Snap → Snap) : (s.modSnap f).dieGrant = s.dieGrant := rfl
@[simp] theorem State.modSnap_moduleGrant (s : State) (f : Snap → Snap) : (s.modSnap f).moduleGrant = s.moduleGrant := rfl
@[simp] theorem State.modSnap_plru (s : State) (f : Snap → Snap) : (s.modSnap f).plru = s.plru := rfl
@[simp] theorem State.modSnap_reqq (s : State) (f : Snap → Snap) : (s.modSnap f).reqq = s.reqq := rfl
@[simp] theorem State.modSnap_snoopq (s : State) (f : Snap → Snap) : (s.modSnap f).snoopq = s.snoopq := rfl
@[simp] theorem State.modSnap_links (s : State) (f : Snap → Snap) : (s.modSnap f).links = s.links := rfl
@[simp] theorem State.modSnap_blocks (s : State) (f : Snap → Snap) : (s.modSnap f).blocks = s.blocks := rfl
@[simp] theorem State.modSnap_dram (s : State) (f : Snap → Snap) : (s.modSnap f).dram = s.dram := rfl
@[simp] theorem State.modSnap_ports (s : State) (f : Snap → Snap) : (s.modSnap f).ports = s.ports := rfl
@[simp] theorem State.modSnap_tether (s : State) (f : Snap → Snap) : (s.modSnap f).tether = s.tether := rfl
@[simp] theorem State.modSnap_host (s : State) (f : Snap → Snap) : (s.modSnap f).host = s.host := rfl
@[simp] theorem State.modSnap_mgmt (s : State) (f : Snap → Snap) : (s.modSnap f).mgmt = s.mgmt := rfl
@[simp] theorem State.modSnap_cdpwr (s : State) (f : Snap → Snap) : (s.modSnap f).cdpwr = s.cdpwr := rfl
@[simp] theorem State.modSnap_power (s : State) (f : Snap → Snap) : (s.modSnap f).power = s.power := rfl
@[simp] theorem State.modSnap_mcheck (s : State) (f : Snap → Snap) : (s.modSnap f).mcheck = s.mcheck := rfl
@[simp] theorem State.modSnap_fatalLog (s : State) (f : Snap → Snap) : (s.modSnap f).fatalLog = s.fatalLog := rfl
@[simp] theorem State.modSnap_fatalNew (s : State) (f : Snap → Snap) : (s.modSnap f).fatalNew = s.fatalNew := rfl

@[simp] theorem State.nextTseq_pending (s : State) : (s.nextTseq).pending = s.pending := rfl
@[simp] theorem State.nextTseq_fresh (s : State) : (s.nextTseq).fresh = s.fresh := rfl
@[simp] theorem State.nextTseq_out (s : State) : (s.nextTseq).out = s.out := rfl
@[simp] theorem State.nextTseq_busOut (s : State) : (s.nextTseq).busOut = s.busOut := rfl
@[simp] theorem State.nextTseq_mem (s : State) : (s.nextTseq).mem = s.mem := rfl
@[simp] theorem State.nextTseq_dirty (s : State) : (s.nextTseq).dirty = s.dirty := rfl
@[simp] theorem State.nextTseq_badSram (s : State) : (s.nextTseq).badSram = s.badSram := rfl
@[simp] theorem State.nextTseq_cores (s : State) : (s.nextTseq).cores = s.cores := rfl
@[simp] theorem State.nextTseq_image (s : State) : (s.nextTseq).image = s.image := rfl
@[simp] theorem State.nextTseq_calib (s : State) : (s.nextTseq).calib = s.calib := rfl
@[simp] theorem State.nextTseq_calRun (s : State) : (s.nextTseq).calRun = s.calRun := rfl
@[simp] theorem State.nextTseq_arrays (s : State) : (s.nextTseq).arrays = s.arrays := rfl
@[simp] theorem State.nextTseq_quads (s : State) : (s.nextTseq).quads = s.quads := rfl
@[simp] theorem State.nextTseq_tiles (s : State) : (s.nextTseq).tiles = s.tiles := rfl
@[simp] theorem State.nextTseq_srseed (s : State) : (s.nextTseq).srseed = s.srseed := rfl
@[simp] theorem State.nextTseq_engines (s : State) : (s.nextTseq).engines = s.engines := rfl
@[simp] theorem State.nextTseq_engRings (s : State) : (s.nextTseq).engRings = s.engRings := rfl
@[simp] theorem State.nextTseq_rands (s : State) : (s.nextTseq).rands = s.rands := rfl
@[simp] theorem State.nextTseq_fuses (s : State) : (s.nextTseq).fuses = s.fuses := rfl
@[simp] theorem State.nextTseq_comstat (s : State) : (s.nextTseq).comstat = s.comstat := rfl
@[simp] theorem State.nextTseq_cre (s : State) : (s.nextTseq).cre = s.cre := rfl
@[simp] theorem State.nextTseq_randLate (s : State) : (s.nextTseq).randLate = s.randLate := rfl
@[simp] theorem State.nextTseq_movers (s : State) : (s.nextTseq).movers = s.movers := rfl
@[simp] theorem State.nextTseq_etus (s : State) : (s.nextTseq).etus = s.etus := rfl
@[simp] theorem State.nextTseq_lines (s : State) : (s.nextTseq).lines = s.lines := rfl
@[simp] theorem State.nextTseq_dies (s : State) : (s.nextTseq).dies = s.dies := rfl
@[simp] theorem State.nextTseq_module (s : State) : (s.nextTseq).module = s.module := rfl
@[simp] theorem State.nextTseq_dieGrant (s : State) : (s.nextTseq).dieGrant = s.dieGrant := rfl
@[simp] theorem State.nextTseq_moduleGrant (s : State) : (s.nextTseq).moduleGrant = s.moduleGrant := rfl
@[simp] theorem State.nextTseq_plru (s : State) : (s.nextTseq).plru = s.plru := rfl
@[simp] theorem State.nextTseq_reqq (s : State) : (s.nextTseq).reqq = s.reqq := rfl
@[simp] theorem State.nextTseq_snoopq (s : State) : (s.nextTseq).snoopq = s.snoopq := rfl
@[simp] theorem State.nextTseq_links (s : State) : (s.nextTseq).links = s.links := rfl
@[simp] theorem State.nextTseq_blocks (s : State) : (s.nextTseq).blocks = s.blocks := rfl
@[simp] theorem State.nextTseq_dram (s : State) : (s.nextTseq).dram = s.dram := rfl
@[simp] theorem State.nextTseq_ports (s : State) : (s.nextTseq).ports = s.ports := rfl
@[simp] theorem State.nextTseq_snap (s : State) : (s.nextTseq).snap = s.snap := rfl
@[simp] theorem State.nextTseq_host (s : State) : (s.nextTseq).host = s.host := rfl
@[simp] theorem State.nextTseq_mgmt (s : State) : (s.nextTseq).mgmt = s.mgmt := rfl
@[simp] theorem State.nextTseq_cdpwr (s : State) : (s.nextTseq).cdpwr = s.cdpwr := rfl
@[simp] theorem State.nextTseq_power (s : State) : (s.nextTseq).power = s.power := rfl
@[simp] theorem State.nextTseq_mcheck (s : State) : (s.nextTseq).mcheck = s.mcheck := rfl
@[simp] theorem State.nextTseq_fatalLog (s : State) : (s.nextTseq).fatalLog = s.fatalLog := rfl
@[simp] theorem State.nextTseq_fatalNew (s : State) : (s.nextTseq).fatalNew = s.fatalNew := rfl

@[simp] theorem State.setCore_acc_quad (s : State) (c : CoreId) (k : Core) (p' : PartId) : (s.setCore c k).quad p' = s.quad p' := rfl
@[simp] theorem State.setCore_acc_engine (s : State) (c : CoreId) (k : Core) (e' : EngineId) : (s.setCore c k).engine e' = s.engine e' := rfl
@[simp] theorem State.setCore_acc_mover (s : State) (c : CoreId) (k : Core) (m' : MoverId) : (s.setCore c k).mover m' = s.mover m' := rfl
@[simp] theorem State.setCore_acc_etu (s : State) (c : CoreId) (k : Core) (e' : EtuId) : (s.setCore c k).etu e' = s.etu e' := rfl
@[simp] theorem State.setCore_acc_block (s : State) (c : CoreId) (k : Core) (b' : MemBlockId) : (s.setCore c k).block b' = s.block b' := rfl
@[simp] theorem State.setCore_acc_stack (s : State) (c : CoreId) (k : Core) (n' : Nat) : (s.setCore c k).stack n' = s.stack n' := rfl
@[simp] theorem State.setCore_acc_port (s : State) (c : CoreId) (k : Core) (p' : Fin 12) : (s.setCore c k).port p' = s.port p' := rfl
@[simp] theorem State.modCore_acc_quad (s : State) (c : CoreId) (f : Core → Core) (p' : PartId) : (s.modCore c f).quad p' = s.quad p' := rfl
@[simp] theorem State.modCore_acc_engine (s : State) (c : CoreId) (f : Core → Core) (e' : EngineId) : (s.modCore c f).engine e' = s.engine e' := rfl
@[simp] theorem State.modCore_acc_mover (s : State) (c : CoreId) (f : Core → Core) (m' : MoverId) : (s.modCore c f).mover m' = s.mover m' := rfl
@[simp] theorem State.modCore_acc_etu (s : State) (c : CoreId) (f : Core → Core) (e' : EtuId) : (s.modCore c f).etu e' = s.etu e' := rfl
@[simp] theorem State.modCore_acc_block (s : State) (c : CoreId) (f : Core → Core) (b' : MemBlockId) : (s.modCore c f).block b' = s.block b' := rfl
@[simp] theorem State.modCore_acc_stack (s : State) (c : CoreId) (f : Core → Core) (n' : Nat) : (s.modCore c f).stack n' = s.stack n' := rfl
@[simp] theorem State.modCore_acc_port (s : State) (c : CoreId) (f : Core → Core) (p' : Fin 12) : (s.modCore c f).port p' = s.port p' := rfl
@[simp] theorem State.setQuad_acc_core (s : State) (p : PartId) (q : Quad) (c' : CoreId) : (s.setQuad p q).core c' = s.core c' := rfl
@[simp] theorem State.setQuad_acc_engine (s : State) (p : PartId) (q : Quad) (e' : EngineId) : (s.setQuad p q).engine e' = s.engine e' := rfl
@[simp] theorem State.setQuad_acc_mover (s : State) (p : PartId) (q : Quad) (m' : MoverId) : (s.setQuad p q).mover m' = s.mover m' := rfl
@[simp] theorem State.setQuad_acc_etu (s : State) (p : PartId) (q : Quad) (e' : EtuId) : (s.setQuad p q).etu e' = s.etu e' := rfl
@[simp] theorem State.setQuad_acc_block (s : State) (p : PartId) (q : Quad) (b' : MemBlockId) : (s.setQuad p q).block b' = s.block b' := rfl
@[simp] theorem State.setQuad_acc_stack (s : State) (p : PartId) (q : Quad) (n' : Nat) : (s.setQuad p q).stack n' = s.stack n' := rfl
@[simp] theorem State.setQuad_acc_port (s : State) (p : PartId) (q : Quad) (p' : Fin 12) : (s.setQuad p q).port p' = s.port p' := rfl
@[simp] theorem State.setTile_acc_core (s : State) (t : TileId) (x : Tile) (c' : CoreId) : (s.setTile t x).core c' = s.core c' := rfl
@[simp] theorem State.setTile_acc_quad (s : State) (t : TileId) (x : Tile) (p' : PartId) : (s.setTile t x).quad p' = s.quad p' := rfl
@[simp] theorem State.setTile_acc_engine (s : State) (t : TileId) (x : Tile) (e' : EngineId) : (s.setTile t x).engine e' = s.engine e' := rfl
@[simp] theorem State.setTile_acc_mover (s : State) (t : TileId) (x : Tile) (m' : MoverId) : (s.setTile t x).mover m' = s.mover m' := rfl
@[simp] theorem State.setTile_acc_etu (s : State) (t : TileId) (x : Tile) (e' : EtuId) : (s.setTile t x).etu e' = s.etu e' := rfl
@[simp] theorem State.setTile_acc_block (s : State) (t : TileId) (x : Tile) (b' : MemBlockId) : (s.setTile t x).block b' = s.block b' := rfl
@[simp] theorem State.setTile_acc_stack (s : State) (t : TileId) (x : Tile) (n' : Nat) : (s.setTile t x).stack n' = s.stack n' := rfl
@[simp] theorem State.setTile_acc_port (s : State) (t : TileId) (x : Tile) (p' : Fin 12) : (s.setTile t x).port p' = s.port p' := rfl
@[simp] theorem State.setEngine_acc_core (s : State) (e : EngineId) (x : Engine) (c' : CoreId) : (s.setEngine e x).core c' = s.core c' := rfl
@[simp] theorem State.setEngine_acc_quad (s : State) (e : EngineId) (x : Engine) (p' : PartId) : (s.setEngine e x).quad p' = s.quad p' := rfl
@[simp] theorem State.setEngine_acc_mover (s : State) (e : EngineId) (x : Engine) (m' : MoverId) : (s.setEngine e x).mover m' = s.mover m' := rfl
@[simp] theorem State.setEngine_acc_etu (s : State) (e : EngineId) (x : Engine) (e' : EtuId) : (s.setEngine e x).etu e' = s.etu e' := rfl
@[simp] theorem State.setEngine_acc_block (s : State) (e : EngineId) (x : Engine) (b' : MemBlockId) : (s.setEngine e x).block b' = s.block b' := rfl
@[simp] theorem State.setEngine_acc_stack (s : State) (e : EngineId) (x : Engine) (n' : Nat) : (s.setEngine e x).stack n' = s.stack n' := rfl
@[simp] theorem State.setEngine_acc_port (s : State) (e : EngineId) (x : Engine) (p' : Fin 12) : (s.setEngine e x).port p' = s.port p' := rfl
@[simp] theorem State.setMover_acc_core (s : State) (m : MoverId) (x : Mover) (c' : CoreId) : (s.setMover m x).core c' = s.core c' := rfl
@[simp] theorem State.setMover_acc_quad (s : State) (m : MoverId) (x : Mover) (p' : PartId) : (s.setMover m x).quad p' = s.quad p' := rfl
@[simp] theorem State.setMover_acc_engine (s : State) (m : MoverId) (x : Mover) (e' : EngineId) : (s.setMover m x).engine e' = s.engine e' := rfl
@[simp] theorem State.setMover_acc_etu (s : State) (m : MoverId) (x : Mover) (e' : EtuId) : (s.setMover m x).etu e' = s.etu e' := rfl
@[simp] theorem State.setMover_acc_block (s : State) (m : MoverId) (x : Mover) (b' : MemBlockId) : (s.setMover m x).block b' = s.block b' := rfl
@[simp] theorem State.setMover_acc_stack (s : State) (m : MoverId) (x : Mover) (n' : Nat) : (s.setMover m x).stack n' = s.stack n' := rfl
@[simp] theorem State.setMover_acc_port (s : State) (m : MoverId) (x : Mover) (p' : Fin 12) : (s.setMover m x).port p' = s.port p' := rfl
@[simp] theorem State.setEtu_acc_core (s : State) (e : EtuId) (x : Etu) (c' : CoreId) : (s.setEtu e x).core c' = s.core c' := rfl
@[simp] theorem State.setEtu_acc_quad (s : State) (e : EtuId) (x : Etu) (p' : PartId) : (s.setEtu e x).quad p' = s.quad p' := rfl
@[simp] theorem State.setEtu_acc_engine (s : State) (e : EtuId) (x : Etu) (e' : EngineId) : (s.setEtu e x).engine e' = s.engine e' := rfl
@[simp] theorem State.setEtu_acc_mover (s : State) (e : EtuId) (x : Etu) (m' : MoverId) : (s.setEtu e x).mover m' = s.mover m' := rfl
@[simp] theorem State.setEtu_acc_block (s : State) (e : EtuId) (x : Etu) (b' : MemBlockId) : (s.setEtu e x).block b' = s.block b' := rfl
@[simp] theorem State.setEtu_acc_stack (s : State) (e : EtuId) (x : Etu) (n' : Nat) : (s.setEtu e x).stack n' = s.stack n' := rfl
@[simp] theorem State.setEtu_acc_port (s : State) (e : EtuId) (x : Etu) (p' : Fin 12) : (s.setEtu e x).port p' = s.port p' := rfl
@[simp] theorem State.setBlock_acc_core (s : State) (b : MemBlockId) (x : MemBlock) (c' : CoreId) : (s.setBlock b x).core c' = s.core c' := rfl
@[simp] theorem State.setBlock_acc_quad (s : State) (b : MemBlockId) (x : MemBlock) (p' : PartId) : (s.setBlock b x).quad p' = s.quad p' := rfl
@[simp] theorem State.setBlock_acc_engine (s : State) (b : MemBlockId) (x : MemBlock) (e' : EngineId) : (s.setBlock b x).engine e' = s.engine e' := rfl
@[simp] theorem State.setBlock_acc_mover (s : State) (b : MemBlockId) (x : MemBlock) (m' : MoverId) : (s.setBlock b x).mover m' = s.mover m' := rfl
@[simp] theorem State.setBlock_acc_etu (s : State) (b : MemBlockId) (x : MemBlock) (e' : EtuId) : (s.setBlock b x).etu e' = s.etu e' := rfl
@[simp] theorem State.setBlock_acc_stack (s : State) (b : MemBlockId) (x : MemBlock) (n' : Nat) : (s.setBlock b x).stack n' = s.stack n' := rfl
@[simp] theorem State.setBlock_acc_port (s : State) (b : MemBlockId) (x : MemBlock) (p' : Fin 12) : (s.setBlock b x).port p' = s.port p' := rfl
@[simp] theorem State.setStack_acc_core (s : State) (n : Nat) (x : StackState) (c' : CoreId) : (s.setStack n x).core c' = s.core c' := rfl
@[simp] theorem State.setStack_acc_quad (s : State) (n : Nat) (x : StackState) (p' : PartId) : (s.setStack n x).quad p' = s.quad p' := rfl
@[simp] theorem State.setStack_acc_engine (s : State) (n : Nat) (x : StackState) (e' : EngineId) : (s.setStack n x).engine e' = s.engine e' := rfl
@[simp] theorem State.setStack_acc_mover (s : State) (n : Nat) (x : StackState) (m' : MoverId) : (s.setStack n x).mover m' = s.mover m' := rfl
@[simp] theorem State.setStack_acc_etu (s : State) (n : Nat) (x : StackState) (e' : EtuId) : (s.setStack n x).etu e' = s.etu e' := rfl
@[simp] theorem State.setStack_acc_block (s : State) (n : Nat) (x : StackState) (b' : MemBlockId) : (s.setStack n x).block b' = s.block b' := rfl
@[simp] theorem State.setStack_acc_port (s : State) (n : Nat) (x : StackState) (p' : Fin 12) : (s.setStack n x).port p' = s.port p' := rfl
@[simp] theorem State.setPort_acc_core (s : State) (p : Fin 12) (x : Port) (c' : CoreId) : (s.setPort p x).core c' = s.core c' := rfl
@[simp] theorem State.setPort_acc_quad (s : State) (p : Fin 12) (x : Port) (p' : PartId) : (s.setPort p x).quad p' = s.quad p' := rfl
@[simp] theorem State.setPort_acc_engine (s : State) (p : Fin 12) (x : Port) (e' : EngineId) : (s.setPort p x).engine e' = s.engine e' := rfl
@[simp] theorem State.setPort_acc_mover (s : State) (p : Fin 12) (x : Port) (m' : MoverId) : (s.setPort p x).mover m' = s.mover m' := rfl
@[simp] theorem State.setPort_acc_etu (s : State) (p : Fin 12) (x : Port) (e' : EtuId) : (s.setPort p x).etu e' = s.etu e' := rfl
@[simp] theorem State.setPort_acc_block (s : State) (p : Fin 12) (x : Port) (b' : MemBlockId) : (s.setPort p x).block b' = s.block b' := rfl
@[simp] theorem State.setPort_acc_stack (s : State) (p : Fin 12) (x : Port) (n' : Nat) : (s.setPort p x).stack n' = s.stack n' := rfl
@[simp] theorem State.setCdPwr_acc_core (s : State) (d : Fin 4) (x : CdPwr) (c' : CoreId) : (s.setCdPwr d x).core c' = s.core c' := rfl
@[simp] theorem State.setCdPwr_acc_quad (s : State) (d : Fin 4) (x : CdPwr) (p' : PartId) : (s.setCdPwr d x).quad p' = s.quad p' := rfl
@[simp] theorem State.setCdPwr_acc_engine (s : State) (d : Fin 4) (x : CdPwr) (e' : EngineId) : (s.setCdPwr d x).engine e' = s.engine e' := rfl
@[simp] theorem State.setCdPwr_acc_mover (s : State) (d : Fin 4) (x : CdPwr) (m' : MoverId) : (s.setCdPwr d x).mover m' = s.mover m' := rfl
@[simp] theorem State.setCdPwr_acc_etu (s : State) (d : Fin 4) (x : CdPwr) (e' : EtuId) : (s.setCdPwr d x).etu e' = s.etu e' := rfl
@[simp] theorem State.setCdPwr_acc_block (s : State) (d : Fin 4) (x : CdPwr) (b' : MemBlockId) : (s.setCdPwr d x).block b' = s.block b' := rfl
@[simp] theorem State.setCdPwr_acc_stack (s : State) (d : Fin 4) (x : CdPwr) (n' : Nat) : (s.setCdPwr d x).stack n' = s.stack n' := rfl
@[simp] theorem State.setCdPwr_acc_port (s : State) (d : Fin 4) (x : CdPwr) (p' : Fin 12) : (s.setCdPwr d x).port p' = s.port p' := rfl
@[simp] theorem State.setMcq_acc_core (s : State) (n : Nat) (x : McQueue) (c' : CoreId) : (s.setMcq n x).core c' = s.core c' := rfl
@[simp] theorem State.setMcq_acc_quad (s : State) (n : Nat) (x : McQueue) (p' : PartId) : (s.setMcq n x).quad p' = s.quad p' := rfl
@[simp] theorem State.setMcq_acc_engine (s : State) (n : Nat) (x : McQueue) (e' : EngineId) : (s.setMcq n x).engine e' = s.engine e' := rfl
@[simp] theorem State.setMcq_acc_mover (s : State) (n : Nat) (x : McQueue) (m' : MoverId) : (s.setMcq n x).mover m' = s.mover m' := rfl
@[simp] theorem State.setMcq_acc_etu (s : State) (n : Nat) (x : McQueue) (e' : EtuId) : (s.setMcq n x).etu e' = s.etu e' := rfl
@[simp] theorem State.setMcq_acc_block (s : State) (n : Nat) (x : McQueue) (b' : MemBlockId) : (s.setMcq n x).block b' = s.block b' := rfl
@[simp] theorem State.setMcq_acc_stack (s : State) (n : Nat) (x : McQueue) (n' : Nat) : (s.setMcq n x).stack n' = s.stack n' := rfl
@[simp] theorem State.setMcq_acc_port (s : State) (n : Nat) (x : McQueue) (p' : Fin 12) : (s.setMcq n x).port p' = s.port p' := rfl
@[simp] theorem State.setLine_acc_core (s : State) (c : CacheId) (l : Nat) (x : CacheLine) (c' : CoreId) : (s.setLine c l x).core c' = s.core c' := rfl
@[simp] theorem State.setLine_acc_quad (s : State) (c : CacheId) (l : Nat) (x : CacheLine) (p' : PartId) : (s.setLine c l x).quad p' = s.quad p' := rfl
@[simp] theorem State.setLine_acc_engine (s : State) (c : CacheId) (l : Nat) (x : CacheLine) (e' : EngineId) : (s.setLine c l x).engine e' = s.engine e' := rfl
@[simp] theorem State.setLine_acc_mover (s : State) (c : CacheId) (l : Nat) (x : CacheLine) (m' : MoverId) : (s.setLine c l x).mover m' = s.mover m' := rfl
@[simp] theorem State.setLine_acc_etu (s : State) (c : CacheId) (l : Nat) (x : CacheLine) (e' : EtuId) : (s.setLine c l x).etu e' = s.etu e' := rfl
@[simp] theorem State.setLine_acc_block (s : State) (c : CacheId) (l : Nat) (x : CacheLine) (b' : MemBlockId) : (s.setLine c l x).block b' = s.block b' := rfl
@[simp] theorem State.setLine_acc_stack (s : State) (c : CacheId) (l : Nat) (x : CacheLine) (n' : Nat) : (s.setLine c l x).stack n' = s.stack n' := rfl
@[simp] theorem State.setLine_acc_port (s : State) (c : CacheId) (l : Nat) (x : CacheLine) (p' : Fin 12) : (s.setLine c l x).port p' = s.port p' := rfl
@[simp] theorem State.setCreState_acc_core (s : State) (d : Fin 4) (x : CreState) (c' : CoreId) : (s.setCreState d x).core c' = s.core c' := rfl
@[simp] theorem State.setCreState_acc_quad (s : State) (d : Fin 4) (x : CreState) (p' : PartId) : (s.setCreState d x).quad p' = s.quad p' := rfl
@[simp] theorem State.setCreState_acc_engine (s : State) (d : Fin 4) (x : CreState) (e' : EngineId) : (s.setCreState d x).engine e' = s.engine e' := rfl
@[simp] theorem State.setCreState_acc_mover (s : State) (d : Fin 4) (x : CreState) (m' : MoverId) : (s.setCreState d x).mover m' = s.mover m' := rfl
@[simp] theorem State.setCreState_acc_etu (s : State) (d : Fin 4) (x : CreState) (e' : EtuId) : (s.setCreState d x).etu e' = s.etu e' := rfl
@[simp] theorem State.setCreState_acc_block (s : State) (d : Fin 4) (x : CreState) (b' : MemBlockId) : (s.setCreState d x).block b' = s.block b' := rfl
@[simp] theorem State.setCreState_acc_stack (s : State) (d : Fin 4) (x : CreState) (n' : Nat) : (s.setCreState d x).stack n' = s.stack n' := rfl
@[simp] theorem State.setCreState_acc_port (s : State) (d : Fin 4) (x : CreState) (p' : Fin 12) : (s.setCreState d x).port p' = s.port p' := rfl
@[simp] theorem State.emit_acc_core (s : State) (o : Output) (c' : CoreId) : (s.emit o).core c' = s.core c' := rfl
@[simp] theorem State.emit_acc_quad (s : State) (o : Output) (p' : PartId) : (s.emit o).quad p' = s.quad p' := rfl
@[simp] theorem State.emit_acc_engine (s : State) (o : Output) (e' : EngineId) : (s.emit o).engine e' = s.engine e' := rfl
@[simp] theorem State.emit_acc_mover (s : State) (o : Output) (m' : MoverId) : (s.emit o).mover m' = s.mover m' := rfl
@[simp] theorem State.emit_acc_etu (s : State) (o : Output) (e' : EtuId) : (s.emit o).etu e' = s.etu e' := rfl
@[simp] theorem State.emit_acc_block (s : State) (o : Output) (b' : MemBlockId) : (s.emit o).block b' = s.block b' := rfl
@[simp] theorem State.emit_acc_stack (s : State) (o : Output) (n' : Nat) : (s.emit o).stack n' = s.stack n' := rfl
@[simp] theorem State.emit_acc_port (s : State) (o : Output) (p' : Fin 12) : (s.emit o).port p' = s.port p' := rfl
@[simp] theorem State.bump_acc_core (s : State) (c' : CoreId) : (s.bump).core c' = s.core c' := rfl
@[simp] theorem State.bump_acc_quad (s : State) (p' : PartId) : (s.bump).quad p' = s.quad p' := rfl
@[simp] theorem State.bump_acc_engine (s : State) (e' : EngineId) : (s.bump).engine e' = s.engine e' := rfl
@[simp] theorem State.bump_acc_mover (s : State) (m' : MoverId) : (s.bump).mover m' = s.mover m' := rfl
@[simp] theorem State.bump_acc_etu (s : State) (e' : EtuId) : (s.bump).etu e' = s.etu e' := rfl
@[simp] theorem State.bump_acc_block (s : State) (b' : MemBlockId) : (s.bump).block b' = s.block b' := rfl
@[simp] theorem State.bump_acc_stack (s : State) (n' : Nat) : (s.bump).stack n' = s.stack n' := rfl
@[simp] theorem State.bump_acc_port (s : State) (p' : Fin 12) : (s.bump).port p' = s.port p' := rfl
@[simp] theorem State.setStep_acc_core (s : State) (n : Nat) (c' : CoreId) : (s.setStep n).core c' = s.core c' := rfl
@[simp] theorem State.setStep_acc_quad (s : State) (n : Nat) (p' : PartId) : (s.setStep n).quad p' = s.quad p' := rfl
@[simp] theorem State.setStep_acc_engine (s : State) (n : Nat) (e' : EngineId) : (s.setStep n).engine e' = s.engine e' := rfl
@[simp] theorem State.setStep_acc_mover (s : State) (n : Nat) (m' : MoverId) : (s.setStep n).mover m' = s.mover m' := rfl
@[simp] theorem State.setStep_acc_etu (s : State) (n : Nat) (e' : EtuId) : (s.setStep n).etu e' = s.etu e' := rfl
@[simp] theorem State.setStep_acc_block (s : State) (n : Nat) (b' : MemBlockId) : (s.setStep n).block b' = s.block b' := rfl
@[simp] theorem State.setStep_acc_stack (s : State) (n : Nat) (n' : Nat) : (s.setStep n).stack n' = s.stack n' := rfl
@[simp] theorem State.setStep_acc_port (s : State) (n : Nat) (p' : Fin 12) : (s.setStep n).port p' = s.port p' := rfl
@[simp] theorem State.modSnap_acc_core (s : State) (f : Snap → Snap) (c' : CoreId) : (s.modSnap f).core c' = s.core c' := rfl
@[simp] theorem State.modSnap_acc_quad (s : State) (f : Snap → Snap) (p' : PartId) : (s.modSnap f).quad p' = s.quad p' := rfl
@[simp] theorem State.modSnap_acc_engine (s : State) (f : Snap → Snap) (e' : EngineId) : (s.modSnap f).engine e' = s.engine e' := rfl
@[simp] theorem State.modSnap_acc_mover (s : State) (f : Snap → Snap) (m' : MoverId) : (s.modSnap f).mover m' = s.mover m' := rfl
@[simp] theorem State.modSnap_acc_etu (s : State) (f : Snap → Snap) (e' : EtuId) : (s.modSnap f).etu e' = s.etu e' := rfl
@[simp] theorem State.modSnap_acc_block (s : State) (f : Snap → Snap) (b' : MemBlockId) : (s.modSnap f).block b' = s.block b' := rfl
@[simp] theorem State.modSnap_acc_stack (s : State) (f : Snap → Snap) (n' : Nat) : (s.modSnap f).stack n' = s.stack n' := rfl
@[simp] theorem State.modSnap_acc_port (s : State) (f : Snap → Snap) (p' : Fin 12) : (s.modSnap f).port p' = s.port p' := rfl
@[simp] theorem State.nextTseq_acc_core (s : State) (c' : CoreId) : (s.nextTseq).core c' = s.core c' := rfl
@[simp] theorem State.nextTseq_acc_quad (s : State) (p' : PartId) : (s.nextTseq).quad p' = s.quad p' := rfl
@[simp] theorem State.nextTseq_acc_engine (s : State) (e' : EngineId) : (s.nextTseq).engine e' = s.engine e' := rfl
@[simp] theorem State.nextTseq_acc_mover (s : State) (m' : MoverId) : (s.nextTseq).mover m' = s.mover m' := rfl
@[simp] theorem State.nextTseq_acc_etu (s : State) (e' : EtuId) : (s.nextTseq).etu e' = s.etu e' := rfl
@[simp] theorem State.nextTseq_acc_block (s : State) (b' : MemBlockId) : (s.nextTseq).block b' = s.block b' := rfl
@[simp] theorem State.nextTseq_acc_stack (s : State) (n' : Nat) : (s.nextTseq).stack n' = s.stack n' := rfl
@[simp] theorem State.nextTseq_acc_port (s : State) (p' : Fin 12) : (s.nextTseq).port p' = s.port p' := rfl

end Sys2Proof.Machine
end

