-- ==== Sys2Proof/Laws/Memory.lean ====
section
/-! SUPPORT. Every operation that writes physical memory keeps its canonical form, and what a write of memory leaves alone. -/

namespace Sys2Proof.Machine

/-! ## The cells -/

theorem memWrite_wf (m : List Host.Cell) (a : Nat) (b : Byte) (h : Memory.wf m = true) : Memory.wf (memWrite m a b) = true :=
  mwf_mset memDefault m a b h

theorem memWrites_wf (l : List Byte) : ∀ (m : List Host.Cell) (a : Nat), Memory.wf m = true → Memory.wf (memWrites m a l) = true := by
  induction l with
  | nil => exact fun _ _ h => h
  | cons b bs ih => exact fun m a h => ih _ _ (memWrite_wf m a b h)

/-- A byte outside the written ones reads as before. -/
theorem memWrites_other (l : List Byte) : ∀ (m : List Host.Cell) (a b : Nat), b < a ∨ a + l.length ≤ b →
    memRead (memWrites m a l) b = memRead m b := by
  induction l with
  | nil => exact fun _ _ _ _ => rfl
  | cons x xs ih =>
    intro m a b h
    simp only [List.length_cons] at h
    rw [memWrites, ih _ _ _ (by omega)]
    exact mget_mset_other memDefault m a b x (by omega)

/-- A written byte reads as what was written. -/
theorem memWrites_same (l : List Byte) : ∀ (m : List Host.Cell) (a i : Nat) (h : i < l.length), memRead (memWrites m a l) (a + i) = l[i] := by
  induction l with
  | nil => intro m a i h; simp at h
  | cons x xs ih =>
    intro m a i h
    cases i with
    | zero =>
      rw [memWrites, memWrites_other xs _ (a + 1) (a + 0) (Or.inl (by omega))]
      exact mget_mset_same memDefault m a x
    | succ i =>
      have := ih (memWrite m a x) (a + 1) i (by simpa using h)
      rw [memWrites, show a + (i + 1) = a + 1 + i by omega]
      simpa using this

/-! ## Folds -/

/-- What every step of a fold keeps, the fold keeps. -/
theorem foldl_keeps {α β : Type} (P : β → Prop) (f : β → α → β) (hf : ∀ b a, P b → P (f b a)) (l : List α) :
    ∀ b, P b → P (l.foldl f b) := by
  induction l with
  | nil => exact fun _ h => h
  | cons a l ih => exact fun b h => ih _ (hf b a h)

/-! ## What the coherence protocol does to memory

The messages and entries of the directories leave memory alone; data reach it through `cleanLine` and the copier alone. -/

/-- A fold of steps that leave memory alone leaves it alone. -/
theorem foldl_mem {α : Type} (f : State → α → State) (hf : ∀ s a, (f s a).mem = s.mem) (l : List α) (s : State) :
    (l.foldl f s).mem = s.mem :=
  foldl_keeps (fun t : State => t.mem = s.mem) f (fun b a h => (hf b a).trans h) l s rfl

@[simp] theorem State.modLine_mem (s : State) (c : CacheId) (l : Nat) (f : CacheLine → CacheLine) : (s.modLine c l f).mem = s.mem := rfl
@[simp] theorem State.dropReservations_mem (s : State) (l : Nat) (p : Nat → Bool) : (s.dropReservations l p).mem = s.mem := rfl
@[simp] theorem State.mapCopies_mem (s : State) (l : Nat) (p : Nat → Bool) (f : CacheLine → CacheLine) : (s.mapCopies l p f).mem = s.mem := rfl
@[simp] theorem State.invalidate_mem (s : State) (l : Nat) (p : Nat → Bool) : (s.invalidate l p).mem = s.mem := rfl
@[simp] theorem State.mergeDirty_mem (s : State) (l off : Nat) (b : List Byte) : (s.mergeDirty l off b).mem = s.mem := rfl
@[simp] theorem State.used_mem (s : State) (n l w : Nat) (a : Bool) : (s.used n l w a).mem = s.mem := rfl
@[simp] theorem State.sendSnoop_mem (s : State) (c : CacheId) (l : Nat) (m : Snoop) : (s.sendSnoop c l m).mem = s.mem := rfl
@[simp] theorem State.grant_mem (s : State) (c : CacheId) (l : Nat) (st : LineState) : (s.grant c l st).mem = s.mem := rfl
@[simp] theorem State.acked_mem (s : State) (c : CacheId) (l : Nat) : (s.acked c l).mem = s.mem := rfl

@[simp] theorem State.setDirEntry_mem (s : State) (d l : Nat) (e : DirEntry) : (s.setDirEntry d l e).mem = s.mem := by
  unfold State.setDirEntry; split <;> rfl
@[simp] theorem State.modDirEntry_mem (s : State) (d l : Nat) (f : DirEntry → DirEntry) : (s.modDirEntry d l f).mem = s.mem :=
  s.setDirEntry_mem d l _
@[simp] theorem State.answered_mem (s : State) (d l : Nat) : (s.answered d l).mem = s.mem := s.modDirEntry_mem d l _
@[simp] theorem State.closeEntry_mem (s : State) (d l : Nat) : (s.closeEntry d l).mem = s.mem := s.modDirEntry_mem d l _
@[simp] theorem State.touch_mem (s : State) (c : CacheId) (l : Nat) : (s.touch c l).mem = s.mem := by
  unfold State.touch; split <;> rfl
@[simp] theorem State.sendDown_mem (s : State) (n l : Nat) (m : Snoop) : (s.sendDown n l m).mem = s.mem := by
  unfold State.sendDown; split <;> rfl
@[simp] theorem State.startRecall_mem (s : State) (d l : Nat) : (s.startRecall d l).mem = s.mem := by
  unfold State.startRecall
  refine (foldl_mem _ ?_ _ _).trans (s.modDirEntry_mem d l _)
  intro t x; split <;> simp
@[simp] theorem State.leaveWay_mem (s : State) (n l : Nat) : (s.leaveWay n l).mem = s.mem := by
  unfold State.leaveWay; dsimp only; split <;> rfl
@[simp] theorem State.dirWay_mem (s : State) (l : Nat) (o : Bool) : (s.dirWay l o).2.mem = s.mem := by
  unfold State.dirWay; dsimp only; (repeat' split) <;> simp
@[simp] theorem State.noteSlot_mem (s : State) (d n : Nat) : (s.noteSlot d n).mem = s.mem := by unfold State.noteSlot; split <;> rfl
@[simp] theorem State.noteGrant_mem (s : State) (c : CacheId) : (s.noteGrant c).mem = s.mem := s.noteSlot_mem _ _
@[simp] theorem State.openEntry_mem (s : State) (d l : Nat) (k : OpenKind) (cs : List CacheId) : (s.openEntry d l k cs).mem = s.mem := by
  unfold State.openEntry
  rw [State.modDirEntry_mem]
  exact foldl_mem _ (fun t c => t.noteGrant_mem c) _ _
@[simp] theorem State.dropCopy_mem (s : State) (c : CacheId) (l : Nat) : (s.dropCopy c l).mem = s.mem := by
  unfold State.dropCopy; dsimp only; split <;> simp
@[simp] theorem State.restate_mem (s : State) (c : CacheId) (l : Nat) (st : LineState) : (s.restate c l st).mem = s.mem := by
  unfold State.restate; dsimp only; split <;> simp
@[simp] theorem State.answerRead_mem (s : State) (c : CacheId) (l : Nat) : (s.answerRead c l).mem = s.mem := rfl
@[simp] theorem State.wakeCd_mem (s : State) (d : Fin 4) : (s.wakeCd d).mem = s.mem := by unfold State.wakeCd; split <;> rfl
@[simp] theorem State.wakeFor_mem (s : State) (c : CacheId) : (s.wakeFor c).mem = s.mem := by unfold State.wakeFor; split <;> first | exact s.wakeCd_mem _ | rfl
@[simp] theorem State.tidy_mem (s : State) (l : Nat) : (s.tidy l).mem = s.mem := by unfold State.tidy; split <;> simp
@[simp] theorem State.asks_mem (s : State) (c : CacheId) (l : Nat) (own nt : Bool) : (s.asks c l own nt).mem = s.mem := by
  unfold State.asks; dsimp only; split <;> rfl
@[simp] theorem State.haziaAsk_mem (s : State) (k : Fin 64) (c : CacheId) (l : Nat) (own : Bool) : (s.haziaAsk k c l own).mem = s.mem := by
  unfold State.haziaAsk; dsimp only; (repeat' split) <;> simp
@[simp] theorem State.demoteF_mem (s : State) (d l : Nat) (c : CacheId) : (s.demoteF d l c).mem = s.mem :=
  foldl_mem _ (fun t (x : Nat × CacheLine) => State.restate_mem t (cacheOf x.1) l .s) _ _
@[simp] theorem State.dieRead_mem (s : State) (d l : Nat) (c : CacheId) : (s.dieRead d l c).mem = s.mem := by
  unfold State.dieRead; dsimp only; split <;> simp
@[simp] theorem State.startMaint_mem (s : State) (l k : Nat) (op : Maint) : (s.startMaint l k op).mem = s.mem := by
  unfold State.startMaint
  exact (foldl_mem _ (fun t x => t.sendDown_mem _ l _) _ _).trans (s.modDirEntry_mem 4 l _)
@[simp] theorem State.serveMissers_mem (s : State) (d l : Nat) : (s.serveMissers d l).mem = s.mem := by
  unfold State.serveMissers
  dsimp only
  split
  · simp
  · rw [State.modDirEntry_mem, State.openEntry_mem, foldl_mem (hf := fun t x => State.grant_mem t x l _), State.modDirEntry_mem]
@[simp] theorem State.countStall_mem (s : State) : s.countStall.mem = s.mem := rfl
@[simp] theorem State.demandCopy_mem (s : State) (l : Nat) : (s.demandCopy l).mem = s.mem := rfl

/-- A fold of steps that keep the form keeps it. -/
theorem foldl_wf {α : Type} (f : State → α → State) (hf : ∀ s a, Memory.wf s.mem = true → Memory.wf (f s a).mem = true)
    (l : List α) (s : State) (h : Memory.wf s.mem = true) : Memory.wf (l.foldl f s).mem = true :=
  foldl_keeps (fun t : State => Memory.wf t.mem = true) f hf l s h

@[simp] theorem State.dramWrite_wf (s : State) (l : Nat) (b : List Byte) (full : Bool) (h : Memory.wf s.mem = true) :
    Memory.wf (s.dramWrite l b full).mem = true := by
  have h1 : Memory.wf (memWrites s.mem (l * 128) b) = true := memWrites_wf _ _ _ h
  unfold State.dramWrite; split <;> exact h1

@[simp] theorem State.cleanLine_wf (s : State) (l : Nat) (h : Memory.wf s.mem = true) : Memory.wf (s.cleanLine l).mem = true := by
  unfold State.cleanLine
  dsimp only
  split
  · exact h
  · exact s.dramWrite_wf _ _ _ h

@[simp] theorem State.handUp_wf (s : State) (n l : Nat) (h : Memory.wf s.mem = true) : Memory.wf (s.handUp n l).mem = true := by
  unfold State.handUp; split <;> simp [h]

@[simp] theorem State.grantOwner_wf (s : State) (c : CacheId) (l : Nat) (h : Memory.wf s.mem = true) :
    Memory.wf (s.grantOwner c l).mem = true := by
  unfold State.grantOwner; dsimp only; split <;> simp [h]

@[simp] theorem State.supply_wf (s : State) (c : CacheId) (l : Nat) (dst : CacheId) (give : Bool) (h : Memory.wf s.mem = true) :
    Memory.wf (s.supply c l dst give).mem = true := by
  unfold State.supply; dsimp only; (repeat' split) <;> simp [h]

@[simp] theorem State.giveBack_wf (s : State) (c : CacheId) (l : Nat) (h : Memory.wf s.mem = true) :
    Memory.wf (s.giveBack c l).mem = true := by
  unfold State.giveBack; dsimp only; (repeat' split) <;> simp [h]

@[simp] theorem State.serveSnoop_wf (s : State) (c : CacheId) (l : Nat) (m : Snoop) (h : Memory.wf s.mem = true) :
    Memory.wf (s.serveSnoop c l m).mem = true := by
  unfold State.serveSnoop; (repeat' split) <;> (try dsimp only) <;> (repeat' split) <;> simp [h]

@[simp] theorem State.takeSnoop_wf (s : State) (c : CacheId) (l : Nat) (h : Memory.wf s.mem = true) :
    Memory.wf (s.takeSnoop c l).mem = true := by
  unfold State.takeSnoop; split <;> simp [h]

@[simp] theorem State.finishTask_wf (s : State) (d l : Nat) (m : Snoop) (h : Memory.wf s.mem = true) :
    Memory.wf (s.finishTask d l m).mem = true := by
  unfold State.finishTask; dsimp only; (repeat' split) <;> simp [h]

@[simp] theorem State.answerAbsent_wf (s : State) (d l : Nat) (m : Snoop) (h : Memory.wf s.mem = true) :
    Memory.wf (s.answerAbsent d l m).mem = true := by
  unfold State.answerAbsent; dsimp only; (repeat' split) <;> simp [h]

theorem State.startTask_wf (s t : State) (d l : Nat) (m : Snoop) (h : Memory.wf s.mem = true) (ht : s.startTask d l m = some t) :
    Memory.wf t.mem = true := by
  unfold State.startTask at ht
  dsimp only at ht
  split at ht
  · split at ht
    · cases ht
    · cases ht; simp [h]
  · cases ht
    refine foldl_wf (fun (s : State) (y : Nat × CacheLine) => s.sendSnoop (cacheOf y.1) l (m.inner d)) (fun _ _ h => h) _ _ ?_
    rw [State.modDirEntry_mem, State.noteSlot_mem]; exact h

@[simp] theorem State.takeOwnership_wf (s : State) (d l : Nat) (c : CacheId) (o : List (Nat × CacheLine)) (h : Memory.wf s.mem = true) :
    Memory.wf (s.takeOwnership d l c o).mem = true := by
  unfold State.takeOwnership
  dsimp only
  rw [State.openEntry_mem]
  have key : ∀ g : Nat × CacheLine → Snoop, (o.foldl (fun (t : State) y =>
      if d < 4 then t.sendSnoop (cacheOf y.1) l (g y) else t.sendDown y.1 l (g y))
        (s.touch (if d < 4 then dieL2 d else .l3) l)).mem = s.mem :=
    fun g => (foldl_mem _ (by intro t y; split <;> simp) o _).trans (s.touch_mem _ l)
  have hs := fun g => (congrArg Memory.wf (key g)).trans h
  by_cases hd : d < 4
  · simp only [hd, if_true] at hs ⊢
    (repeat' split) <;> exact hs _
  · simp only [hd, if_false] at hs ⊢
    (repeat' split) <;> first
      | exact hs _
      | exact State.grantOwner_wf _ _ _ (hs _)

theorem State.missL2_wf (s t : State) (d l : Nat) (tr : Transient) (r : DirReq) (h : Memory.wf s.mem = true)
    (ht : s.missL2 d l tr r = some t) : Memory.wf t.mem = true := by
  unfold State.missL2 at ht
  dsimp only at ht
  split at ht <;> cases ht
  simpa using h

theorem State.mergeMiss_wf (s t : State) (d l : Nat) (r : DirReq) (h : Memory.wf s.mem = true)
    (ht : s.mergeMiss d l r = some t) : Memory.wf t.mem = true := by
  unfold State.mergeMiss at ht
  (repeat' split at ht) <;> cases ht
  simpa using h

theorem State.serveDie_wf (s t : State) (d l : Nat) (r : DirReq) (h : Memory.wf s.mem = true)
    (ht : s.serveDie d l r = some t) : Memory.wf t.mem = true := by
  unfold State.serveDie at ht
  dsimp only at ht
  split at ht
  · cases ht
  split at ht
  all_goals try exact State.startTask_wf _ _ _ _ _ h ht
  all_goals (repeat' split at ht)
  all_goals first
    | exact State.missL2_wf _ _ _ _ _ _ h ht
    | exact State.mergeMiss_wf _ _ _ _ _ h ht
    | (cases ht; done)
    | (cases ht; simp [h])

@[simp] theorem State.supplyL3_wf (s : State) (l : Nat) (h : Memory.wf s.mem = true) : Memory.wf (s.supplyL3 l).mem = true := by
  unfold State.supplyL3; split <;> simp [h]

@[simp] theorem State.moduleRead_wf (s : State) (l : Nat) (c : CacheId) (h : Memory.wf s.mem = true) :
    Memory.wf (s.moduleRead l c).mem = true := by
  unfold State.moduleRead; dsimp only; split <;> simp [h]

@[simp] theorem State.vacate_wf (s : State) (n l : Nat) (h : Memory.wf s.mem = true) : Memory.wf (s.vacate n l).2.mem = true := by
  have hc := s.cleanLine_wf l h
  have hd : ∀ t : State, Memory.wf t.mem = true → ∀ o x, t.dirWay l o = x → Memory.wf x.2.mem = true := by
    intro t ht o x hx; rw [← hx, State.dirWay_mem]; exact ht
  unfold State.vacate
  dsimp only
  (repeat' split) <;> (try simp [h, hc])
  all_goals rename_i hx; exact hd _ (by simp [h, hc]) _ _ hx

@[simp] theorem State.place_wf (s : State) (n l : Nat) (cls : FillClass) (h : Memory.wf s.mem = true) :
    Memory.wf (s.place n l cls).2.mem = true := by
  unfold State.place
  dsimp only
  (repeat' split) <;> (try exact h)
  all_goals rename_i hx; exact (congrArg (fun x : Bool × State => Memory.wf x.2.mem) hx) ▸ s.vacate_wf n _ h

@[simp] theorem State.intoL3_wf (s : State) (l : Nat) (nt : Bool) (cls : FillClass) (h : Memory.wf s.mem = true) :
    Memory.wf (s.intoL3 l nt cls).mem = true := by
  have hp := s.place_wf 420 l cls h
  unfold State.intoL3
  dsimp only
  split
  · simp [h]
  · split
    all_goals rename_i hx; rw [hx] at hp; simp [hp]

theorem State.takeRegister_wf (s t : State) (l : Nat) (r : DirReq) (h : Memory.wf s.mem = true)
    (ht : s.takeRegister l r = some t) : Memory.wf t.mem = true := by
  unfold State.takeRegister at ht
  (repeat' split at ht) <;> cases ht <;> simp [h]

theorem State.mergeModule_wf (s t : State) (l : Nat) (h : Memory.wf s.mem = true) (ht : s.mergeModule l = some t) :
    Memory.wf t.mem = true := by
  have hf : ∀ (cs : List CacheId) (g : Option LineState),
      (cs.foldl (fun (s : State) a => s.modLine a l (fun x => { x with granted := g })) s).mem = s.mem :=
    fun cs g => foldl_mem (fun (s : State) a => s.modLine a l (fun x => { x with granted := g })) (fun _ _ => rfl) cs s
  unfold State.mergeModule at ht
  dsimp only at ht
  (repeat' split at ht) <;> cases ht <;> simp [hf, h]

theorem State.moduleOwn_wf (s t : State) (l : Nat) (r : DirReq) (c : CacheId) (h : Memory.wf s.mem = true)
    (ht : s.moduleOwn l r c = some t) : Memory.wf t.mem = true := by
  have hd : ∀ x, s.dirWay l true = x → Memory.wf x.2.mem = true := by
    intro x hx; rw [← hx, State.dirWay_mem]; exact h
  unfold State.moduleOwn at ht
  split at ht
  · cases ht
  · split at ht
    · rename_i hx
      obtain ⟨u, hu, rfl⟩ := Option.map_eq_some_iff.1 ht
      exact State.takeOwnership_wf _ _ _ _ _ (State.takeRegister_wf _ _ _ _ (hd _ hx) hu)
    · cases ht

theorem State.serveModule_wf (s t : State) (l : Nat) (r : DirReq) (h : Memory.wf s.mem = true)
    (ht : s.serveModule l r = some t) : Memory.wf t.mem = true := by
  have hd : ∀ x, s.dirWay l false = x → Memory.wf x.2.mem = true := by
    intro x hx; rw [← hx, State.dirWay_mem]; exact h
  unfold State.serveModule at ht
  dsimp only at ht
  split at ht
  case h_6 =>
    split at ht
    · rename_i hx
      obtain ⟨u, hu, rfl⟩ := Option.map_eq_some_iff.1 ht
      exact State.moduleRead_wf _ _ _ (State.takeRegister_wf _ _ _ _ (hd _ hx) hu)
    · cases ht
  case h_7 => exact State.moduleOwn_wf _ _ _ _ _ h ht
  case h_8 => exact State.moduleOwn_wf _ _ _ _ _ h ht
  all_goals (repeat' split at ht) <;> cases ht <;> simp [h]

theorem State.serveAt_wf (s t : State) (d l : Nat) (r : DirReq) (h : Memory.wf s.mem = true) (ht : s.serveAt d l r = some t) :
    Memory.wf t.mem = true := by
  unfold State.serveAt at ht
  split at ht
  · exact State.serveDie_wf s t d l r h ht
  · exact State.serveModule_wf s t l r h ht

@[simp] theorem State.maintain_wf (s : State) (op : Maint) (l : Nat) (h : Memory.wf s.mem = true) :
    Memory.wf (s.maintain op l).mem = true := by
  unfold State.maintain; split <;> simp [h]

@[simp] theorem State.finish_wf (s : State) (d l : Nat) (h : Memory.wf s.mem = true) : Memory.wf (s.finish d l).mem = true := by
  unfold State.finish
  dsimp only
  split
  · split <;> simp [h]
  · split
    · split <;> simp [h]
    · simp [h]

theorem State.serveFirst_wf (d l : Nat) (rest : List DirReq) : ∀ (s t : State) (front : List DirReq), Memory.wf s.mem = true →
    s.serveFirst d l front rest = some t → Memory.wf t.mem = true := by
  induction rest with
  | nil => intro s t front _ ht; cases ht
  | cons r rest ih =>
    intro s t front h ht
    unfold State.serveFirst at ht
    split at ht
    · rename_i s1 hs
      cases ht
      exact State.serveAt_wf _ _ d l r (by rw [State.modDirEntry_mem]; exact h) hs
    · exact ih s t _ h ht

theorem State.pumpAt_wf (s t : State) (l d : Nat) (h : Memory.wf s.mem = true) (ht : s.pumpAt l d = some t) :
    Memory.wf t.mem = true := by
  unfold State.pumpAt at ht
  dsimp only at ht
  (repeat' split at ht)
  · cases ht; exact s.finish_wf d l h
  · cases ht
  · exact State.mergeModule_wf s t l h ht
  · exact State.serveFirst_wf d l _ s t [] h ht

/-- Running what a step has made possible keeps the form. -/
@[simp] theorem State.pumpFor_wf (l fuel : Nat) : ∀ s : State, Memory.wf s.mem = true → Memory.wf (State.pumpFor l fuel s).mem = true := by
  induction fuel with
  | zero => exact fun _ h => h
  | succ n ih =>
    intro s h
    unfold State.pumpFor
    split
    · rename_i s1 hs
      obtain ⟨_, d, _, _, hd, _⟩ := List.findSome?_eq_some_iff.1 hs
      exact ih s1 (State.pumpAt_wf s s1 l d h hd)
    · exact h

@[simp] theorem State.pump_wf (s : State) (l : Nat) (h : Memory.wf s.mem = true) : Memory.wf (s.pump l).mem = true := by
  have h1 := State.pumpFor_wf l 64 s h
  unfold State.pump
  dsimp only
  split
  · exact foldl_wf _ (fun t k ht => State.pumpFor_wf k 64 t ht) _ _ h1
  · exact h1

@[simp] theorem State.request_wf (s : State) (d l : Nat) (r : DirReq) (h : Memory.wf s.mem = true) :
    Memory.wf (s.request d l r).mem = true := by
  unfold State.request
  dsimp only
  (repeat' split) <;> simp [h]

@[simp] theorem State.forwardSecond_mem (s : State) (d l : Nat) (b : List DirReq) : (s.forwardSecond d l b).mem = s.mem := by
  unfold State.forwardSecond
  dsimp only
  (repeat' split) <;> simp

@[simp] theorem State.install_wf (s : State) (c : CacheId) (l : Nat) (h : Memory.wf s.mem = true) :
    Memory.wf (s.install c l).mem = true := by
  have hp := s.place_wf (cacheKey c) l (s.line c l).cls h
  unfold State.install
  dsimp only
  (repeat' split) <;> simp_all

@[simp] theorem State.retryL3_wf (s : State) (l : Nat) (h : Memory.wf s.mem = true) : Memory.wf (s.retryL3 l).mem = true := by
  unfold State.retryL3
  dsimp only
  (repeat' split) <;> simp [h]

@[simp] theorem State.fillAck_wf (s : State) (c : CacheId) (l : Nat) (h : Memory.wf s.mem = true) :
    Memory.wf (s.fillAck c l).mem = true := by
  have h1 := s.install_wf c l h
  unfold State.fillAck
  dsimp only
  split
  · exact s.retryL3_wf l h
  · split
    · exact h1
    · refine State.pump_wf _ _ ?_
      (repeat' split) <;> simp [h1]

theorem State.deliverMaint_wf (d : Nat) (q : List (Nat × Option (Nat × Maint))) : ∀ s : State, Memory.wf s.mem = true →
    Memory.wf (State.deliverMaint d q s).mem = true := by
  induction q with
  | nil => exact fun _ h => h
  | cons x rest ih =>
    intro s h
    unfold State.deliverMaint
    split
    · rename_i hx; cases hx; exact ih _ (State.request_wf _ _ _ _ h)
    · exact h

theorem State.takeUp_mem (s t : State) (d l : Nat) (ht : s.takeUp d l = some t) : t.mem = s.mem := by
  unfold State.takeUp at ht
  (repeat' split at ht) <;> cases ht; rfl

@[simp] theorem State.requestFrom_wf (s : State) (c : CacheId) (l : Nat) (r : DirReq) (h : Memory.wf s.mem = true) :
    Memory.wf (s.requestFrom c l r).mem = true := by
  unfold State.requestFrom
  split
  · simp [h]
  · simp [h]
  · split
    · rename_i hs
      exact State.deliverMaint_wf _ _ _ (State.request_wf _ _ _ _ ((congrArg Memory.wf (State.takeUp_mem _ _ _ _ hs)).trans h))
    · exact h
  · exact State.request_wf _ _ _ _ h

theorem State.takeDown_mem (s : State) (d : Nat) (x : (Nat × Snoop) × State) (ht : s.takeDown d = some x) : x.2.mem = s.mem := by
  unfold State.takeDown at ht
  split at ht <;> cases ht; rfl

@[simp] theorem State.deliverDown_wf (s : State) (d : Nat) (h : Memory.wf s.mem = true) : Memory.wf (s.deliverDown d).mem = true := by
  unfold State.deliverDown; split
  · rename_i hs; exact State.request_wf _ _ _ _ ((congrArg Memory.wf (State.takeDown_mem _ _ _ hs)).trans h)
  · exact h

@[simp] theorem State.deliverUp_wf (s : State) (d : Nat) (h : Memory.wf s.mem = true) : Memory.wf (s.deliverUp d).mem = true := by
  unfold State.deliverUp
  split
  · dsimp only
    split
    · exact State.deliverMaint_wf _ _ _ (State.request_wf _ _ _ _ h)
    · exact State.deliverMaint_wf _ _ _ h
  · exact State.deliverMaint_wf _ _ _ h

@[simp] theorem State.endHold_wf (s : State) (c : CacheId) (l : Nat) (h : Memory.wf s.mem = true) :
    Memory.wf (s.endHold c l).mem = true :=
  State.pump_wf _ _ (foldl_wf _ (fun t _ ht => t.takeSnoop_wf c l ht) _ _ h)

theorem State.stirLine_wf (s t : State) (l : Nat) (w : Bool) (h : Memory.wf s.mem = true) (ht : s.stirLine l w = some t) :
    Memory.wf t.mem = true := by
  unfold State.stirLine at ht
  dsimp only at ht
  (repeat' split at ht) <;> cases ht <;> simp [h]

theorem State.stirSet_wf (s t : State) (n l : Nat) (h : Memory.wf s.mem = true) (ht : s.stirSet n l = some t) :
    Memory.wf t.mem = true := by
  obtain ⟨o, -, ho⟩ := List.exists_of_findSome?_eq_some ht
  split at ho
  · cases ho; simp [h]
  · exact State.stirLine_wf s _ _ _ h ho

theorem State.seekWay_wf (s t : State) (l : Nat) (h : Memory.wf s.mem = true) (ht : s.seekWay l = some t) :
    Memory.wf t.mem = true := by
  unfold State.seekWay at ht
  dsimp only at ht
  (repeat' split at ht) <;> cases ht <;> simp [h]

@[simp] theorem State.closeCycle_wf (s : State) (d l : Nat) (h : Memory.wf s.mem = true) : Memory.wf (s.closeCycle d l).mem = true := by
  unfold State.closeCycle
  dsimp only
  rw [State.forwardSecond_mem]
  refine foldl_wf _ ?_ _ _ (by simp [h])
  intro t r ht
  simp [ht]

theorem State.stir_wf (s t : State) (l : Nat) (w : Bool) (h : Memory.wf s.mem = true) (ht : s.stir l w = some t) :
    Memory.wf t.mem = true := by
  unfold State.stir at ht
  split at ht
  · split at ht
    · split at ht
      · cases ht; simp [h]
      · split at ht
        · cases hs : s.stirSet dirArray l with
          | some u => rw [hs] at ht; cases ht; exact State.stirSet_wf s _ _ _ h hs
          | none => rw [hs] at ht; exact State.seekWay_wf s t l h ht
        · cases ht
    · cases ht
  · rename_i s1 hs
    have h1 := State.stirLine_wf s s1 l w h hs
    (repeat' split at ht) <;> cases ht <;> try exact h1
    rename_i hf
    exact State.stirSet_wf s1 _ _ _ h1 hf

theorem State.settleFor_wf (l : Nat) (w : Bool) (fuel : Nat) : ∀ s : State, Memory.wf s.mem = true →
    Memory.wf (State.settleFor l w fuel s).mem = true := by
  induction fuel with
  | zero => exact fun _ h => h
  | succ n ih =>
    intro s h
    unfold State.settleFor
    split
    · rename_i s1 hs; exact ih s1 (State.stir_wf s s1 l w h hs)
    · exact h

@[simp] theorem State.settleLine_wf (s : State) (l : Nat) (w : Bool) (h : Memory.wf s.mem = true) :
    Memory.wf (s.settleLine l w).mem = true := State.settleFor_wf l w 256 s h

@[simp] theorem State.settled_wf (s : State) (l : Nat) (h : Memory.wf s.mem = true) : Memory.wf (s.settled l).mem = true := by
  unfold State.settled; split <;> simp [h]

/-! ## What a machine-check record does to memory: nothing -/

@[simp] theorem State.pendVector_mem (s : State) (c v : Nat) : (s.pendVector c v).mem = s.mem := rfl
@[simp] theorem State.hicDeliver_mem (s : State) (n : Nat) : (s.hicDeliver n).mem = s.mem := by
  unfold State.hicDeliver; dsimp only; split <;> rfl
@[simp] theorem State.hicSource_mem (s : State) (n : Nat) : (s.hicSource n).mem = s.mem := by
  unfold State.hicSource; split
  · exact State.hicDeliver_mem _ n
  · rfl
@[simp] theorem State.setIpend_mem (s : State) (d : Fin 4) (cl : Fin 24) (i : Nat) : (s.setIpend d cl i).mem = s.mem := by
  unfold State.setIpend; simp
@[simp] theorem State.sendOn_mem (s : State) (p b : List Nat) : (s.sendOn p b).mem = s.mem := by
  unfold State.sendOn
  refine foldl_mem _ ?_ _ _
  intro t x; dsimp only; split <;> rfl
@[simp] theorem State.floodStop_mem (s : State) (x : Option Nat) (o t c : Nat) : (s.floodStop x o t c).mem = s.mem := s.sendOn_mem _ _
@[simp] theorem State.sampleDryOf_mem (s : State) (q : Nat → Bool) : (s.sampleDryOf q).mem = s.mem := by
  unfold State.sampleDryOf
  split
  · rfl
  · refine foldl_mem _ ?_ _ _
    intro t x; dsimp only; split <;> rfl
@[simp] theorem State.sampleDry_mem (s : State) (p : PartId) : (s.sampleDry p).mem = s.mem := s.sampleDryOf_mem _
@[simp] theorem State.takeStop_mem (s : State) (o c : Nat) : (s.takeStop o c).mem = s.mem := s.sampleDryOf_mem _
@[simp] theorem State.stopUnits_mem (s : State) : s.stopUnits.mem = s.mem := rfl
@[simp] theorem State.stopHere_mem (s : State) (o c : Nat) : (s.stopHere o c).mem = s.mem := by
  unfold State.stopHere; dsimp only; split <;> simp
@[simp] theorem State.injectStop_mem (s : State) (c : Nat) : (s.injectStop c).mem = s.mem := by
  unfold State.injectStop; simp
@[simp] theorem State.faultPart_mem (s : State) (p : PartId) (c : Byte) : (s.faultPart p c).mem = s.mem := by
  unfold State.faultPart; dsimp only; split <;> simp
@[simp] theorem State.containCluster_mem (s : State) (d : Fin 4) (cl : Fin 24) : (s.containCluster d cl).mem = s.mem := by
  unfold State.containCluster
  simp only [State.setMover_mem, State.modCore_mem]
  refine foldl_mem _ ?_ _ _
  intro t i; split <;> simp
@[simp] theorem State.containDie_mem (s : State) (d : Fin 4) : (s.containDie d).mem = s.mem := by
  unfold State.containDie
  refine (foldl_mem _ ?_ _ _).trans ((foldl_mem _ ?_ _ _).trans (foldl_mem _ ?_ _ _)) <;> intro t i <;> simp
@[simp] theorem State.faultOwn_mem (s : State) (d : Fin 4) (r : McRec) : (s.faultOwn d r).mem = s.mem := by
  unfold State.faultOwn; dsimp only; (repeat' split) <;> simp
@[simp] theorem State.contain_mem (s : State) (r : McRec) : (s.contain r).mem = s.mem := by
  unfold State.contain; dsimp only; (repeat' split) <;> simp
@[simp] theorem State.logFatal_mem (s : State) (r : McRec) : (s.logFatal r).mem = s.mem := rfl
@[simp] theorem State.mcInterrupt_mem (s : State) (r : McRec) : (s.mcInterrupt r).mem = s.mem := by
  unfold State.mcInterrupt; (repeat' split) <;> simp
@[simp] theorem State.pcieDown_mem (s : State) : s.pcieDown.mem = s.mem := State.hicSource_mem _ _
@[simp] theorem State.driveFailstop_mem (s : State) : s.driveFailstop.mem = s.mem := by
  unfold State.driveFailstop; dsimp only; split <;> rfl
@[simp] theorem State.failStop_mem (s : State) (c : Byte) : (s.failStop c).mem = s.mem := by
  unfold State.failStop; dsimp only; (repeat' split) <;> simp
@[simp] theorem State.reportFatal_mem (s : State) (r : McRec) : (s.reportFatal r).mem = s.mem := by
  unfold State.reportFatal; dsimp only; (repeat' split) <;> simp
@[simp] theorem State.reportFull_mem (s : State) (r : McRec) : (s.reportFull r).mem = s.mem := by
  unfold State.reportFull; dsimp only; split <;> simp
@[simp] theorem State.sampleCounter_mem (s : State) : s.sampleCounter.mem = s.mem := rfl

/-- A report, of any severity, leaves memory alone. -/
@[simp] theorem State.report_mem (s : State) (r : McRec) : (s.report r).mem = s.mem := by
  unfold State.report; dsimp only; (repeat' split) <;> simp

/-! ## The writes of agents -/

@[simp] theorem State.carryPoison_wf (s : State) (b : MemBlockId) (t : Nat) (w : BitVec 32) (h : Memory.wf s.mem = true) :
    Memory.wf (s.carryPoison b t w).mem = true := by
  unfold State.carryPoison
  dsimp only
  (repeat' split) <;> simpa using h

@[simp] theorem State.copyTile_wf (s : State) (a b : Nat) (h : Memory.wf s.mem = true) : Memory.wf (s.copyTile a b).2.mem = true := by
  have h1 := foldl_wf (fun (t : State) i => t.dramWrite (b / 128 + i) (memReads s.mem (a + 128 * i) 128)
    (((countFrom 0 32).filter (fun i => !s.memPoison (a / 128 + i))).contains i)) (fun t i ht => t.dramWrite_wf _ _ _ ht) (countFrom 0 32) s h
  unfold State.copyTile
  dsimp only
  split
  · exact State.carryPoison_wf _ _ _ _ h1
  · exact h1

@[simp] theorem State.copyTiles_wf (s : State) (a b n : Nat) (h : Memory.wf s.mem = true) : Memory.wf (s.copyTiles a b n).2.mem = true :=
  foldl_keeps (fun x : Bool × State => Memory.wf x.2.mem = true)
    (fun (x : Bool × State) i => (x.1 || (x.2.copyTile (a + 4096 * i) (b + 4096 * i)).1, (x.2.copyTile (a + 4096 * i) (b + 4096 * i)).2))
    (fun x _ hx => x.2.copyTile_wf _ _ hx) (countFrom 0 n) (false, s) h

@[simp] theorem State.noteCopied_mem (s : State) (g : Nat) (p : Bool) : (s.noteCopied g p).mem = s.mem := rfl

@[simp] theorem State.copyHome_wf (s : State) (g a : Nat) (h : Memory.wf s.mem = true) : Memory.wf (s.copyHome g a).mem = true := by
  unfold State.copyHome
  split
  · exact h
  · dsimp only
    rw [State.noteCopied_mem]
    exact s.copyTiles_wf a _ 16 h

@[simp] theorem State.copyGranule_wf (s : State) (g : Nat) (h : Memory.wf s.mem = true) : Memory.wf (s.copyGranule g).mem = true := by
  unfold State.copyGranule
  split
  · exact s.copyHome_wf g _ h
  · exact h

/-! ## The stream of an epoch -/

@[simp] theorem State.transmit_mem (s : State) (p : Fin 12) (f : Flit) : (s.transmit p f).mem = s.mem := by
  unfold State.transmit; dsimp only; split <;> rfl
@[simp] theorem State.sendNull_mem (s : State) (p : Fin 12) (n v : Nat) : (s.sendNull p n v).mem = s.mem := by
  unfold State.sendNull; dsimp only; split <;> simp
@[simp] theorem State.leaveBuffer_mem (s : State) (f : Flit) : (s.leaveBuffer f).mem = s.mem := by
  unfold State.leaveBuffer; split
  · exact s.sendNull_mem _ _ _
  · rfl
@[simp] theorem State.pumpPort_mem (p : Fin 12) (n : Nat) : ∀ s : State, (s.pumpPort p n).mem = s.mem := by
  induction n with
  | zero => exact fun _ => rfl
  | succ n ih =>
    intro s
    unfold State.pumpPort
    dsimp only
    (repeat' split) <;> simp [ih]
@[simp] theorem State.sendFlit_mem (s : State) (p : Fin 12) (f : Flit) : (s.sendFlit p f).mem = s.mem := by
  unfold State.sendFlit; simp
@[simp] theorem State.routeFlit_mem (s : State) (p : Fin 12) (f : Flit) : (s.routeFlit p f).mem = s.mem := by
  unfold State.routeFlit; dsimp only; split <;> simp
@[simp] theorem State.sendBridle_mem (s : State) (a b c d e f : Nat) (l : Bool) (p : List Byte) :
    (s.sendBridle a b c d e f l p).mem = s.mem := by
  unfold State.sendBridle; dsimp only; split <;> simp
@[simp] theorem State.sendGranule_mem (s : State) (a b c d : Nat) : (s.sendGranule a b c d).mem = s.mem := by
  unfold State.sendGranule
  exact foldl_mem _ (fun t _ => t.sendBridle_mem _ _ _ _ _ _ _ _) _ _
@[simp] theorem State.streamPlaced_mem (s : State) : s.streamPlaced.mem = s.mem := by
  unfold State.streamPlaced
  refine (foldl_mem _ (fun t g => ?_) _ _).trans (State.modSnap_mem _ _)
  split
  · rw [State.modSnap_mem, State.sendGranule_mem]
  · rfl

/-! ## A way for a write, and copy-before-write -/

@[simp] theorem State.settleSet_wf (s : State) (n l : Nat) (h : Memory.wf s.mem = true) : Memory.wf (s.settleSet n l).mem = true :=
  foldl_wf _ (fun t _ ht => t.settled_wf _ ht) _ _ h

@[simp] theorem State.forceOut_wf (s : State) (n l : Nat) (ok : Nat → Bool) (h : Memory.wf s.mem = true) :
    Memory.wf (s.forceOut n l ok).2.mem = true := by
  unfold State.forceOut; dsimp only; split <;> simp [h]

@[simp] theorem State.roomFor_wf (n l : Nat) (cls : FillClass) (fuel : Nat) : ∀ s : State, Memory.wf s.mem = true →
    Memory.wf (State.roomFor n l cls fuel s).2.mem = true := by
  induction fuel with
  | zero => exact fun s h => s.forceOut_wf _ _ _ h
  | succ k ih =>
    intro s h
    have hp := s.place_wf n l cls h
    unfold State.roomFor
    split
    all_goals rename_i hx; rw [hx] at hp
    · exact hp
    · exact ih _ (State.settleSet_wf _ _ _ hp)

@[simp] theorem State.entryFor_wf (l fuel : Nat) : ∀ s : State, Memory.wf s.mem = true →
    Memory.wf (State.entryFor l fuel s).mem = true := by
  induction fuel with
  | zero => intro s h; unfold State.entryFor; dsimp only; rw [State.modDirEntry_mem]; exact s.forceOut_wf _ _ _ h
  | succ k ih =>
    intro s h
    have hd : ∀ x, s.dirWay l true = x → Memory.wf x.2.mem = true := by
      intro x hx; rw [← hx, State.dirWay_mem]; exact h
    unfold State.entryFor
    split
    all_goals rename_i hx
    · exact hd _ hx
    · exact ih _ (State.settleSet_wf _ _ _ (hd _ hx))

@[simp] theorem State.standM_wf (s : State) (c : CacheId) (cls : FillClass) (l : Nat) (p : Bool) (h : Memory.wf s.mem = true) :
    Memory.wf (s.standM c cls l p).mem = true := by
  unfold State.standM
  dsimp only
  split
  · simp [h]
  · simp only [State.used_mem, State.modLine_mem]
    exact State.roomFor_wf _ l cls 4 s h

@[simp] theorem State.writeLine_wf (s : State) (e : EtuId) (cls : FillClass) (l off : Nat) (b : List Byte)
    (h : Memory.wf s.mem = true) : Memory.wf (s.writeLine e cls l off b).mem = true := by
  have hs := State.standM_wf (((s.settled l).mergeDirty l off b).invalidate l (fun k => k = cacheKey (servingCache e)))
    (servingCache e) cls l (((s.settled l).mergeDirty l off b).dirtyLine l).poison (by simp [h])
  unfold State.writeLine
  dsimp only
  split
  · rw [State.modDirEntry_mem]; exact hs
  · exact State.entryFor_wf _ _ _ hs

@[simp] theorem State.flagManifest_wf (s : State) (a i : Nat) (h : Memory.wf s.mem = true) : Memory.wf (s.flagManifest a i).mem = true :=
  s.writeLine_wf _ _ _ _ _ h

@[simp] theorem State.resumeLine_wf (s : State) (l : Nat) (h : Memory.wf s.mem = true) : Memory.wf (s.resumeLine l).mem = true := by
  unfold State.resumeLine
  split <;> simp [h]

@[simp] theorem State.granuleCopied_wf (s : State) (g : Nat) (h : Memory.wf s.mem = true) : Memory.wf (s.granuleCopied g).mem = true := by
  have flag : ∀ (t : State) (p : Prop) [Decidable p] (a i : Nat), Memory.wf t.mem = true →
      Memory.wf (if p then t.flagManifest a i else t).mem = true := by
    intro t p _ a i ht
    split
    · exact t.flagManifest_wf a i ht
    · exact ht
  refine foldl_wf _ (fun t l ht => t.resumeLine_wf l ht) _ _ ?_
  rw [State.streamPlaced_mem, State.modSnap_mem]
  exact flag _ _ _ _ (flag _ _ _ _ (s.copyGranule_wf g h))

@[simp] theorem State.copyFirst_wf (s : State) (l : Nat) (h : Memory.wf s.mem = true) : Memory.wf (s.copyFirst l).mem = true := by
  unfold State.copyFirst
  split
  · exact foldl_wf _ (fun t g ht => t.granuleCopied_wf g ht) _ _ h
  · exact h

@[simp] theorem State.fetchOnce_wf (s : State) (c : CacheId) (l : Nat) (own nt : Bool) (h : Memory.wf s.mem = true) :
    Memory.wf (s.fetchOnce c l own nt).mem = true := by
  unfold State.fetchOnce
  dsimp only
  split <;> simp [h]

@[simp] theorem State.obtain_wf (s : State) (c : CacheId) (l : Nat) (own nt : Bool) (h : Memory.wf s.mem = true) :
    Memory.wf (s.obtain c l own nt).mem = true := by
  have h1 : Memory.wf (State.settled (if own then s.copyFirst l else s) l).mem = true := by
    apply State.settled_wf
    split <;> simp [h]
  have h2 : ∀ (t : State) (ls : List Nat), Memory.wf t.mem = true →
      Memory.wf ((ls.foldl (fun (s : State) k => s.settled k) t).settled l).mem = true :=
    fun t ls ht => State.settled_wf _ _ (foldl_wf _ (fun u k hu => u.settled_wf k hu) _ _ ht)
  unfold State.obtain
  dsimp only
  generalize State.settled (if own then s.copyFirst l else s) l = u at h1
  have h3 : Memory.wf (if (u.line c l).allows own = true then u else u.fetchOnce c l own nt).mem = true := by
    split
    · exact h1
    · exact u.fetchOnce_wf c l own nt h1
  generalize (if (u.line c l).allows own = true then u else u.fetchOnce c l own nt) = v at h3
  (repeat' split) <;> simp [h, h3, h2]

@[simp] theorem State.uncachedLine_wf (s : State) (e : EtuId) (cls : FillClass) (l off : Nat) (b : List Byte)
    (h : Memory.wf s.mem = true) : Memory.wf (s.uncachedLine e cls l off b).mem = true :=
  State.writeLine_wf _ _ _ _ _ _ (s.copyFirst_wf l h)

@[simp] theorem State.releaseLine_wf (s : State) (l : Nat) (h : Memory.wf s.mem = true) : Memory.wf (s.releaseLine l).mem = true :=
  foldl_wf _ (fun t _ ht => t.uncachedLine_wf _ _ _ _ _ ht) _ _ h

@[simp] theorem State.putLine_wf (s : State) (e : EtuId) (cls : FillClass) (l off : Nat) (b : List Byte) (h : Memory.wf s.mem = true) :
    Memory.wf (s.putLine e cls l off b).mem = true := by
  unfold State.putLine
  split
  · exact h
  · simp [h]

@[simp] theorem State.takeTurn_wf (s : State) (d l : Nat) (r : DirReq) (h : Memory.wf s.mem = true) :
    Memory.wf (s.takeTurn d l r).mem = true := by
  unfold State.takeTurn
  split
  · simp [h]
  · exact (congrArg Memory.wf (State.touch_mem _ _ _)).trans (by simpa using h)
  · exact s.request_wf d l r h

@[simp] theorem State.arrive_wf (s : State) (d l : Nat) (r : DirReq) (more : Bool) (h : Memory.wf s.mem = true) :
    Memory.wf (s.arrive d l r more).mem = true := by
  unfold State.arrive
  dsimp only
  split
  · simp [h]
  · rw [State.forwardSecond_mem]
    exact foldl_wf _ (fun t r ht => t.takeTurn_wf d l r ht) _ _ (by simp [h])

@[simp] theorem State.sramWrite_wf (s : State) (a : Nat) (b : List Byte) (h : Memory.wf s.mem = true) :
    Memory.wf (s.sramWrite a b).mem = true := memWrites_wf _ _ _ h

@[simp] theorem State.writeMem_wf (s : State) (e : EtuId) (cls : FillClass) (a : Nat) (b : List Byte) (h : Memory.wf s.mem = true) :
    Memory.wf (s.writeMem e cls a b).mem = true := by
  unfold State.writeMem
  split
  · simp [h]
  · exact foldl_wf _ (fun t x ht => t.putLine_wf e cls _ _ _ ht) _ _ h

@[simp] theorem State.cachedLine_wf (s : State) (e : EtuId) (c : CacheId) (nt : Bool) (l off : Nat) (b : List Byte)
    (h : Memory.wf s.mem = true) : Memory.wf (s.cachedLine e c nt l off b).mem = true := by
  unfold State.cachedLine
  dsimp only
  split <;> simp [h]

@[simp] theorem State.writeVia_wf (s : State) (e : EtuId) (v : Via) (a : Nat) (b : List Byte) (h : Memory.wf s.mem = true) :
    Memory.wf (s.writeVia e v a b).mem = true := by
  unfold State.writeVia
  split
  · simp [h]
  · split
    · simp [h]
    · refine foldl_wf _ (fun t x ht => ?_) _ _ h
      split <;> simp [ht]

@[simp] theorem State.cleanTile_wf (s : State) (a : Nat) (h : Memory.wf s.mem = true) : Memory.wf (s.cleanTile a).mem = true := by
  refine foldl_wf _ (fun t l ht => ?_) _ _ h
  split <;> simp [ht]

/-! ## The other operations on memory -/

@[simp] theorem State.zeroSram_wf (s : State) (h : Memory.wf s.mem = true) : Memory.wf s.zeroSram.mem = true := mwf_filter memDefault _ _ h

@[simp] theorem State.bist_wf (s : State) (t : MemSensor) (h : Memory.wf s.mem = true) : Memory.wf (s.bist t).mem = true := by
  unfold State.bist
  exact foldl_keeps (fun m => Memory.wf m = true) _ (fun m i hm => memWrites_wf _ _ _ hm) _ _ h

@[simp] theorem State.resealTile_wf (s : State) (b : MemBlockId) (t : Nat) (h : Memory.wf s.mem = true) :
    Memory.wf (s.resealTile b t).mem = true := by
  unfold State.resealTile
  dsimp only
  split
  · exact h
  · refine foldl_wf _ (fun u l hu => ?_) (countFrom 0 32) s h
    split
    · exact hu
    · exact memWrites_wf _ _ _ hu

/-- What the losses of power leave of memory: nothing listed. -/
theorem State.alwaysOn_mem (s : State) : s.alwaysOn.mem = [] := rfl
theorem State.unpowered_mem (s : State) : s.unpowered.mem = [] := rfl
theorem State.powerDown_mem (s : State) (all : Bool) : (s.powerDown all).mem = [] := rfl

/-! ## The power-on state -/

theorem State.reset_memOk : State.reset.MemOk := rfl

theorem State.reset_core (c : CoreId) : State.reset.core c = Core.reset := rfl

end Sys2Proof.Machine
end

