-- ==== Sys2Proof/WellFormed.lean ====
section
/-! DEFINITION. Which commands can be sent at all: operands that the table's fields can hold and that belong together. A command
that is ill-formed here has no encoding and no sender; what the hardware itself refuses is in the meanings. -/

namespace Sys2Proof

/-- Why a command is ill-formed. -/
inductive Ill where
  /-- an immediate that its field, with the prefixes given, cannot hold (07 R182, R183). -/
  | immediate
  /-- a list of bytes or operands of a length that the command does not carry. -/
  | length
  /-- a number outside its field or its space. -/
  | range
  /-- an operand that names a unit of another kind, or of another die, than the one that acts. -/
  | unit
deriving DecidableEq, Repr

/-- One check: the reason where it fails. -/
def check (p : Prop) [Decidable p] (r : Ill) : Option Ill := if p then none else some r

/-- The first reason of several checks. -/
def allOf : List (Option Ill) → Option Ill
  | [] => none
  | some r :: _ => some r
  | none :: l => allOf l

/-- An extendable immediate of base size 2 fits the size that the prefixes give it (07 R183). -/
def checkImm (p : Pfx) (i : Word) : Option Ill :=
  match p.ext with
  | .none => check (i.toNat < 2 ^ 16) .immediate
  | .bytes4 => check (i.toNat < 2 ^ 32) .immediate
  | .bytes8 => none

/-- The source of `ADDA` and `MOVA`. -/
def checkX (p : Pfx) : XImm → Option Ill
  | .imm i => checkImm p i
  | .reg _ => none

/-- The count of `LOOP`. -/
def checkLoop (p : Pfx) : LoopCount → Option Ill
  | .imm i => checkImm p i
  | .reg _ => none

/-- The ETU of a requester (12 R302). -/
def Requester.etu : Requester → EtuId
  | .feeder p _ => .cd p.cd
  | .drain p _ => .cd p.cd
  | .sequencer d _ => .cd d
  | .mover (.cluster d _ _) _ => .cd d
  | .mover (.bulk d _) _ => .cd d
  | .mover (.host _) _ => .hd
  | .engine e _ => .cd e.cd

/-- The fields of a management datagram hold what they are given: 64-bit `SID`, `MSEQ` and `MECHO`, at most 1,400 bytes of payload,
a 32-byte tag (17 R414). -/
def checkReq (rq : VmpReq) : Option Ill :=
  allOf [check (rq.sid < 2 ^ 64 ∧ rq.mseq < 2 ^ 64 ∧ rq.echo < 2 ^ 64) .range,
    check (rq.payload.length ≤ 1400 ∧ rq.tag.length = 32) .length]

/-- Why a command is ill-formed; none where it is well-formed. -/
def Instr.ill (i : Instr) : Option Ill :=
  match i with
  | .powerOn => none
  | .powerLoss => none
  | .inputVoltageSample _ _ => none
  | .mrstN => none
  | .powerWindow _ => none
  | .cdThermalSample _ _ => none
  | .stackThermalSample _ _ => none
  | .pstepComplete _ => none
  | .cdIdleEntry _ => none
  | .refClockCheck _ _ => none
  | .startUpStep1 => none
  | .startUpStep2 _ => none
  | .startUpStep3 _ => none
  | .startUpStep4 _ => none
  | .activation => none
  | .moduleReset rq kind => allOf [check (kind ≠ 2) .unit, checkReq rq]
  | .hostReset rq => checkReq rq
  | .failStopPowerDown => none
  | .loadWindowWrite offset data => check (offset + data.length ≤ 0x400000) .range
  | .sictlValidate => none
  | .imageValidationComplete => none
  | .sictlArm => none
  | .sictlDisarm => none
  | .sictlClear => none
  | .flipQuiescent => none
  | .flipApplyDone => none
  | .flipAbandonTimeout => none
  | .calWrite rq _ _ _ data => allOf [check (data.length ≤ 1344) .length, checkReq rq]
  | .acmd _ _ _ _ => none
  | .qpostWrite _ _ => none
  | .qpostFetchComplete _ => none
  | .loadb _ _ => none
  | .mxa _ _ => none
  | .mxz _ _ => none
  | .drain _ _ => none
  | .tileclr _ => none
  | .fence _ => none
  | .commandRetire _ _ => none
  | .qctlRecover _ => none
  | .qcplbaseWrite _ _ => none
  | .tctlClrflags _ => none
  | .nop _ _ => none
  | .halt _ _ => none
  | .mode _ _ _ => none
  | .rte _ _ => none
  | .ifence _ _ => none
  | .mfence _ _ => none
  | .mfc _ _ _ _ => none
  | .mtc _ _ _ _ => none
  | .mfb _ _ _ _ => none
  | .mtb _ _ _ _ => none
  | .trap _ _ _ => none
  | .wait _ _ => none
  | .waitWake _ => none
  | .interruptAccept _ => none
  | .l1dFillComplete _ => none
  | .storeBufferDrain _ => none
  | .loop _ p _ n _ => checkLoop p n
  | .br _ _ _ _ => none
  | .call _ _ _ _ => none
  | .callr _ _ _ _ => none
  | .jmp _ _ _ _ => none
  | .ret _ _ _ => none
  | .bz _ _ _ _ _ => none
  | .bnz _ _ _ _ _ => none
  | .beq _ _ _ _ _ _ => none
  | .bne _ _ _ _ _ _ => none
  | .blt _ _ _ _ _ _ => none
  | .bge _ _ _ _ _ _ => none
  | .bltu _ _ _ _ _ _ => none
  | .bgeu _ _ _ _ _ _ => none
  | .beqa _ _ _ _ _ _ => none
  | .bltua _ _ _ _ _ _ => none
  | .adda _ p _ _ src => checkX p src
  | .suba _ _ _ _ _ => none
  | .shla _ _ _ _ _ => none
  | .shra _ _ _ _ _ => none
  | .cmpeqa _ _ _ _ _ => none
  | .cmpltua _ _ _ _ _ => none
  | .mova _ p _ src => checkX p src
  | .movda _ _ _ _ => none
  | .lea _ _ _ _ => none
  | .add _ _ _ _ _ => none
  | .sub _ _ _ _ _ => none
  | .addi _ p _ _ i => checkImm p i
  | .mul _ _ _ _ _ => none
  | .mulh _ _ _ _ _ => none
  | .mulhu _ _ _ _ _ => none
  | .div _ _ _ _ _ => none
  | .divu _ _ _ _ _ => none
  | .rem _ _ _ _ _ => none
  | .remu _ _ _ _ _ => none
  | .and _ _ _ _ _ => none
  | .or _ _ _ _ _ => none
  | .xor _ _ _ _ _ => none
  | .andi _ p _ _ i => checkImm p i
  | .ori _ p _ _ i => checkImm p i
  | .xori _ p _ _ i => checkImm p i
  | .shl _ _ _ _ _ => none
  | .shr _ _ _ _ _ => none
  | .sar _ _ _ _ _ => none
  | .shli _ _ _ _ _ => none
  | .shri _ _ _ _ _ => none
  | .sari _ _ _ _ _ => none
  | .cmpeq _ _ _ _ _ => none
  | .cmplt _ _ _ _ _ => none
  | .cmpltu _ _ _ _ _ => none
  | .min _ _ _ _ _ => none
  | .max _ _ _ _ _ => none
  | .mov _ _ _ _ => none
  | .movi _ p _ i => checkImm p i
  | .ext _ _ _ _ _ => none
  | .clz _ _ _ _ => none
  | .popc _ _ _ _ => none
  | .fadd _ _ _ _ _ => none
  | .fsub _ _ _ _ _ => none
  | .fmul _ _ _ _ _ => none
  | .fma _ _ _ _ _ _ => none
  | .fdiv _ _ _ _ _ => none
  | .fsqrt _ _ _ _ => none
  | .fmin _ _ _ _ _ => none
  | .fmax _ _ _ _ _ => none
  | .fcmpeq _ _ _ _ _ => none
  | .fcmplt _ _ _ _ _ => none
  | .fcmple _ _ _ _ _ => none
  | .fcvt _ _ _ _ _ => none
  | .fabs _ _ _ _ => none
  | .fneg _ _ _ _ => none
  | .ld _ _ _ _ _ => none
  | .lds _ _ _ _ _ => none
  | .st _ _ _ _ _ => none
  | .lr _ _ _ _ _ => none
  | .sc _ _ _ _ _ _ => none
  | .tas _ _ _ _ => none
  | .vadd _ _ _ _ _ => none
  | .vsub _ _ _ _ _ => none
  | .vmul _ _ _ _ _ => none
  | .vfms _ _ _ _ _ _ => none
  | .vfma _ _ _ _ _ _ => none
  | .vdiv _ _ _ _ _ => none
  | .vsqrt _ _ _ _ => none
  | .vmin _ _ _ _ _ => none
  | .vmax _ _ _ _ _ => none
  | .vand _ _ _ _ _ => none
  | .vor _ _ _ _ _ => none
  | .vxor _ _ _ _ _ => none
  | .vshl _ _ _ _ _ => none
  | .vshr _ _ _ _ _ => none
  | .vsar _ _ _ _ _ => none
  | .vbcst _ p _ i => checkImm p i
  | .vaddi _ p _ _ i => checkImm p i
  | .vmuli _ p _ _ i => checkImm p i
  | .vmaxi _ p _ _ i => checkImm p i
  | .vmini _ p _ _ i => checkImm p i
  | .vcmpeq _ _ _ _ _ => none
  | .vcmplt _ _ _ _ _ => none
  | .vcmple _ _ _ _ _ => none
  | .vsel _ _ _ _ _ _ => none
  | .vmov _ _ _ _ => none
  | .vld _ _ _ _ => none
  | .vst _ _ _ _ => none
  | .pand _ _ _ _ _ => none
  | .por _ _ _ _ _ => none
  | .pxor _ _ _ _ _ => none
  | .pnot _ _ _ _ => none
  | .pset _ _ _ => none
  | .pclr _ _ _ => none
  | .plen _ _ _ _ => none
  | .pcnt _ _ _ _ => none
  | .vredsum _ _ _ _ => none
  | .vredmax _ _ _ _ => none
  | .vredmin _ _ _ _ => none
  | .vcvt _ _ _ _ _ => none
  | .vperm _ _ _ _ _ => none
  | .vslideup _ _ _ _ _ => none
  | .vslidedn _ _ _ _ _ => none
  | .vaddT _ _ _ _ _ => none
  | .vsubT _ _ _ _ _ => none
  | .vmulT _ _ _ _ _ => none
  | .vmaxT _ _ _ _ _ => none
  | .vminT _ _ _ _ _ => none
  | .vfmaT _ _ _ _ _ _ => none
  | .vcvtT _ _ _ _ => none
  | .vscaleT _ p _ _ i => checkImm p i
  | .vfmaiT _ p _ _ _ i => checkImm p i
  | .vcopyT _ _ _ _ => none
  | .drainInstruction _ _ _ _ _ => none
  | .tileRd _ _ _ _ _ => none
  | .tileWr _ _ _ _ _ => none
  | .clean _ _ _ => none
  | .inval _ _ _ => none
  | .cleaninval _ _ _ => none
  | .prefetch _ _ _ => none
  | .bswap _ _ _ _ => none
  | .rol _ _ _ _ _ => none
  | .ror _ _ _ _ _ => none
  | .roli _ _ _ _ _ => none
  | .bext _ _ _ _ _ => none
  | .bdep _ _ _ _ _ => none
  | .customerInstruction _ _ _ ops _ => check (ops.length ≤ 4) .length
  | .breakI _ _ => none
  | .seqdbRing _ _ => none
  | .seqrunRelease _ _ => none
  | .seqrunHaltreq _ _ => none
  | .sequencerHalt _ _ => none
  | .seqrunReset _ _ => none
  | .epostWrite _ _ _ _ => none
  | .epostxWrite _ _ _ => none
  | .engineWordFetchComplete _ => none
  | .func e _ => check (e.kind = .txe) .unit
  | .sort e _ => check (e.kind = .sel) .unit
  | .topk e _ => check (e.kind = .sel) .unit
  | .gather e _ => check (e.kind = .gse) .unit
  | .scatter e _ => check (e.kind = .gse) .unit
  | .scatteradd e _ => check (e.kind = .gse) .unit
  | .setstream e _ => check (e.kind = .rand) .unit
  | .getstream e _ => check (e.kind = .rand) .unit
  | .freestream e _ => check (e.kind = .rand) .unit
  | .fill e _ => check (e.kind = .rand) .unit
  | .combine e _ => check (e.kind = .cre) .unit
  | .collsend e _ => check (e.kind = .cre) .unit
  | .collrecv e _ => check (e.kind = .cre) .unit
  | .collectiveTimeout e => check (e.kind = .cre) .unit
  | .transpose e _ => check (e.kind = .tre) .unit
  | .compress e _ => check (e.kind = .lze) .unit
  | .decompress e _ => check (e.kind = .lze) .unit
  | .engineCommandRetire _ => none
  | .ectlRecover _ => none
  | .ecplbaseWrite _ _ _ => none
  | .randCapture _ => none
  | .scrub _ store offset _ => check (offset < match store with | none => 0x4000000 | some _ => 0x800000) .range
  | .mvctlKick _ => none
  | .mvctlResume _ => none
  | .mvctlAbort _ => none
  | .mvctlReset _ => none
  | .moverCopy _ => none
  | .moverConvert _ => none
  | .moverCompress _ => none
  | .moverDecompress _ => none
  | .translation e _ _ _ req => check (req.etu = e) .unit
  | .translationPrefetch _ _ => none
  | .faultBatchTimer _ => none
  | .fbdone _ _ => none
  | .withdraw _ _ => none
  | .withdrawAck e req => check (req.etu = e) .unit
  | .withdrawTimeout _ => none
  | .readRequest _ line _ _ => check (line < 2 ^ 45) .range
  | .ownershipRequest _ line _ => check (line < 2 ^ 45) .range
  | .upgradeRequest _ line _ => check (line < 2 ^ 45) .range
  | .writeback _ line _ => check (line < 2 ^ 45) .range
  | .cleanEvictionNotice _ line _ => check (line < 2 ^ 45) .range
  | .snoop _ line _ => check (line < 2 ^ 45) .range
  | .fillAck _ line => check (line < 2 ^ 45) .range
  | .uncachedRead _ _ size _ => check (0 < size ∧ size ≤ 128) .length
  | .uncachedWrite _ _ _ data _ => check (0 < data.length ∧ data.length ≤ 128) .length
  | .holdWindowEnd _ line => check (line < 2 ^ 45) .range
  | .fillRetry _ line => check (line < 2 ^ 45) .range
  | .dieLinkFlitReceive _ _ _ => none
  | .dramRead _ _ => none
  | .dramLineWrite _ data => check (data.length = 128) .length
  | .sealCacheEvict _ tile => check (tile < 2 ^ 40) .range
  | .sealVerifyingRead _ _ _ => none
  | .patrol _ _ _ _ => none
  | .rowRemap _ _ => none
  | .readseal _ _ => none
  | .verify _ _ => none
  | .listpoison _ _ => none
  | .reseal _ _ => none
  | .move _ _ => none
  | .pageMoveComplete _ => none
  | .retqRead _ => none
  | .mcack _ _ => none
  | .flitReceive _ data => check (data.length = 256) .length
  | .collFlit _ _ => none
  | .linkctlNack _ _ => none
  | .fecAlignmentLoss _ => none
  | .portTrainingComplete _ peer peerPort => check (peer < 2 ^ 20 ∧ peerPort < 16) .range
  | .retrainTimeout _ => none
  | .nomatchTimeout _ => none
  | .bridlePairing _ => none
  | .bridlePairingTimer => none
  | .bridleSlotData _ => none
  | .bridleManifest _ => none
  | .bridleEndOfStream _ _ => none
  | .stop _ _ => none
  | .tctlStop => none
  | .tctlNote => none
  | .flipArrive _ => none
  | .flipOpen _ => none
  | .flipComplete _ => none
  | .flipAbandon _ => none
  | .tbar _ => none
  | .barrierArrive _ _ => none
  | .barrierComplete _ _ => none
  | .tredctl _ => none
  | .reduceUp _ _ _ _ _ => none
  | .reduceResult _ _ _ _ _ => none
  | .noticeFault _ _ _ => none
  | .noticeThermalSlow _ _ => none
  | .noticeClear _ => none
  | .heartbeat _ => none
  | .tetherHeartbeatTimer => none
  | .heartbeatLost _ => none
  | .tnotqRead => none
  | .snapctlArrive => none
  | .snapshotCleanComplete => none
  | .demandCopyComplete granule => check (granule < 2 ^ 36) .range
  | .backgroundCopy => none
  | .commitArrive => none
  | .snapctlDrain => none
  | .cabinetDrainTimer => none
  | .cabinetDrainComplete => none
  | .snapctlRollback => none
  | .rollbackComplete => none
  | .snapctlResume => none
  | .snapctlSendward => none
  | .takeover _ => none
  | .restoreComplete => none
  | .hicSourceEvent _ => none
  | .hirteWrite _ _ => none
  | .hipi _ => none
  | .haziaInterruptAccept _ => none
  | .pcieInboundRequest _ _ size data => check (size ≤ 4096 ∧ (data.getD []).length ≤ 512) .length
  | .pcieMsi _ _ => none
  | .pcieCompletion _ _ data => check (data.length ≤ 4096) .length
  | .pcieCompletionTimeout _ => none
  | .pcieLinkEvent _ => none
  | .sessionInit _ slot _ _ _ => check (slot < 256) .range
  | .sessionClose rq => checkReq rq
  | .sessionIdleTimeout sid => check (sid < 2 ^ 64) .range
  | .readStatus rq _ => checkReq rq
  | .readReg rq _ size => allOf [check (size < 256) .length, checkReq rq]
  | .writeReg rq _ data => allOf [check (data.length ≤ 1344) .length, checkReq rq]
  | .imageWrite rq offset data => allOf [check (offset < 2 ^ 32) .range, check (data.length ≤ 1344) .length, checkReq rq]
  | .imageRead rq _ offset size => allOf [check (offset < 2 ^ 32) .range, check (size < 2 ^ 16) .length, checkReq rq]
  | .keyslotSet rq slot ed ml => allOf [check (slot < 256) .range, check (ed.length + ml.length ≤ 2048) .length, checkReq rq]
  | .mgmtkeySet rq slot _ ed ml => allOf [check (slot < 256) .range, check (ed.length + ml.length ≤ 2048) .length, checkReq rq]
  | .calRead rq _ => checkReq rq
  | .cabinetRead rq _ offset size => allOf [check (offset < 2 ^ 32) .range, check (size < 2 ^ 16) .length, checkReq rq]
  | .testHold rq => checkReq rq
  | .testRelease rq => checkReq rq
  | .repair rq _ => checkReq rq
  | .pprCommit rq die => allOf [check (die < 256) .range, checkReq rq]
  | .fwStage rq _ offset data => allOf [check (offset < 2 ^ 32) .range, check (data.length ≤ 1344) .length, checkReq rq]
  | .fwActivate rq _ => checkReq rq
  | .fwCommit rq _ => checkReq rq
  | .attest rq nonce => allOf [check (nonce.length ≤ 1344) .length, checkReq rq]
  | .identity rq => checkReq rq
  | .subscribe rq => checkReq rq
  | .mgmtHeartbeatTimer => none
  | .registerWrite _ data => check (data.length = 4 ∨ data.length = 8) .length
  | .imageCtl rq _ => checkReq rq
  | .registerReadClear _ size => check (size = 4 ∨ size = 8) .length
  | .reservedOpcode _ _ => none
  | .instructionFetchFault _ _ _ => none
  | .tetherBlockLock _ => none
  | .regulatorFault _ => none
  | .sealEngineCommandComplete _ => none

/-- The command is well-formed. -/
def Instr.wf (i : Instr) : Bool := i.ill.isNone

end Sys2Proof
end

