-- ==== Sys2Proof/Tests/Slice0.lean ====
section
/-! SUPPORT. Tests of the model on small states, with expected results from the text of the specification, and for each statement
with hypotheses a state and operands that meet them together. -/

-- One test after another: many at a time would need a thread stack each.
set_option Elab.async false

namespace Sys2Proof.Tests

open Sys2Proof.Machine

/-! ## Small states -/

/-- A sequencer, a Hazia core, and instructions without prefixes. -/
def c0 : CoreId := .sycen 0 0
def h0 : CoreId := .hazia 0
def px : Pfx := Pfx.plain

/-- A running core at machine level, with the values of reset besides. -/
def k0 : Core := { Core.reset with st := .run }

/-- The same at another level, with interrupts unmasked. -/
def kAt (l : Level) : Core := { k0 with status := { k0.status with pl := l, gm := false } }

/-- A module with every domain powered, and one core. -/
def on : State := { State.reset with power := { Power.reset with domains := 1023, step := 5 } }
def withCore (k : Core) : State := { on with cores := [(0, k)] }
def s0 : State := withCore k0

/-- The same with a Hazia core. -/
def withHazia (k : Core) : State := { on with cores := [(96, k)] }

/-- The same with a segment over the first 4 GiB and one page translated, to tier 1 at 4000_0000h. -/
def e0 : Etu := { Etu.reset with
  maint := false
  ctxs := [(0, { segCount := 1, base := 0 })]
  segs := [(0, { base := 0, limit := 0xFFFFFFFF, r := true, w := true, x := true })]
  tlb := [{ ctx := 0, level := 1, vpage := 0, frame := 0x40000000, ro := false }] }
/-- The same with the page at another frame. -/
def mappedTo (frame : Nat) (k : Core) : State :=
  { withCore k with etus := [(0, { e0 with tlb := [{ ctx := 0, level := 1, vpage := 0, frame := frame, ro := false }] })] }
def mapped (k : Core) : State := { withCore k with etus := [(0, e0)] }

/-- A line that the L1 D of the sequencer holds in a state. -/
def held (s : State) (line : Nat) (st : LineState) : State := s.setLine (.l1d c0) line { CacheLine.reset with st := st }

/-- What the tests read back from a command's outcome. -/
def after (c : Instr) (s : State) : State :=
  match exec c s with
  | .next t => t
  | _ => s

theorem runs_of {s : State} {c : CoreId} {p : Pfx} {sh : Shape} (h : (s.executes c && !sh.illegal c p (s.core c)) = true) :
    Runs s c p sh := by
  simp only [Bool.and_eq_true, Bool.not_eq_true'] at h
  exact h

/-! ## Ill-formed commands -/

theorem test_illImmediate : (Instr.addi c0 px 0 0 0x10000).ill = some .immediate := by decide
theorem test_illLength : (Instr.dramLineWrite 0 [0]).ill = some .length := by decide
theorem test_illRange : (Instr.loadWindowWrite 0x400000 [0]).ill = some .range := by decide
theorem test_illUnit : (Instr.func ⟨0, .lze⟩ none).ill = some .unit := by decide
theorem test_illAcceptsWidest : (Instr.addi c0 px 0 0 0xFFFF).wf = true := by decide
theorem test_illAcceptsExtended : (Instr.addi c0 { px with ext := .bytes8 } 0 0 0x10000).wf = true := by decide

/-! ## The queue (log entry 1) -/

theorem test_stepRunsFront : step { s0 with pending := [.sictlClear, .powerOn] } = exec .sictlClear { s0 with pending := [.powerOn] } := rfl
theorem test_stepIdles : step s0 = .next s0.tetherTick := rfl
/-- 17 R417: the head of the slow queue is executed. -/
theorem test_stepSlowQueue :
    step { s0 with mgmt := { s0.mgmt with slow := [(0, .sessionInit false 0 [] [] [])] } }
      = exec (.sessionInit false 0 [] [] []) { s0 with mgmt := { s0.mgmt with resumed := true } } := rfl
theorem test_noWordSpells : decodeTableWord 32 0 = none := by decide

/-! ## Results, from the text of the specification by hand -/

/-- 07 R453: addition wraps. -/
theorem test_addWraps :
    ((after (.add c0 px 2 0 1) (withCore ((k0.setD 0 0xFFFFFFFFFFFFFFFF).setD 1 2))).core c0).getD 2 = 1 := by decide
/-- 07 R453: the corners of DIV. -/
theorem test_divByZero : ((after (.div c0 px 2 0 1) (withCore (k0.setD 0 7))).core c0).getD 2 = 0xFFFFFFFFFFFFFFFF := by decide
theorem test_divOverflow :
    ((after (.div c0 px 2 0 1) (withCore ((k0.setD 0 0x8000000000000000).setD 1 0xFFFFFFFFFFFFFFFF))).core c0).getD 2 = 0x8000000000000000 := by
  decide
/-- 07 R453: the remainder has the sign of the dividend. -/
theorem test_remSign : ((after (.rem c0 px 2 0 1) (withCore ((k0.setD 0 (-7)).setD 1 2))).core c0).getD 2 = -1 := by decide
/-- 07 R453: SAR shifts in the sign. -/
theorem test_sarSign : ((after (.sari c0 px 2 0 4) (withCore (k0.setD 0 0x8000000000000000))).core c0).getD 2 = 0xF800000000000000 := by decide
/-- 07 R183: ANDI zero-extends. -/
theorem test_andiZeroExtends : ((after (.andi c0 px 2 0 0xFFFF) (withCore (k0.setD 0 (-1)))).core c0).getD 2 = 0xFFFF := by decide
/-- 07 R183: ADDI sign-extends. -/
theorem test_addiSignExtends : ((after (.addi c0 px 2 0 0xFFFF) s0).core c0).getD 2 = -1 := by decide
/-- 07 R453: the bytes reversed. -/
theorem test_bswap : ((after (.bswap c0 px 2 0) (withCore (k0.setD 0 0x0102030405060708))).core c0).getD 2 = 0x0807060504030201 := by decide
/-- 06 R452: 1.0 + 2.0 = 3.0 in FP64, without a flag. -/
theorem test_faddExact :
    ((after (.fadd c0 px 2 0 1) (withCore ((k0.setD 0 0x3FF0000000000000).setD 1 0x4000000000000000))).core c0).getD 2 = 0x4008000000000000 := by
  decide +kernel
/-- 06 R452: 1.0 / 0 is infinity and sets `DZ`. -/
theorem test_fdivByZero : ((after (.fdiv c0 px 2 0 1) (withCore (k0.setD 0 0x3FF0000000000000))).core c0).status.dz = true := by decide
/-- 07, the worked BNZ: at 1000h with displacement FFECh control goes to 0FF0h. -/
theorem test_bnzTarget :
    ((after (.bnz c0 px 1 0xFFEC 0) (withCore ({ k0 with pc := 0x1000 }.setD 1 1))).core c0).slot = .taken 0xFF0 := by decide
/-- 09 R226: the handler of cause 04h. -/
theorem test_trapVector :
    ((after (.trap c0 px 5) (withCore { kAt .user with ts := { k0.ts with base := 2 } })).core c0).pc = 0x2000 + 4 * 64 := by decide
/-- 06 R165: MODE acts on the third instruction. -/
theorem test_modeShadow : ((after (.mode c0 px 1) s0).core c0).shCnt = 2 := by decide
/-- 02 R58: VALIDATE of an empty SHADOW is ignored. -/
theorem test_validateEmpty : (after .sictlValidate on).image.shd = .empty := by decide
/-- 17 R409: a disabled source stays latched. -/
theorem test_hicLatches : mget Hirte.reset (after (.hicSourceEvent 3) on).host.hirte 3 = { Hirte.reset with pend := true } := by decide
/-- 01 R27: two 4 KiB tiles of tier 2 lie on channels that follow each other. -/
theorem test_tierTiles : on.dramTile 0x10000001000 = some (.hd, 1) := by decide

/-! ## Witnesses: the hypotheses of each statement, met together -/

/-- AddressClassResults to BitManipulationResults: every shape, with both register halves. -/
theorem test_witness_integerShapes :
    Runs s0 c0 px (dShape 4 [0, 15, 1]) ∧ Runs s0 c0 px (dShape 3 [0]) ∧ Runs s0 c0 px (dShape 5 [0, 1, 2]) ∧ Runs s0 c0 px (immShape 5 [0, 1])
    ∧ Runs s0 c0 px (immShape 4 [0]) ∧ Runs s0 c0 px (ximmShape (.reg (.a 15)) 4 5) ∧ Runs s0 c0 px (ximmShape (.imm 7) 3 4)
    ∧ Runs s0 c0 px (dShape 4 (shiftDregs (.reg 3)))
    ∧ Runs s0 c0 { px with upper := true } (dShape 4 [31, 16, 0]) ∧ Runs s0 c0 { px with ext := .bytes8 } (immShape 5 [0, 1])
    ∧ Runs s0 c0 px (dShape (2 + (MemOp.mk 3 .base).bytes) (MemOp.mk 3 .base).dregs) ∧ Runs (withHazia k0) h0 px (dShape 4 [0, 1, 2]) :=
  ⟨runs_of (by decide), runs_of (by decide), runs_of (by decide), runs_of (by decide), runs_of (by decide), runs_of (by decide),
   runs_of (by decide), runs_of (by decide), runs_of (by decide), runs_of (by decide), runs_of (by decide), runs_of (by decide)⟩

/-- CompareMoveResults: EXT at the last legal width. -/
theorem test_witness_CompareMoveResults : (6 : Byte).toNat < 8 ∧ (6 : Byte).toNat % 4 ≠ 3 := by decide

/-- ScalarFloatResults: without TYPE, with TYPE, and FCVT. -/
theorem test_witness_ScalarFloatResults :
    Runs s0 c0 px { bytes := 4, d := [0, 1, 2], types := scalarTypes }
    ∧ Runs s0 c0 { px with type := some 0x0D } { bytes := 5, d := [0, 1, 2, 3], types := scalarTypes }
    ∧ fcvtCodes.contains 0x10 = true ∧ Runs s0 c0 px { bytes := 4, d := [0, 1], types := fcvtCodes } :=
  ⟨runs_of (by decide), runs_of (by decide), by decide, runs_of (by decide)⟩

/-- SystemInstructions: the store buffer empty and not, a miss being served and not, MODE outside a shadow. -/
theorem test_witness_SystemInstructions :
    Runs s0 c0 px { bytes := 1 } ∧ (s0.core c0).status.pl ≠ .user ∧ Runs s0 c0 px { bytes := 2, noSlot := true } ∧ (1 : Byte).toNat < 2
    ∧ (s0.core c0).shCnt = 0 ∧ (s0.seen c0).sbuf = [] ∧ s0.missServed c0 = false
    ∧ ((withCore { k0 with sbuf := [{ pieces := [], nt := false, old := false }] }).seen c0).sbuf ≠ [] :=
  ⟨runs_of (by decide), by decide, runs_of (by decide), by decide, by decide, by decide, by decide, by decide⟩

def kIrq (l : Level) : Core := { kAt l with ipend := 8, ien := 8 }

/-- WaitHoldsUntilInterrupt: nothing pending; pending and accepted; pending and masked; the interrupt that comes later; HALT. -/
theorem test_witness_WaitHoldsUntilInterrupt :
    (Runs s0 c0 px { bytes := 1 } ∧ s0.interruptPending c0 (s0.core c0) = false)
    ∧ (let s := withCore (kIrq .user)
       Runs s c0 px { bytes := 1 } ∧ s.interruptPending c0 (s.core c0) = true ∧ (s.core c0).unmasked = true)
    ∧ (let s := withCore (kIrq .machine)
       Runs s c0 px { bytes := 1 } ∧ s.interruptPending c0 (s.core c0) = true ∧ (s.core c0).unmasked = false)
    ∧ (let s := withCore { kIrq .user with wait := some .interrupt }
       (s.core c0).st = .run ∧ (s.core c0).wait = some .interrupt ∧ s.frozen = false ∧ s.interruptPending c0 (s.core c0) = true)
    ∧ ((withCore { k0 with st := .halted }).core c0).st = .halted :=
  ⟨⟨runs_of (by decide), by decide⟩, ⟨runs_of (by decide), by decide, by decide⟩, ⟨runs_of (by decide), by decide, by decide⟩,
   ⟨by decide, by decide, by decide, by decide⟩, by decide⟩

/-- ControlAndBankAccess: an access that the level may make, `CYCLES`, one it may not; a bank it reaches and one it does not. -/
theorem test_witness_ControlAndBankAccess :
    (Runs s0 c0 px { bytes := 4, d := (XReg.d 3).dregs } ∧ ctlRefusal (s0.seen c0) 0 none = none ∧ (0 : BitVec 16) ≠ 2
      ∧ ctlRefusal (s0.seen c0) 0x20 (some ((s0.seen c0).getX (.d 3))) = none)
    ∧ (let s := withCore (kAt .user)
       Runs s c0 px { bytes := 4, d := (XReg.d 3).dregs } ∧ ctlRefusal (s.seen c0) 0x10 (some ((s.seen c0).getX (.d 3))) = some (2, 1)
       ∧ ctlRefusal (s.seen c0) 0xFFFF (some ((s.seen c0).getX (.d 3))) = some (1, 0))
    ∧ (bankOperand 0x8003 = some (.user, .a 3) ∧ Runs s0 c0 px { bytes := 4, d := (XReg.d 3).dregs ++ bankDregs 0x8003 }
      ∧ (s0.seen c0).status.pl = .machine ∧ Level.user ≠ .machine)
    ∧ (bankOperand 0xA020 = some (.user, .ctl 0x20) ∧ (BankReg.ctl 0x20).isShadowStack = true
      ∧ Runs (withCore (kAt .supervisor)) c0 px { bytes := 4, d := (XReg.d 3).dregs ++ bankDregs 0xA020 }
      ∧ ((withCore (kAt .supervisor)).seen c0).status.pl = .supervisor) :=
  ⟨⟨runs_of (by decide), by decide, by decide, by decide⟩, ⟨runs_of (by decide), by decide, by decide⟩,
   ⟨by decide, runs_of (by decide), by decide, by decide⟩, ⟨by decide, by decide, runs_of (by decide), by decide⟩⟩

/-- TrapEntry: one level, two levels for a masked exception, and an interrupt. -/
theorem test_witness_TrapEntry :
    (targetLevel (kAt .user).status.gm false (kAt .user).status.pl = some .supervisor ∧ 255 < 256 ∧ (kAt .user).pend = none
      ∧ (kAt .user).resumeHere.loop = none)
    ∧ targetLevel true false .user = some .machine ∧ targetLevel false true .supervisor = some .machine := by decide

/-- DoubleFault: at machine level, at supervisor level with the mask, and a core that a double fault halted. -/
theorem test_witness_DoubleFault :
    k0.status.pl = .machine
    ∧ (let k := { kAt .supervisor with status := { (kAt .supervisor).status with gm := true } }
       k.status.pl = .supervisor ∧ k.status.gm = true)
    ∧ ((withCore { k0 with st := .dfault }).core c0).st = .dfault ∧ (withCore { k0 with st := .dfault }).CoresOk :=
  ⟨by decide, by decide, by decide, by unfold State.CoresOk; decide⟩

/-- TrapsAreTaken: instructions that run, and interrupts that can be accepted. -/
theorem test_witness_TrapsAreTaken :
    Runs s0 c0 px { bytes := 1 } ∧ Runs s0 c0 px { bytes := 2 } ∧ (s0.core c0).pend = none ∧ s0.executes c0 = true
    ∧ (withCore (kIrq .user)).acceptable c0 ((withCore (kIrq .user)).core c0) = true ∧ ((withCore (kIrq .user)).core c0).tensor = none
    ∧ (∀ len, ((withCore (kIrq .user)).core c0).wait ≠ some (.maint len))
    ∧ (let s := withCore { kIrq .user with wait := some (.maint 3) }
       s.acceptable c0 (s.core c0) = true ∧ (s.core c0).wait = some (.maint 3))
    ∧ (let s := { withHazia (kAt .user) with host := { HostIo.reset with vectors := [(0, 0x100000000)] } }
       s.acceptable h0 (s.core h0) = true ∧ (s.core h0).tensor = none ∧ ∀ len, (s.core h0).wait ≠ some (.maint len)) :=
  ⟨runs_of (by decide), runs_of (by decide), by decide, by decide, by decide, by decide, fun _ => nofun, by decide,
   ⟨by decide, by decide, fun _ => nofun⟩⟩

def kRte : Core := { k0 with tm := { k0.tm with ppl := 2, origin := 2, pc := 0x40, pb := true, target := 0x80, shcnt := 2 } }
def kLow : Core := { k0 with tm := { k0.tm with ppl := 0, origin := 2 } }

/-- ReturnFromTrap: from machine level to user level, a return that the origin forbids, and at user level. -/
theorem test_witness_ReturnFromTrap :
    (Runs (withCore (kAt .user)) c0 px { bytes := 1, noSlot := true } ∧ ((withCore (kAt .user)).seen c0).status.pl = .user)
    ∧ (let k := (withCore kRte).seen c0
       Runs (withCore kRte) c0 px { bytes := 1, noSlot := true } ∧ k.status.pl ≠ .user ∧ (k.trapRegs k.status.pl).ppl ≠ 3
       ∧ (k.trapRegs k.status.pl).shcnt ≠ 3 ∧ (k.trapRegs k.status.pl).origin.toNat ≤ (k.trapRegs k.status.pl).ppl.toNat
       ∧ (k.bank (levelOf (k.trapRegs k.status.pl).ppl.toNat)).plb = false ∧ k.pend = none ∧ ((withCore kRte).core c0).pend = none)
    ∧ (let k := (withCore kLow).seen c0
       Runs (withCore kLow) c0 px { bytes := 1, noSlot := true } ∧ k.status.pl ≠ .user ∧ (k.trapRegs k.status.pl).ppl ≠ 3
       ∧ (k.trapRegs k.status.pl).shcnt ≠ 3 ∧ (k.trapRegs k.status.pl).ppl.toNat < (k.trapRegs k.status.pl).origin.toNat
       ∧ ¬(k.status.pl = .machine ∧ k.status.elevate = true)) :=
  ⟨⟨runs_of (by decide), by decide⟩, ⟨runs_of (by decide), by decide⟩, ⟨runs_of (by decide), by decide⟩⟩

/-- A core in the last instruction but one of a loop: a branch of 4 bytes there is misplaced. -/
def kLoop : Core := k0.setBank .machine { k0.bm with act := 1, lstart := [(0, 0xFF0)], lend := [(0, k0.pc + 4)], lcount := [(0, 3)] }

/-- BranchAndLoopResults: a branch in its place, one at the end of a body; a new loop, one of count 0, one already active. -/
theorem test_witness_BranchAndLoopResults :
    (Runs s0 c0 px { dShape 4 [0] with noSlot := true } ∧ misplaced (s0.seen c0) ((dShape 4 [0]).len px) 16 = false)
    ∧ (Runs (withCore kLoop) c0 px { dShape 4 [0] with noSlot := true }
      ∧ misplaced ((withCore kLoop).seen c0) ((dShape 4 [0]).len px) 0 = true)
    ∧ (Runs s0 c0 px { bytes := 5, imm := 2, e8 := false, noSlot := true } ∧ (s0.core c0).bm.act = 0 ∧ immZero px 2 2 ≠ 0
      ∧ immZero px 2 0 = 0 ∧ ((s0.core c0).bm.endLevel 0x100).isSome = false)
    ∧ ((withCore kLoop).seen c0).bm.act.getLsbD 0 = true :=
  ⟨⟨runs_of (by decide), by decide⟩, ⟨runs_of (by decide), by decide⟩, ⟨runs_of (by decide), by decide⟩, by decide⟩

/-- A core with a shadow stack of one word at 2000h and A15 at 3008h. -/
def kCall (ptr : Word) (sbuf : List StoreEntry) : Core :=
  ({ k0 with sbuf := sbuf }.setBank .machine { k0.bm with ssBase := 0x2000, ssLimit := 0x2008, ssPtr := ptr }).setA 15 0x3008
def store (a : Nat) (d : List Byte) : StoreEntry := { pieces := [(a, d)], nt := false, old := false }
def six : List StoreEntry := List.replicate 6 (store 0 [0])
def need8 : AccessNeeds := { acc := .write, size := 8 }

/-- CallResults: room for one word and two free entries of the store buffer; and no room. -/
theorem test_witness_CallResults :
    (let s := mapped (kCall 0x2000 six)
     let k := s.seen c0
     let b := k.bank k.status.pl
     Runs s c0 px { bytes := 5, noSlot := true } ∧ misplaced k 5 0 = false ∧ misalignedShadow b = none ∧ b.ssBase.toNat ≤ b.ssPtr.toNat
     ∧ b.ssPtr.toNat + 8 ≤ b.ssLimit.toNat ∧ s.locateTwo c0 k b.ssPtr (k.getA 15 - 8) need8 = (.ok ([(0x40002000, 8)], [(0x40003000, 8)]), s)
     ∧ k.sbuf.length ≤ 6)
    ∧ (let s := mapped (kCall 0x2008 [])
       let b := (s.seen c0).bank .machine
       Runs s c0 px { bytes := 2, noSlot := true } ∧ misalignedShadow b = none ∧ b.ssLimit.toNat < b.ssPtr.toNat + 8) :=
  ⟨⟨runs_of (by decide), by decide, by decide, by decide, by decide, rfl, by decide⟩, ⟨runs_of (by decide), by decide⟩⟩

/-- A state whose L1 D holds the lines at 4000_2000h and 4000_3000h; `b` is the low byte of the second stack's word. -/
def sRet (b : Byte) : State :=
  { held (held (mapped (kCall 0x2008 [])) (0x40002000 / 128) .e) (0x40003000 / 128) .e with
    mem := [(0x40002000, 0x44), (0x40003008, b)] }
def load8 : AccessNeeds := { acc := .read, size := 8 }
/-- After a load of 4000_2000h, and one of 4000_3008h behind it. -/
def sRet1 (b : Byte) : State := (sRet b).touch (.l1d c0) (0x40002000 / 128)
def sRet2 (b : Byte) : State := (sRet1 b).touch (.l1d c0) (0x40003000 / 128)

/-- ReturnChecksBothStacks: both words equal, unequal, and an empty shadow stack. -/
theorem test_witness_ReturnChecksBothStacks :
    (let s := sRet 0x44
     let k := s.seen c0
     let b := k.bank k.status.pl
     Runs s c0 px { bytes := 1, noSlot := true } ∧ misplaced k 1 0 = false ∧ misalignedShadow b = none ∧ b.ssBase.toNat + 8 ≤ b.ssPtr.toNat
     ∧ b.ssPtr.toNat ≤ b.ssLimit.toNat ∧ s.locateTwo c0 k (b.ssPtr - 8) (k.getA 15) load8 = (.ok ([(0x40002000, 8)], [(0x40003008, 8)]), s)
     ∧ s.loadAt c0 k [(0x40002000, 8)] (b.ssPtr - 8) false = .ok (sRet1 0x44) [0x44, 0, 0, 0, 0, 0, 0, 0]
     ∧ (sRet1 0x44).loadAt c0 k [(0x40003008, 8)] (k.getA 15) false = .ok (sRet2 0x44) [0x44, 0, 0, 0, 0, 0, 0, 0])
    ∧ (let s := sRet 0x45
       s.loadAt c0 (s.seen c0) [(0x40002000, 8)] 0x2000 false = .ok (sRet1 0x45) [0x44, 0, 0, 0, 0, 0, 0, 0]
       ∧ (sRet1 0x45).loadAt c0 (s.seen c0) [(0x40003008, 8)] 0x3008 false = .ok (sRet2 0x45) [0x45, 0, 0, 0, 0, 0, 0, 0])
    ∧ (let b := ((mapped (kCall 0x2000 [])).seen c0).bank .machine
       Runs (mapped (kCall 0x2000 [])) c0 px { bytes := 1, noSlot := true } ∧ b.ssPtr.toNat < b.ssBase.toNat + 8) :=
  ⟨⟨runs_of (by decide), by decide, by decide, by decide, by decide, rfl, rfl, rfl⟩, ⟨rfl, rfl⟩, ⟨runs_of (by decide), by decide⟩⟩

/-- LoadResults: a load that reads, widths that fit and one that does not. -/
theorem test_witness_LoadResults :
    (let s := sRet 0x44
     let m : MemOp := { base := 15, mode := .base }
     s.coreLoad c0 (s.seen c0) (eaOf m (s.seen c0)) { acc := .read, size := MemWidth.d.size } false
       = .ok ((sRet 0x44).touch (.l1d c0) (0x40003000 / 128)) [0x44, 0, 0, 0, 0, 0, 0, 0]
     ∧ Runs s c0 px { bytes := 2 + m.bytes, d := (XReg.a 3).dregs ++ m.dregs, nt := true, ar := true })
    ∧ widthOk .d (.a 3) = true ∧ MemWidth.w ≠ .d ∧ widthOk .w (.a 3) = false :=
  ⟨⟨rfl, runs_of (by decide)⟩, by decide⟩

/-- LoadDelayAndSource: a waiting load write; a load that meets no store, one that a store covers, one that it covers in part. -/
theorem test_witness_LoadDelayAndSource :
    (let k := { k0 with pend := some (PendWrite.d .machine 31 7) }
     k.pend = some (.d .machine (31 : Fin 32).val 7) ∧ mwf 0 (k.bank .machine).d = true)
    ∧ (let s := sRet 0x44
       s.locate c0 k0 0x2000 load8 = (.ok [(0x40002000, 8)], s) ∧ (s.kindAt 0x40002000).normal = true
       ∧ (∀ ln ∈ linesOf 0x40002000 8, s.holdsLine c0 ln = true) ∧ s.missServed c0 = false ∧ s.readPoison 0x40002000 8 = false
       ∧ s.isNormal [(0x40002000, 8)] = true
       ∧ (let e := store 0x40002000 (List.replicate 8 9)
          e.touches 0x40002000 8 = true ∧ e.covers 0x40002000 8 = true)
       ∧ (let e := store 0x40002007 [9]
          e.touches 0x40002000 8 = true ∧ e.covers 0x40002000 8 = false)) :=
  ⟨by decide, ⟨rfl, by decide, by decide, by decide, by decide, by decide, by decide, by decide⟩⟩

def seven : List StoreEntry := List.replicate 7 (store 0x40002000 [1])
def stNeeds : AccessNeeds := { acc := .write, size := 1, store := true }

/-- A store to the configuration space: of the root port at 100h, of another device at 2000h. -/
def sConfig (va : Word) (w : Option Wait) : State := mappedTo 0xF3000000000 ({ k0 with wait := w }.setA 3 va)

/-- StoresReachMemory: a store to the configuration space, before its answer and after it. -/
theorem test_witness_configurationStore :
    let m : MemOp := { base := 3, mode := .base }
    let needs : AccessNeeds := { acc := .write, size := 4, store := true }
    let done (ok : Bool) : Option Wait := some (.pcieDone ok [])
    ((sConfig 0x2000 none).locate c0 ((sConfig 0x2000 none).seen c0) (eaOf m ((sConfig 0x2000 none).seen c0)) needs
      = (.ok [(0xF3000002000, 4)], sConfig 0x2000 none))
    ∧ (sConfig 0x2000 none).kindAt 0xF3000002000 = .ecam ∧ rootOffset 0xF3000002000 = none ∧ rootOffset 0xF3000000100 = some 0x100
    ∧ ((sConfig 0x100 none).locate c0 ((sConfig 0x100 none).seen c0) (eaOf m ((sConfig 0x100 none).seen c0)) needs
      = (.ok [(0xF3000000100, 4)], sConfig 0x100 none))
    ∧ (sConfig 0x2000 none).deviceStoreWaits ((sConfig 0x2000 none).seen c0) = false ∧ ((sConfig 0x2000 none).core c0).wait = none
    ∧ Runs (sConfig 0x2000 none) c0 px { bytes := 2 + m.bytes, d := (XReg.d 0).dregs ++ m.dregs, nt := true, ar := true }
    ∧ ((sConfig 0x2000 (done true)).locate c0 ((sConfig 0x2000 (done true)).seen c0) 0x2000 needs = (.ok [(0xF3000002000, 4)], sConfig 0x2000 (done true)))
    ∧ ((sConfig 0x2000 (done true)).core c0).wait = done true ∧ ((sConfig 0x2000 (done false)).core c0).wait = done false
    ∧ Runs (sConfig 0x2000 (done true)) c0 px { bytes := 2 + m.bytes, d := (XReg.d 0).dregs ++ m.dregs, nt := true, ar := true } :=
  ⟨rfl, by decide, by decide, by decide, rfl, by decide, by decide, runs_of (by decide), rfl, by decide, by decide, runs_of (by decide)⟩

/-- StoresReachMemory: one free entry, none, and a store at the head that can be written. -/
theorem test_witness_StoresReachMemory :
    (let s := mapped ({ k0 with sbuf := seven }.setA 3 0x2000)
     let m : MemOp := { base := 3, mode := .base }
     Runs s c0 px { bytes := 2 + m.bytes, d := (XReg.d 0).dregs ++ m.dregs, nt := true, ar := true } ∧ widthOk .b (.d 0) = true
     ∧ s.locate c0 (s.seen c0) (eaOf m (s.seen c0)) stNeeds = (.ok [(0x40002000, 1)], s) ∧ (s.seen c0).sbuf.length < 8)
    ∧ (let s := mapped ({ k0 with sbuf := store 0 [] :: seven }.setA 3 0x2000)
       s.locate c0 (s.seen c0) 0x2000 stNeeds = (.ok [(0x40002000, 1)], s) ∧ 8 ≤ (s.seen c0).sbuf.length)
    ∧ (let s := held (mapped { k0 with sbuf := seven }) (0x40002000 / 128) .m
       (s.core c0).sbuf = { pieces := [(0x40002000, [1])], nt := false, old := false } :: seven.drop 1 ∧ s.missServed c0 = false ∧ (s.kindAt 0x40002000).normal = true ∧ (s.core c0).st ≠ .reset
       ∧ (∀ ln ∈ linesOf 0x40002000 1, s.ownsLine c0 ln = true) ∧ mwf Core.reset s.cores = true) :=
  ⟨⟨runs_of (by decide), by decide, rfl, by decide⟩, ⟨rfl, by decide⟩, by decide⟩

def l0 : CacheId := .l1d c0
/-- The line at 4000_2000h. -/
def n0 : Nat := 0x40002000 / 128

/-- Every way of the set of line 5 holds a line whose hold window is open. -/
def full (s : State) : State :=
  [1, 2, 3, 4].foldl (fun (t : State) i =>
    t.setLine (.l1d c0) (5 + 128 * i) { CacheLine.reset with st := .e, way := i - 1, hold := true }) s

/-- FillCompletes: a free way of the set, the lowest; and a set whose four ways hold lines in their hold windows. -/
theorem test_witness_FillCompletes :
    let s := (withCore { k0 with wait := some (.miss 5) }).setLine (.l1d c0) 5 { CacheLine.reset with tr := .is, granted := some .e }
    (s.core c0).wait = some (.miss 5) ∧ s.awaited (.l1d c0) = [5] ∧ (s.line (.l1d c0) 5).granted = some .e
    ∧ (s.line (.l1d c0) 5).awaits = 0 ∧ mwf Core.reset s.cores = true ∧ mwf CacheLine.reset s.lines = true
    ∧ s.place (cacheKey (.l1d c0)) 5 0 = (some 0, s) ∧ (full s).place (cacheKey (.l1d c0)) 5 0 = (none, full s)
    ∧ s.mask (cacheKey l0) 0 0 = true ∧ s.occupants (cacheKey l0) 6 = [] ∧ 0 < (geometry (cacheKey l0)).1 :=
  ⟨by decide, by decide, by decide, by decide, by decide, by decide, rfl, rfl, by decide, by decide, by decide⟩

/-- AtomicResults: the line owned, the reservation held and not; a constrained pair. -/
theorem test_witness_AtomicResults :
    let k := ({ k0 with resv := some (0x40002000 / 128) } : Core).setA 3 0x2000
    let s := held (mapped k) (0x40002000 / 128) .e
    let m : MemOp := { base := 3, mode := .base }
    Runs s c0 px { bytes := 2 + m.bytes, d := 0 :: m.dregs, nt := true, ar := true }
    ∧ Runs s c0 px { bytes := 2 + m.bytes, d := 0 :: m.dregs, nt := true, ar := true, exclusive := true }
    ∧ Runs s c0 px { bytes := 3 + m.bytes, d := 0 :: 1 :: m.dregs, nt := true, ar := true, exclusive := true }
    ∧ s.atomicAccess c0 (s.seen c0) (eaOf m (s.seen c0)) 4 false true false false true (fun _ => true) = .ok (s, 0x40002000)
    ∧ s.atomicAccess c0 (s.seen c0) (eaOf m (s.seen c0)) 8 true true true false false
        (fun ln => decide ((s.seen c0).resv = some ln) && s.holdsLine c0 ln) = .ok (s, 0x40002000)
    ∧ s.atomicAccess c0 (s.seen c0) (eaOf m (s.seen c0)) 1 true false true false true (fun _ => true) = .ok (s, 0x40002000)
    ∧ (decide ((s.seen c0).resv = some (lineOf 0x40002000)) && s.holdsLine c0 (lineOf 0x40002000)) = true
    ∧ (decide ((s0.seen c0).resv = some (lineOf 0x40002000)) && s0.holdsLine c0 (lineOf 0x40002000)) = false
    ∧ ((withCore { k with pair := some 3 }).core c0).resv = some n0 ∧ ((withCore { k with pair := some 3 }).core c0).pair.isSome = true :=
  ⟨runs_of (by decide), runs_of (by decide), runs_of (by decide), rfl, rfl, rfl, by decide, by decide, by decide, by decide⟩

/-- WritesAreLocal: an SRAM word at reset. -/
theorem test_witness_WritesAreLocal :
    Memory.wf s0.mem = true ∧ (s0.kindAt (sramAddr 0 none 0)).sram = true ∧ (∀ i < 8, s0.isDirty (lineOf (sramAddr 0 none 0 + i)) = false) := by decide

/-- WritesAreLocal: an uncached byte of a line that the L2 of CD0 holds. -/
theorem test_witness_WritesAreLocal_uncached :
    let s : State := ({ s0 with lines := [(352 * 2 ^ 48, { CacheLine.reset with st := .e })] } : State).modDirEntry 4 0 (fun e => { e with way := some 0 })
    (s.kindAt 5).sram = false ∧ s.quiet (lineOf 5) = true ∧ s.writeHeld (lineOf 5) = false ∧ s.uncopiedLine (lineOf 5) = false
    ∧ s.snap.heldWrites = [] ∧ (s.line (servingCache (.cd 0)) (lineOf 5)).st ≠ .i ∧ (s.dirEntry 4 (lineOf 5)).way.isSome = true := by decide

/-- TYPE of a format code, and the predicate P0 with it. -/
def ty (n : Byte) : Pfx := { px with type := some n }
def tyP (n : Byte) : Pfx := { ty n with pred := some 0 }

/-- VectorArithmetic, VectorPredicates, VectorPermutation: formats that an instruction accepts and one it does not; immediates at the
width of an element and above it. -/
theorem test_witness_VectorArithmetic :
    vecTyped (ty 0x01) vecAll = true ∧ vecTyped px vecFloats = true ∧ vecTyped px vecDivs = true ∧ vecTyped (ty 0x05) vecInts = true
    ∧ Runs s0 c0 (tyP 0x01) { bytes := 4, pred := true, types := vecAll }
    ∧ vecTyped px vecInts = false ∧ Runs s0 c0 px { bytes := 4, pred := true, types := vecInts }
    ∧ (immZero (ty 0x01) 2 0xFF).toNat < 2 ^ fmtWidth (typeCode (ty 0x01)) ∧ 2 ^ fmtWidth (typeCode (ty 0x01)) ≤ (immZero (ty 0x01) 2 0x100).toNat
    ∧ Runs s0 c0 (ty 0x01) { bytes := 4, imm := 2, pred := true, types := vecAll } :=
  ⟨by decide, by decide, by decide, by decide, runs_of (by decide), by decide, runs_of (by decide), by decide, by decide, runs_of (by decide)⟩

/-- VectorIntegerElements: a signed and an unsigned format, with operands at the ends of their range. -/
theorem test_witness_VectorIntegerElements :
    intFmt 0x01 = some (8, true) ∧ floatFmt 0x01 = none ∧ 255 < 2 ^ 8 ∧ intFmt 0x05 = some (8, false) ∧ floatFmt 0x05 = none := by decide

/-- VectorReduceConvert: elements to reduce, none of them, and formats of a conversion. -/
theorem test_witness_VectorReduceConvert :
    Runs s0 c0 (ty 0x04) { bytes := 4, d := [3], pred := true, types := vecAll }
    ∧ (∃ x, (reduceTree (fun a b => arithMax 0x01 (s0.seen c0).rnd [a, b]) 12 [some 1, some 2]).1 = some x)
    ∧ (let s := withCore ({ k0 with p := [] })
       Runs s c0 (tyP 0x10) { bytes := 4, d := [3], pred := true, types := vecAll }
       ∧ activeIn (s.seen c0) (tyP 0x10).pred 64 0 = false ∧ (∃ f, floatFmt 0x10 = some f))
    ∧ vecTyped (ty 0x0F) vcvtCodes = true ∧ vcvtCodes.contains 0x01 = true ∧ 8 ≤ fmtWidth (typeCode (ty 0x0F)) ∧ 8 ≤ fmtWidth 0x01 :=
  ⟨runs_of (by decide), ⟨_, rfl⟩, ⟨runs_of (by decide), by decide +kernel, _, rfl⟩, by decide⟩

/-- A core whose P0 has the bits of the first FP64 element alone. -/
def kOne (sbuf : List StoreEntry) : Core := ({ k0 with p := [(0, 0xFF)], sbuf := sbuf } : Core).setA 3 0x2000
def one : VecPage := { va := 0x2000, size := 8, elems := [0x2000] }

/-- VectorMemory: one active element, located, its line held and owned. -/
theorem test_witness_VectorMemory :
    let s := held (mapped (kOne [])) (0x40002000 / 128) .m
    let k := s.seen c0
    Runs s c0 (tyP 0x10) { bytes := 3, d := [], pred := true, nt := true, ar := true, types := vecAll }
    ∧ eaOf { base := 3, mode := .base } k = 0x2000 ∧ vecTouched c0 (tyP 0x10) k 64 0x2000 = [(0, 0x2000)] ∧ canonical 0x2000 = true
    ∧ s.locatePages c0 k .read 8 false (vecPages 8 [0x2000]) = (.ok [(one, 0x40002000)], s)
    ∧ s.locatePages c0 k .write 8 true (vecPages 8 [0x2000]) = (.ok [(one, 0x40002000)], s)
    ∧ elemPa [(one, 0x40002000)] 0x2000 = 0x40002000 ∧ s.holdsLine c0 (lineOf 0x40002000) = true ∧ s.ownsLine c0 (lineOf 0x40002000) = true
    ∧ s.readPoison 0x40002000 8 = false ∧ k.sbuf = [] ∧ s.missServed c0 = false ∧ badAddress 8 [0x2000] = none
    ∧ s.windowBusy k.sbuf [(0x40002000, 8)] = false :=
  ⟨runs_of (by decide), by decide, by decide +kernel, by decide, rfl, rfl, by decide, by decide, by decide, by decide, by decide, by decide,
   by decide, by decide⟩

/-- Two descriptors of one INT8 element each, at 1000h (data at 1100h) and 1040h (data at 1200h). -/
def descBytes (base : Byte) (fmt : Byte) : List Byte :=
  [0, base, 0, 0, 0, 0, 0, 0, fmt, 1, 0, 0, 0, 0, 0, 0, 1, 0, 0, 0, 1, 0, 0, 0, 1, 0, 0, 0, 1, 0, 0, 0] ++ List.replicate 32 0
def sTensor (fmt : Byte) : State :=
  let k := ((k0.setA 1 0x1000).setA 2 0x1040)
  held (held (held { mapped k with mem := memWrites (memWrites [] 0x40001000 (descBytes 0x11 fmt)) 0x40001040 (descBytes 0x12 1) }
    (0x40001000 / 128) .e) (0x40001100 / 128) .e) (0x40001200 / 128) .e
def copyF : TensorForm := copyForm (fun dst src => decide (dst = src) && vcvtCodes.contains src) (fun _ _ _ x => (x, .none))

/-- A tile of format 19h in a partition bound to context 0. -/
def sTile (poison : Bool) : State :=
  ((withCore (k0.setD 4 3)).setQuad { cd := 0, cl := 0, arr := 0, q := 0 } { Quad.reset with bound := true, pmask := 15 }).setTile
    { cd := 0, cl := 0, t := 2 } { Tile.reset with fmt := 0x19, poison := poison }

/-- TensorAndTileRows: a copy of one element, and formats that do not fit. -/
theorem test_witness_TensorForms :
    let s := sTensor 1
    let k := s.seen c0
    Runs s c0 px { bytes := copyF.bytes, imm := copyF.imm, types := copyF.types } ∧ copyF.noType = true ∧ k.sbuf = [] ∧ (s.core c0).tensor = none
    ∧ descLegal (descBytes 0x11 1) = true ∧ (parseDesc (descBytes 0x11 1)).1.dims = (parseDesc (descBytes 0x12 1)).1.dims
    ∧ copyF.fits 0 [1, 1] = true ∧ copyF.fits 0 [5, 1] = false :=
  ⟨runs_of (by decide), by decide, by decide, by decide, by decide, by decide, by decide, by decide⟩

/-- TensorAndTileRows: both descriptors are read. -/
theorem test_witness_tensorDescs :
    (match (sTensor 1).readDescs c0 ((sTensor 1).seen c0) [0x1000, 0x1040] with
      | .ok (_, l) => decide (l = [descBytes 0x11 1, descBytes 0x12 1])
      | _ => false) = true := by
  decide +kernel

/-- A tensor form at an element of a destination of two rows, one element each. -/
def runAt (i : Nat) : TensorRun :=
  let d (b : Nat) : TensorDesc := { base := b, fmt := 1, nt := false, dims := [1, 2, 1, 1], strides := [1, 1, 1] }
  { progress := 0x100C, start := 0, index := i, descs := [d 0x1100, d 0x1200] }
def groupOf (s : State) (i : Nat) : Except (GroupStop × State) (State × Flg) :=
  s.runGroup c0 (s.seen c0) (nth { base := 0, fmt := 0, nt := false, dims := [], strides := [] } (runAt i).descs 0) ((runAt i).descs.drop 1)
    (fun xs => copyF.op (s.seen c0).rnd 0 [1, 1] (xs ++ [])) i 1
def sRun (i : Nat) : State := (sTensor 1).modCore c0 (fun k => { k with tensor := some (runAt i) })

/-- TensorAndTileRows: a group that is not the last, the last one, a form at its end, and a source with poison. -/
theorem test_witness_tensorGroups :
    ((sRun 0).core c0).tensor = some (runAt 0) ∧ groupSize (1024 / copyF.width 0 [1, 1]) 1 0 = 1
    ∧ (match groupOf (sRun 0) 0 with | .ok _ => true | _ => false) = true
    ∧ (match groupOf (sRun 1) 1 with
        | .ok (t, g) => (match t.storeProgress c0 (((sRun 1).seen c0).flag g) (runAt 2) 0 with | .ok _ => true | _ => false)
        | _ => false) = true
    ∧ (match (sRun 2).storeProgress c0 ((sRun 2).seen c0) (runAt 2) 0 with | .ok _ => true | _ => false) = true
    ∧ (match groupOf ((sRun 0).setLine (.l1d c0) (0x40001200 / 128) { CacheLine.reset with st := .e, poison := true }) 0 with
        | .error (.data va, t) => decide (va = 0x1200) && (match t.storeProgress c0 ((sRun 0).seen c0) (runAt 0) 0 with | .ok _ => true | _ => false)
        | _ => false) = true := by
  decide +kernel

/-- TensorAndTileRows: a row of a tile with and without poison. -/
theorem test_witness_TileRows :
    (let s := sTile false
     let o := s.quad (s.tileOwner { cd := 0, cl := 0, arr := 0, q := 0 } 2)
     bit 3 7 = false ∧ o.bound = true ∧ o.ctx = s.cctx 0 ∧ s.inFlight 0 0 = [] ∧ (s.tile { cd := 0, cl := 0, t := 2 }).fmt ≠ 0xFF
     ∧ 3 < tileRows 0x19 ∧ (s.tile { cd := 0, cl := 0, t := 2 }).poison = false
     ∧ Runs s c0 px { bytes := 4, d := [4], types := [0x01, 0x02, 0x03, 0x04, 0x05, 0x0B, 0x0C, 0x0D, 0x0E, 0x0F, 0x10], sycenOnly := true }
     ∧ Runs s c0 px { bytes := 4, d := [4], types := [], sycenOnly := true }
     ∧ Runs s c0 (ty 0x19) { bytes := 4, d := [4], types := accFormats, sycenOnly := true })
    ∧ ((sTile true).tile { cd := 0, cl := 0, t := 2 }).poison = true :=
  ⟨⟨by decide, by decide, by decide, by decide, by decide, by decide, by decide, runs_of (by decide), runs_of (by decide), runs_of (by decide)⟩,
   by decide⟩

/-- CacheMaintenance: a line of tier 1, a line of the commons, user level, and PREFETCH with a line to ask for and without. -/
theorem test_witness_CacheMaintenance :
    (let s := mapped (k0.setA 3 0x2000)
     let k := s.seen c0
     Runs s c0 px { bytes := 3, d := [] } ∧ Runs s c0 px { bytes := 3, d := [], nt := true }
     ∧ s.coreTranslate c0 0x2000 .read = (.ok 0x40002000, s) ∧ s.coreTranslate c0 0x2000 .write = (.ok 0x40002000, s)
     ∧ (s.kindAt 0x40002000).sram = false ∧ (s.kindAt 0x40002000).device = false
     ∧ s.locate c0 k (eaOf { base := 3, mode := .base } k) { acc := .read, size := 1 } = (.ok [(0x40002000, 1)], s)
     ∧ s.locate c0 k (eaOf { base := 3, mode := .base } k) { acc := .write, size := 1 } = (.ok [(0x40002000, 1)], s)
     ∧ k.sbuf = [] ∧ k.maint = false ∧ (s.core c0).wait = none ∧ s.quiet (lineOf 0x40002000) = true ∧ k.status.pl ≠ .user
     ∧ s.prefetchLine c0 0x2000 = some (lineOf 0x40002000) ∧ s.prefetchLine c0 0x8000000000 = none)
    ∧ (let s := { mapped k0 with etus := [(0, { e0 with tlb := [{ ctx := 0, level := 1, vpage := 0, frame := sramAddr 0 none 0, ro := false }] })] }
       s.coreTranslate c0 0x2000 .read = (.ok (sramAddr 0 none 0x2000), s) ∧ (s.kindAt (sramAddr 0 none 0x2000)).sram = true)
    ∧ ((withCore (kAt .user)).seen c0).status.pl = .user :=
  ⟨⟨runs_of (by decide), runs_of (by decide), rfl, rfl, by decide, by decide, rfl, rfl, by decide, by decide, by decide, by decide, by decide, by decide,
    by decide⟩,
   ⟨rfl, by decide⟩, by decide⟩

/-- CacheMaintenance: an operation behind a line's open transaction, and one behind a message that can be served at once. -/
theorem test_witness_maintenanceOrdered :
    (let s := (mapped (k0.setA 3 0x2000)).setDirEntry 0 (lineOf 0x40002000) { DirEntry.reset with openFor := some .own, awaited := [.l1d c0] }
     s.quiet (lineOf 0x40002000) = false ∧ ((s.orderMaint c0 (lineOf 0x40002000) .clean).core c0).maint = true)
    ∧ (let s := { mapped (k0.setA 3 0x2000) with snoopq := [(0, [(lineOf 0x40002000, .recall)])] }
       s.quiet (lineOf 0x40002000) = false ∧ ((s.orderMaint c0 (lineOf 0x40002000) .clean).core c0).maint = false) := by
  decide +kernel

/-- A decode table with entry 0 valid for supervisor level and above, without operands, and one microword that ends at once. -/
def sCustom (k : Core) : State :=
  { withCore k with image := { Image.reset with
      secs := [(8, [0, 0x10, 0, 0, 0, 4, 0, 0]), (9, [1, 0, 0, 0, 0, 0, 0, 0, 0x40, 0xFF, 0xFF, 0xFF, 0xFF, 0, 0, 0])] } }

/-- CustomerInstructions: an entry that runs, a level above the entry's, and an entry byte out of range. -/
theorem test_witness_CustomerInstructions :
    (let s := sCustom k0
     let e := s.decodeEntry 0
     bit e 12 = true ∧ operandsFit e [] = true ∧ Runs s c0 px (customerShape e []) ∧ (s.seen c0).status.pl.num ≤ bits e 42 2)
    ∧ (let s := sCustom (kAt .user)
       bits (s.decodeEntry 0) 42 2 < (s.seen c0).status.pl.num ∧ Runs s c0 px (customerShape (s.decodeEntry 0) []))
    ∧ (¬((64 : Byte).toNat < 64) ∧ Runs s0 c0 px { bytes := 2, sycenOnly := true }) :=
  ⟨⟨by decide, by decide, runs_of (by decide), by decide⟩, ⟨by decide, runs_of (by decide)⟩, ⟨by decide, runs_of (by decide)⟩⟩


/-- The port of the first quadrant, and a state in which its partition is bound, with some words queued. -/
def pt : PartId := { cd := 0, cl := 0, arr := 0, q := 0 }
def cmdOf (ws : List Nat) : Cmd := { words := ws, seq := 1, order := 7, phase := .waiting, status := 0, count := 0 }
def qBound (queue : List Cmd) : Quad := { Quad.reset with bound := true, pmask := 15, queue := queue }
def sQuad (q : Quad) : State := (mapped k0).setQuad pt q
def fenceWords : List Nat := 6 :: List.replicate 7 0
def vFence : BitVec 16384 := 6

/-- ArrayPartitions: a FENCE that every check accepts, a nonzero entry bit, a posted address with a word and a misaligned one. -/
theorem test_witness_ArrayPartitions :
    (let s := sQuad (qBound [])
     Runs s c0 px { bytes := 3, d := [3], sycenOnly := true } ∧ (s.seen c0).sbuf = []
     ∧ s.acceptCheck pt (some (s.cctx (clusterKey 0 0))) false (wordsOf 6) = none
     ∧ s.acceptCheck pt (some (s.cctx (clusterKey 0 0))) true (wordsOf 6) = some 4)
    ∧ (let s := sQuad { qBound [] with fetching := [0x1001] }
       (s.quad pt).fetching = [0x1001] ∧ ((sQuad (qBound [])).fetchCommand 0 0 0x1001).1 = none
       ∧ mwf Quad.reset ((sQuad (qBound [])).fetchCommand 0 0 0x1001).2.quads = true)
    ∧ (let s := { sQuad (qBound []) with mem := memWrites [] 0x40001000 [6] }
       (s.fetchCommand 0 0 0x1000).1 = some fenceWords ∧ (s.fetchCommand 0 0 0x1000).2.acceptCheck pt none false fenceWords = none
       ∧ mwf Quad.reset (s.fetchCommand 0 0 0x1000).2.quads = true ∧ ((s.fetchCommand 0 0 0x1000).2.quad pt).fetching = []) :=
  ⟨⟨runs_of (by decide), by decide, by decide +kernel, by decide +kernel⟩, by decide +kernel, by decide +kernel⟩

/-- Command words: LOADB of one row of 16 INT8 elements at 1000h; MXA and MXZ of one vector into tile 0; DRAIN of one of its rows. -/
def loadbWords : List Nat := [1 + 2 ^ 8 * 1, 0x1000, 16 + 2 ^ 32 + 2 ^ 40 * 16, 0, 0, 0, 0, 0]

def vecB : BBuf := { full := true, fmt := 1, k := 1, n := 4, elems := [1, 2, 3, 4], scales := [] }
def mxWords (op : Nat) : List Nat := [op + 2 ^ 8 * 1 + 2 ^ 16 * 3, 0x1000, 16 + 2 ^ 32, 0, 0, 0, 0, 0]
def drainWords : List Nat := [4 + 2 ^ 8 * 1, 0x1000, 16, 0, 0, 0, 0, 2 ^ 32 + 2 ^ 46 * 4]
def sMx (ws : List Nat) : State :=
  { (sQuad { qBound [cmdOf ws] with bact := vecB }).setTile { cd := 0, cl := 0, t := 0 } { Tile.reset with fmt := 3 } with
    mem := memWrites [] 0x40001000 [5] }

/-- 05 R138: one vector of one element, 5, times a row of B: the tile's row 0 is their products. -/
theorem test_mxaProducts :
    (let x := (after (.mxa pt none) (sMx (mxWords 2))).tile { cd := 0, cl := 0, t := 0 }
     (x.at 0 0, x.at 0 1, x.at 0 3, x.at 0 4)) = (5, 10, 20, 0) := by decide +kernel

/-- ArrayCommandsIssue: a command of each kind that is ready; rows that all load; a FENCE; one that has issued; an error before
the first row. -/
theorem test_witness_ArrayCommandsIssue :
    (let s := sQuad (qBound [cmdOf loadbWords])
     s.ready pt 1 = some (cmdOf loadbWords) ∧ (cmdOf loadbWords).count ≤ fld loadbWords 2 32 7
     ∧ (carry (State.loadRow pt loadbWords) (countFrom 0 1) s).2.isNone = true)
    ∧ ((sMx (mxWords 2)).ready pt 2 = some (cmdOf (mxWords 2)) ∧ fld (mxWords 2) 2 32 7 = 1
       ∧ (carry (State.vecStep pt (mxWords 2)) (countFrom 0 1) (sMx (mxWords 2))).2.isNone = true)
    ∧ ((sMx (mxWords 3)).ready pt 3 = some (cmdOf (mxWords 3))
       ∧ (carry (State.vecStep pt (mxWords 3)) (countFrom 0 1) (sMx (mxWords 3))).2.isNone = true)
    ∧ ((sMx drainWords).ready pt 4 = some (cmdOf drainWords) ∧ dMcnt drainWords = 1
       ∧ (carry (State.drainStep pt drainWords) (countFrom 0 1) (sMx drainWords)).2.isNone = true)
    ∧ (sQuad (qBound [cmdOf [0x1905, 0, 0, 0, 0, 0, 0, 0]])).ready pt 5 = some (cmdOf [0x1905, 0, 0, 0, 0, 0, 0, 0])
    ∧ (sQuad (qBound [cmdOf fenceWords])).ready pt 6 = some (cmdOf fenceWords)
    ∧ (let c : Cmd := { cmdOf fenceWords with phase := .issued }
       let s := sQuad (qBound [c])
       s.partRuns pt = true ∧ c.phase = .issued ∧ (s.quad pt).queue = [] ++ c :: [])
    ∧ (cmdOf loadbWords).count = 0 ∧ 0 < fld loadbWords 2 32 7
    ∧ (carry (State.loadRow pt loadbWords) (countFrom 0 0) (sQuad (qBound [cmdOf loadbWords]))).2.isNone = true := by
  decide +kernel

/-- TranslationAndWithdrawal: a requester that makes accesses, one page that is mapped and one that is not, a batch handed over, a
legal range, a withdrawal with one requester awaited. -/
theorem test_witness_TranslationAndWithdrawal :
    (let s := mapped k0
     requesterEtu (.sequencer 0 0) = .cd 0 ∧ s.requesterCtx (.sequencer 0 0) = 0 ∧ s.requesting (.sequencer 0 0) = true ∧ s.etuUp (.cd 0) = true
     ∧ (∃ pa, (s.translate (.cd 0) 0 0x2000 .read true).1 = .ok pa)
     ∧ (match (s.translate (.cd 0) 0 0x8000000000 .read true).1 with | .ok _ => false | _ => true) = true)
    ∧ (let x : Etu := { e0 with outstanding := some [], outSeq := 5 }
       x.outstanding = some [] ∧ (0x50001 : Word).getLsbD 0 = !x.collBuf ∧ (0x50001 : Word).extractLsb' 16 16 = x.outSeq
       ∧ x.wdBusy = false ∧ e0.outstanding = none ∧ (0x40 : Word).getLsbD 6 = true)
    ∧ (let x : Etu := { e0 with wdBase := 0x1000, wdLimit := 0x1FFF }
       x.wdBase.toNat ≤ x.wdLimit.toNat ∧ x.wdBase.toNat % 4096 = 0 ∧ (x.wdLimit.toNat + 1) % 4096 = 0)
    ∧ (let x : Etu := { e0 with wdBusy := true, wdAwaited := [.sequencer 0 0] }
       x.wdBusy = true ∧ x.wdStuck = false ∧ Requester.sequencer 0 0 ∈ x.wdAwaited ∧ x.wdAwaited ≠ []
       ∧ (mapped k0).inFlightOld (.sequencer 0 0) = false) :=
  ⟨⟨by decide, by decide, by decide, by decide, ⟨_, rfl⟩, by decide +kernel⟩, by decide, by decide, by decide⟩

/-- TranslationAndWithdrawal: a stream of eight tiles and one that ends before the fourth tile ahead; no stream. -/
theorem test_witness_prefetch :
    let d (n : Nat) : TensorDesc := { base := 0x2000, fmt := 1, nt := false, dims := [n, 1, 1, 1], strides := [0, 0, 0] }
    let s := mapped { k0 with tensor := some { progress := 0, start := 0, index := 0, descs := [d 0x8000, d 16] } }
    (s.etu (.cd 0)).pfDis = false ∧ s.etuUp (.cd 0) = true
    ∧ (match s.announced (.sequencer 0 0) 0 with
        | some (_, l) => decide (fourTilesAhead l = some 6)
        | none => false) = true
    ∧ (match s.announced (.sequencer 0 0) 1 with
        | some (_, l) => (fourTilesAhead l).isNone
        | none => false) = true
    ∧ (s.announced (.sequencer 0 0) 2).isNone = true := by
  decide +kernel

/-- A section 02h that binds every cluster, engine mask and mover to context 0. -/
def boundAll : State := { mapped k0 with image := { Image.reset with secs := [(2, List.replicate 1536 0 ++ List.replicate 224 1 ++ List.replicate 96 0)] } }
def engCmd (ws : List Nat) (ph : CmdPhase) : EngCmd :=
  { words := ws, ctx := 0, cl := none, seq := 9, phase := ph, status := 0, count := 0, result := 0, nv := false, of := false, dz := false
    descs := [], ops := [] }
def eRand : EngineId := ⟨0, .rand⟩
def sEng (e : EngineId) (x : Engine) : State := boundAll.setEngine e x
def waitingAt (e : EngineId) (ws : List Nat) : State := sEng e { Engine.reset with queue := [engCmd ws .waiting] }

/-- EngineInterface: a posted address that cannot be fetched, one whose word is accepted, one whose word is not; a head that retires; a
fault with its records acknowledged; a die without power; a capture that is due; a COLLRECV that is open. -/
theorem test_witness_EngineInterface :
    (((sEng eRand { Engine.reset with fetching := [{ va := 1, ctx := 0, cl := none }] }).engine eRand).fetching = [{ va := 1, ctx := 0, cl := none }]
     ∧ ((sEng eRand Engine.reset).fetchCommand 0 0 1).1 = none)
    ∧ (let s := { sEng eRand Engine.reset with mem := memWrites [] 0x40001000 [1] }
       (s.fetchCommand 0 0 0x1000).1 = some [1, 0, 0, 0, 0, 0, 0, 0]
       ∧ (s.fetchCommand 0 0 0x1000).2.engineCheck eRand 0 [1, 0, 0, 0, 0, 0, 0, 0] = none
       ∧ (s.fetchCommand 0 0 0x1000).2.engineCheck eRand 1 [1, 0, 0, 0, 0, 0, 0, 0] = some 2
       ∧ ((s.fetchCommand 0 0 0x1000).2.engRing eRand 1).enable = false)
    ∧ (let s := sEng eRand { Engine.reset with queue := [engCmd [1] .issued] }
       s.engineWorks eRand = true ∧ s.sendDone eRand (engCmd [1] .issued) = true)
    ∧ (let s := sEng eRand { Engine.reset with st := .fault }
       (s.engine eRand).st = .fault ∧ s.engineAcked 0 = true ∧ (boundAll.engine eRand).st ≠ .fault)
    ∧ ((State.reset.cdUp 0 = false) ∧ boundAll.cdUp 0 = true)
    ∧ (let s := { boundAll with snap := { Snap.reset with captureDue := [0] } }
       s.snap.captureDue.contains 0 = true ∧ (∀ c ∈ (s.engine eRand).queue, c.phase ≠ .started) ∧ boundAll.snap.captureDue.contains 0 = false)
    ∧ (let o : CollOp := { rank := 1, src := 5, got := 0, last := false }
       let c : EngCmd := { engCmd [3] .started with ops := [o] }
       let s := sEng ⟨0, .cre⟩ { Engine.reset with queue := [c] }
       s.openRecv 0 = some c ∧ c.ops.filter (fun o => !o.last) = o :: [] ∧ (s.creState 0).timedOut = false ∧ s.frozen = false) := by
  decide +kernel

/-- EngineCommands: for each operation its engine with that command at the head. -/
theorem test_witness_EngineCommands :
    ([(⟨0, .txe⟩, 1), (⟨0, .sel⟩, 1), (⟨0, .sel⟩, 2), (⟨0, .gse⟩, 1), (⟨0, .gse⟩, 2), (⟨0, .gse⟩, 3), (eRand, 1), (eRand, 2), (eRand, 3), (eRand, 4),
      (⟨0, .cre⟩, 1), (⟨0, .cre⟩, 2), (⟨0, .cre⟩, 3), (⟨0, .tre⟩, 1), (⟨0, .lze⟩, 1), (⟨0, .lze⟩, 2)] : List (EngineId × Nat)).all (fun x =>
      let s := waitingAt x.1 [x.2, 0, 0, 0, 0, 0, 0, 0]
      decide ((s.engine x.1).queue = [engCmd [x.2, 0, 0, 0, 0, 0, 0, 0] .waiting]) && s.engineWorks x.1 && !(s.engine x.1).parked && !(s.engine x.1).ringParked
      && decide (cOp [x.2, 0, 0, 0, 0, 0, 0, 0] = x.2)) = true := by
  decide +kernel

/-- 11 R284: SETSTREAM gives the stream its key and counter; GETSTREAM of a free stream ends with status 02h. -/
theorem test_setstream :
    ((after (.setstream eRand none) (waitingAt eRand [1, 5, 7, 0, 9, 0, 0, 0])).rand 0 5) = { owned := true, owner := 0, key := 7, ctr := 9 } := by decide +kernel
theorem test_getstreamFree :
    ((after (.getstream eRand none) (waitingAt eRand [2, 5, 0x1000, 0, 0, 0, 0, 0])).engine eRand).queue.map (fun c => (c.phase, c.status)) = [(.issued, 2)] := by
  decide +kernel

/-- EngineCommands: a stream that is free, so that SETSTREAM completes and FREESTREAM stops; a rank that holds a COLLRECV. -/
theorem test_witness_engineWork :
    ((waitingAt eRand [3, 5, 0, 0, 0, 0, 0, 0]).startHead eRand (engCmd [3, 5, 0, 0, 0, 0, 0, 0] .waiting)).1.phase = .started
    ∧ ((waitingAt eRand [3, 5, 0, 0, 0, 0, 0, 0]).rand 0 5).owned = false := by decide +kernel
theorem test_witness_collrecvHolds :
    let c : EngCmd := { engCmd [3, 0x1000, 0, 0, 0, 0, 0, 0] .started with ops := [{ rank := 1, src := 5, got := 0, last := false }] }
    (match takeHeld ⟨0, .cre⟩ 1 c (waitingAt ⟨0, .cre⟩ c.words) with
      | .go c1 _ => !c1.ops.all (·.last)
      | _ => false) = true := by decide +kernel

/-- A descriptor of a copy of one byte from 1000h to 2000h. -/
def copyDesc (xform : Nat) : List Word := [BitVec.ofNat 64 (4 * xform), 0x1000, 0x2000, 1, 0, 0, 0, 0]
def mv : MoverId := .cluster 0 0 0
def sMover (x : Mover) : State := boundAll.setMover mv x

/-- MoverChannels: a descriptor of each transform in execution, with one that comes to its end; channels that are idle, halted and unbound. -/
theorem test_witness_MoverChannels :
    ((countFrom 0 4).all (fun xf =>
       let s := sMover { Mover.reset with st := .run, desc := copyDesc xf }
       decide ((s.mover mv).st = .run ∧ (s.mover mv).desc ≠ [] ∧ (s.mover mv).handing = none ∧ dXform (s.mover mv).desc = xf ∧ s.frozen = false)
       && s.moverUp mv) = true)
    ∧ (let s := sMover { Mover.reset with st := .run, desc := copyDesc 0 }
       (State.mvRun mv 4 s).1.isNone = true)
    ∧ (let s := sMover { Mover.reset with st := .run, desc := [0, 0x8000000000, 0x2000, 1, 0, 0, 0, 0] }
       (State.mvRun mv 4 s).1.isSome = true)
    ∧ (boundAll.moverByte mv < 128 ∧ boundAll.moverUp mv = true ∧ ((sMover { Mover.reset with st := .halted, cause := 1 }).mover mv).st = .halted
       ∧ (boundAll.mover mv).st = .idle ∧ ¬(on.moverByte mv < 128)) := by
  decide +kernel

/-- 12 R292: COPY moves the byte. -/
theorem test_moverCopies :
    (let s := { sMover { Mover.reset with st := .run, desc := copyDesc 0, base := 0x100 } with mem := memWrites [] 0x40001000 [0x5A] }
     (after (.moverCopy mv) s).byteAt 0x40002000) = 0x5A := by decide +kernel

/-- The line at 4000_2000h, with what a cache has of it. -/
def put (l : CacheId) (x : CacheLine) : State := (mapped k0).setLine l n0 x

/-- A state with one fill whose entry awaits its acknowledgement. -/
def filling (g : CacheLine) : State := (put l0 g).setDirEntry 0 n0 { DirEntry.reset with openFor := some .own, awaited := [l0] }

/-- CoherenceTraffic, requests: a line not held, one in S, one on the way to M; messages with the hold window closed and open, two of
them, and of a line that a constrained pair holds; a message to an L2; a way to take and a line in place, whose entry awaits the
fill's acknowledgement; a grant in F beside the holder of F. -/
theorem test_witness_CoherenceRequests :
    (let m : Snoop := .inval (.l2 0)
     let got (x : CacheLine) (p : CacheLine → Bool) : Bool := p ((put l0 x).line l0 n0)
     ((mapped k0).line l0 n0).st = .i ∧ 160 ≤ cacheKey l0 ∧ cacheKey l0 < 352 ∧ CacheId.l2 1 ≠ dieL2 (dirOf (cacheKey l0))
     ∧ got { CacheLine.reset with st := .s } (fun x => decide (x.st = .s)) = true
     ∧ got { CacheLine.reset with tr := .im } (fun x => decide (x.tr = .im)) = true
     ∧ got { CacheLine.reset with st := .m } (fun x => decide (x.st = .m)) = true
     ∧ got { CacheLine.reset with st := .e } (fun x => decide (x.st = .e)) = true
     ∧ got { CacheLine.reset with st := .s, snoops := [m] } (fun x => !x.hold && decide (x.tr = .none ∧ x.snoops = [m])) = true
     ∧ got { CacheLine.reset with st := .s, snoops := [m, m], hold := true } (fun x => x.hold && decide (x.snoops = [m, m])) = true
     ∧ got { CacheLine.reset with st := .s, hold := true } (fun x => x.hold && decide (x.snoops = [])) = true
     ∧ (put l0 { CacheLine.reset with st := .s, hold := true }).pinned n0 = false
     ∧ (held (mapped { k0 with resv := some n0, pair := some 3 }) n0 .e).pinned n0 = true
     ∧ mget [] ({ mapped k0 with snoopq := [(0, [(n0, .recall)])] } : State).snoopq 0 = [(n0, .recall)])
    ∧ (let s := filling { CacheLine.reset with granted := some .s }
       (s.line l0 n0).granted = some .s ∧ (s.line l0 n0).awaits = 0 ∧ (s.line l0 n0).st = .i
       ∧ (s.dirEntry 0 n0).awaited = [l0])
    ∧ (let g : CacheLine := { CacheLine.reset with st := .s, granted := some .m }
       ((put l0 g).line l0 n0).st ≠ .i ∧ ((put l0 g).line l0 n0).granted = some .m)
    ∧ (let c : CoreId := .sycen 0 1
       let s := (filling { CacheLine.reset with granted := some .f }).setLine (.l1d c) n0 { CacheLine.reset with st := .f }
       (s.line l0 n0).granted = some .f ∧ dirOf (cacheKey l0) < 4 ∧ dirOf (cacheKey (.l1d c)) = dirOf (cacheKey l0)
       ∧ cacheKey (.l1d c) ≠ cacheKey l0 ∧ n0 < 2 ^ 48 ∧ (s.line (.l1d c) n0).st = .f) := by
  decide +kernel

theorem test_witness_fillPlace :
    let s := filling { CacheLine.reset with granted := some .s }
    s.place (cacheKey l0) n0 0 = (some 0, s) := rfl

/-- CoherenceTraffic, parity errors, evictions and uncached accesses: errors beside a line that stays; lines that have left their way;
an address of normal memory, and one of a module far away. -/
theorem test_witness_parityAndEvictions :
    (let two (st : LineState) : State := (put l0 { CacheLine.reset with st := st }).setLine (.l1i c0) n0 { CacheLine.reset with st := .s }
     ((((two .s).dropClean l0 n0).report (parityRec l0 n0 false)).line (.l1i c0) n0).st ≠ .i ∧ ((two .s).line l0 n0).st = .s
     ∧ ((((two .s).dropClean (.l1i c0) n0).report (parityRec (.l1i c0) n0 false)).line l0 n0).st ≠ .i ∧ cacheKey (.l1i c0) < 160
     ∧ (((two .m).report (parityRec l0 n0 true)).line l0 n0).st = .m ∧ 160 ≤ cacheKey l0)
    ∧ (((put l0 { CacheLine.reset with tr := .mi }).line l0 n0).tr = .mi ∧ dirOf (cacheKey l0) < 4
       ∧ ((put l0 { CacheLine.reset with tr := .ei }).line l0 n0).tr = .ei ∧ ((mapped k0).line l0 n0).tr = .none)
    ∧ (((mapped k0).kindAt 0x40002000).normal = true ∧ (mapped k0).busOk 0x40002000 8 = true
       ∧ (linesOf 0x40002000 8).any ((mapped k0).inputHeld (.cd 0)) = false
       ∧ (linesOf 0x40002000 8).any (((mapped k0).setDirEntry 0 n0 { DirEntry.reset with missers := List.replicate 9 (.read l0) }).inputHeld (.cd 0)) = true ∧ 128 < 0x4000207C % 128 + 8 ∧ (mapped k0).busOk 0x4000207C 8 = true
       ∧ ((mapped k0).dirEntry (uncachedDir (.cd 0)) n0).batch = []
       ∧ ((mapped k0).kindAt (sramAddr 0 none 0)).normal = false) := by
  decide +kernel

/-- Memory with every domain powered and one block changed. -/
def sBlock (x : MemBlock) : State := on.setBlock (.mb 0) x

/-- TierReadsAndWrites: an address of a tile of tier 1 and one of tier 2, of normal memory, not dirty; below the threshold and at it. -/
theorem test_witness_TierReadsAndWrites :
    on.dramTile 0x40001080 = some (.mb 0, 0x40001) ∧ on.dramTile 0x10000001000 = some (.hd, 1) ∧ (on.kindAt 0x40001080).normal = true
    ∧ on.tileOf 0x40001080 = some (.mb 0, 0x40001) ∧ on.isDirty (lineOf 0x40001080) = false
    ∧ (on.block (.mb 0)).remapThresh.toNat = 4 ∧ (trackRow [(9, 2)] 9).2 = 3 ∧ (trackRow [(9, 3)] 9).2 = 4
    ∧ (on.kindAt 0x10000001080).normal = true ∧ on.verifies (.sealEngine (.mb 0)) = true ∧ on.verifies (.mover (.cluster 0 0 0)) = false := by
  decide +kernel

/-- SealEngine: busy and idle, a range of no tile, of one, of the most, and one tile more; a running command; a page that may move. -/
theorem test_witness_SealEngine :
    ((sBlock { MemBlock.reset with seBusy := true }).block (.mb 0)).seBusy = true ∧ (on.block (.mb 0)).seBusy = false
    ∧ MemBlock.reset.range (.mb 0) = none
    ∧ ({ MemBlock.reset with seCount := 1 } : MemBlock).range (.mb 0) = some (0, 1)
    ∧ ({ MemBlock.reset with seStart := 0x23F0000, seCount := 65536 } : MemBlock).range (.mb 0) = some (0x23F0000, 65536)
    ∧ ({ MemBlock.reset with seStart := 0x23F0001, seCount := 65536 } : MemBlock).range (.mb 0) = none
    ∧ (on.etu (blockEtu (.mb 0))).maint = true ∧ ((mapped k0).etu (blockEtu (.mb 0))).maint = false
    ∧ (let c : SealCmd := { op := 1, irq := true, result := 0, done := 1 }
       ((sBlock { MemBlock.reset with seBusy := true, seCmd := some c }).block (.mb 0)).seCmd = some c)
    ∧ (let k : MemBlock := { MemBlock.reset with seStart := 5 + 2 ^ 11 * 2 }
       k.moving = none ∧ bits k.seStart.toNat 0 11 < blockPages (.mb 0) ∧ (∀ i < 4, (sBlock k).poolPage (.mb 0) i ≠ bits k.seStart.toNat 0 11)
       ∧ bits k.seStart.toNat 13 19 = 0 ∧ (∀ r ∈ k.redirects, r.slot ≠ 2))
    ∧ ((sBlock { MemBlock.reset with moving := some (5, 2, true) }).block (.mb 0)).moving = some (5, 2, true) := by
  decide +kernel

/-- RepairAndLinks: a row with a free spare and another besides, a queue that holds a granule, the eighth failure and the ninth. -/
theorem test_witness_RepairAndLinks :
    (let k : MemBlock := { MemBlock.reset with remaps := [{ stack := 0, row := 3 }] }
     let s := sBlock k
     (s.block (.mb 0)).remaps = [{ stack := 0, row := 3 }] ∧ s.frozen = false ∧ s.power.failStop = none
     ∧ (s.stack 0).spareOf 3 = none ∧ (s.stack 0).freeSpare 0 = some 0
     ∧ ({ s.stack 0 with cam := mset 8 (s.stack 0).cam 3 0 } : StackState).freeSpare 0 = some 1 ∧ k.patrol + 1 < blockTiles (.mb 0)
     ∧ k.unlogged = [] ∧ k.autoDis = false)
    ∧ ((sBlock { MemBlock.reset with unlogged := [rowLogWord 1 0 3 0] }).block (.mb 0)).unlogged = [rowLogWord 1 0 3 0]
    ∧ ((sBlock { MemBlock.reset with retq := [4] }).block (.mb 0)).retq = [4]
    ∧ (let s : State := { on with links := [(0, { fwd := 8, back := 0, down := false }), (1, { fwd := 0, back := 7, down := false }),
         (2, { fwd := 0, back := 0, down := true })] }
       8 ≤ (mget LinkState.reset s.links (linkIds (.hd 0)).1).fwd ∧ (mget LinkState.reset s.links (linkIds (.hd 1)).1).back < 8
       ∧ (mget LinkState.reset s.links (linkIds (.hd 2)).1).down = true) := by
  decide +kernel

/-- 01 R21: the ninth failure of one flit brings the link down; a good flit of the other direction does not clear the count. -/
theorem test_linkDown :
    (mget LinkState.reset (after (.dieLinkFlitReceive (.hd 0) true false)
      { on with links := [(0, { fwd := 8, back := 0, down := false })] }).links 0).down = true := by
  decide +kernel
theorem test_linkDirections :
    (mget LinkState.reset (after (.dieLinkFlitReceive (.hd 0) false true)
      { on with links := [(0, { fwd := 5, back := 2, down := false })] }).links 0) = { fwd := 5, back := 0, down := false } := by
  decide +kernel

/-- 15 R359: the header laid out by hand for `VC` 1, `LAST`, `FSEQ` 5, `DST` 12345h and 3 bytes of payload, and its check code. -/
theorem test_flitHeader :
    let f : Flit := { nullFlit with ftype := 1, vc := 1, last := true, fseq := 5, dst := 0x12345, payload := [7, 8, 9] }
    f.header = [0x51, 5, 0, 0, 0x45, 0x23, 0x01, 0, 0, 0, 0, 0, 0, 0, 0, 0, 0, 0, 0, 0, 0, 3, 0, 0, 0, 0, 0, 0]
    ∧ flitGood f.bytes = true ∧ Flit.ofBytes f.bytes = f ∧ flitGood (List.replicate 256 0) = false := by
  decide +kernel

/-- A fabric flit for module 0, and ports whose roles and peers section 03h gives: port 0 a link to port 2 of module 7, port 1 looped. -/
def flit1 : Flit := { nullFlit with ftype := 1, vc := 0 }
def sPort (x : Port) : State :=
  { on with
    image := { Image.reset with secs := [(3, [0x21, 7, 0, 0, 0, 0, 0, 0, 0x13, 9, 0, 0, 0, 0, 0, 0] ++ List.replicate 80 0)] }
    ports := [(0, x), (1, { Port.reset with st := .training })] }
def up0 (rxq : List Flit) : Port := { Port.reset with st := .up, rxq := rxq }

/-- FabricTraffic: ports: a flit for this module and for another, out of sequence, with a reserved bit; a replay request; training with
the peer of the image and another. -/
theorem test_witness_FabricPorts :
    (let s := sPort (up0 [])
     (s.port 0).carries = true ∧ flit1.reserved = 0 ∧ flit1.ftype = 1 ∧ flit1.fseq = (s.port 0).rxSeq.toNat ∧ flit1.dst = s.moduleId
     ∧ ({ flit1 with dst := 3 } : Flit).dst ≠ s.moduleId ∧ (s.port 0).st ≠ .loopback ∧ (s.port 2).carries = false
     ∧ flitGood flit1.bytes = true ∧ Flit.ofBytes flit1.bytes = flit1 ∧ (Flit.ofBytes nullFlit.bytes).ftype = 0 ∧ flitGood nullFlit.bytes = true
     ∧ (Flit.ofBytes { flit1 with fseq := 9 }.bytes).fseq ≠ (s.port 0).rxSeq.toNat)
    ∧ ((sPort { Port.reset with st := .loopback, loop := [flit1.bytes] }).port 0).loop = [flit1.bytes]
    ∧ ((sPort { Port.reset with st := .loopback }).port 0).loop = []
    ∧ (let g : Flit := { nullFlit with ftype := 3, payload := [1, 4] }
       let r := (sPort (up0 [g])).takeFlit 0 (fun g => decide (g.ftype = 3))
       let owes : Port := { up0 [g] with replay := [{ flit1 with fseq := 4 }] }
       let s1 (n : Nat) : State := ((sPort { owes with nackSeq := 4, failedReplays := n }).takeFlit 0 (fun g => decide (g.ftype = 3))).2
       let left (s : State) : List Flit := (s.port 0).replay.dropWhile (fun h => decide (h.fseq ≠ 4))
       r.1 = some g ∧ g.payload = [1, 4] ∧ left r.2 = [] ∧ (r.2.port 0).failedReplays = 0
       ∧ ((countFrom 0 9).all (fun n => decide (left (s1 n) ≠ [] ∧ (s1 n).power.failStop = none ∧ ((s1 n).port 0).nackSeq = 4
           ∧ ((s1 n).port 0).failedReplays = n))) = true
       ∧ ((sPort (up0 [{ g with payload := [0, 4] }])).takeFlit 0 (fun g => decide (g.ftype = 3))).1 = some { g with payload := [0, 4] })
    ∧ (let s := sPort { Port.reset with st := .training }
       (s.port 0).st = .training ∧ s.powered 9 = true ∧ s.portRole 0 = 1 ∧ s.portPeerId 0 = 7 ∧ s.portPeerPort 0 = 2
       ∧ (s.port 1).st = .training ∧ s.portRole 1 = 3 ∧ s.portPeerId 1 = 9 ∧ s.portPeerPort 1 = 1 ∧ s.moduleId ≠ 9
       ∧ (let t : State := { s with image := { Image.reset with secs := [(3, [0, 0, 0, 0, 0, 0, 0, 0, 0x13, 0, 0, 0, 0, 0, 0, 0] ++ List.replicate 80 0)] } }
          t.portRole 1 = 3 ∧ t.moduleId = t.portPeerId 1 ∧ 1 = t.portPeerPort 1)) := by
  decide +kernel

/-- Section 0Ah with port 0 for the Bridle, section 04h with partner 7, and a pairing flit of that partner. -/
def bSecs : SMap (List Byte) := [(4, List.replicate 100 0), (10, List.replicate 10 0 ++ [1, 0] ++ List.replicate 20 0)]
def sBridle (rxq : List Flit) (x : Snap) : State := { on with image := { Image.reset with secs := bSecs }, ports := [(0, up0 rxq)], snap := x }
def bFlit (kind : Nat) (b : List Byte) : Flit := { nullFlit with ftype := 2, vc := 1, ctx := kind, payload := b }

/-- FabricTraffic: a flit for a COLLRECV that takes it, one held without a match, a pairing that holds and one that does not, slot data
and a manifest for the ward. -/
theorem test_witness_FabricDeliveries :
    ((sPort (up0 [flit1])).cdUp 0 = true ∧ ((sPort (up0 [flit1])).port 0).rxq.find? (fun g => decide (g.ftype = 1) && decide (g.dcd = 0)) = some flit1
     ∧ ((sPort (up0 [flit1])).deliverColl 0 (some 0) flit1).1 = true)
    ∧ (let s := (sPort (up0 [])).setCreState 0 { CreState.reset with localq := [flit1] }
       (s.creState 0).localq = [flit1] ∧ (s.deliverColl 0 none flit1).1 = true)
    ∧ (let s (o : Option (Fin 12)) := (sPort (up0 [])).setCreState 0 { CreState.reset with held := [(o, flit1)] }
       (s none).openRecv 0 = none ∧ ((s (some 0)).creState 0).held = [(some 0, flit1)] ∧ ((s none).creState 0).held = [(none, flit1)])
    ∧ (let b : PairInfo := { id := 2, feed := 2, bridleFeed := 1, bridleId := 1, home := 0, drawerGib := 0 }
       let f := { bFlit 2 b.bytes with src := 2 }
       let s (x : Snap) : State := { sBridle [f] x with image := { Image.reset with
         secs := [(4, [1, 0, 0, 0, 0, 0, 0, 0, 1, 0, 2, 0, 2, 0, 0, 0]), (10, List.replicate 10 0 ++ [1, 0] ++ List.replicate 20 0)] } }
       let s1 := ((s Snap.reset).takeBridle 0 2).2
       let a := s1.pairInfo
       ((s Snap.reset).takeBridle 0 2).1 = some f ∧ s1.seeksPair = true ∧ f.src = s1.bridleId ∧ PairInfo.ofBytes f.payload = b
       ∧ (s Snap.reset).seeksPair = true ∧ on.seeksPair = false ∧ (s Snap.reset).snap.peer = none
       ∧ (s { Snap.reset with peer := some b }).snap.peer = some b ∧ (s { Snap.reset with peer := some b }).seeksPair = true
       ∧ pairReason a b = 0 ∧ pairReason b a = 0 ∧ pairReason a { b with bridleId := 4 } ≠ 0
       ∧ pairReason a { b with id := 3 } = 0 ∧ pairReason { b with id := 3 } a ≠ 0
       ∧ (s { Snap.reset with pairSent := true }).snap.pairSent = true ∧ (s Snap.reset).snap.pairSent = false)
    ∧ (let x : Snap := { Snap.reset with phase := .copy, paired := true, streaming := true }
       ([0, 1, 3] : List Nat).all (fun kind =>
         let s := sBridle [bFlit kind (leBytes 8 0)] x
         decide ((s.takeBridle 0 kind).1 = some (bFlit kind (leBytes 8 0))) && decide ((s.takeBridle 0 kind).2.intake (bFlit kind (leBytes 8 0)) = .ward)
         && decide ((s.takeBridle 0 kind).2.snap.wardBytes = leNat ((leBytes 8 0).take 8))) = true) := by
  decide +kernel

/-- Section 04h of a top Spool of identity 5 whose Tether port 0 leads up to module 6 and port 1 down to module 7, and a token on each. -/
def tSecs (role : Nat) : SMap (List Byte) :=
  [(4, leBytes 4 (5 + 2 ^ 20 * role) ++ List.replicate 12 0 ++ leBytes 8 (6 + 2 ^ 20 * 1) ++ leBytes 8 (7 + 2 ^ 20 * 2) ++ List.replicate 60 0)]
def sTether (role : Nat) (x : Tether) : State := { on with image := { Image.reset with secs := tSecs role }, tether := x }
def tok (p : Fin 8) : TokenIn := { port := p, origin := 7, tseq := 3, crcOk := true, half := false }

/-- TetherStopsAndNotices: a token not yet taken and one taken, from above and from below; a neighbour not yet lost; a notice that waits. -/
theorem test_witness_TetherStopsAndNotices :
    (let s := sTether 0 Tether.reset
     s.powered 0 = true ∧ s.tdir 0 = 1 ∧ s.tdir 1 = 2 ∧ s.tdir 2 = 0 ∧ (tok 0).crcOk = true
     ∧ ((tok 0).origin, (tok 0).tseq) ∉ s.tether.stopsTaken ∧ (s.tport 1).gone = false ∧ s.tether.notices = []
     ∧ (tok 0).half = false ∧ (s.tport 0).held = none)
    ∧ ((7, 3) ∈ (sTether 0 { Tether.reset with stopsTaken := [(7, 3)] }).tether.stopsTaken)
    ∧ (let n : Notice := { code := 1, data := 2, origin := 7, subject := 8 }
       (sTether 0 { Tether.reset with notices := [n] }).tether.notices = n :: []) := by
  decide +kernel

/-- TokenBlocks: with nothing held, with the first block of the same token held, and with that of another. -/
theorem test_witness_TokenBlocks :
    (let s := sTether 0 Tether.reset
     s.powered 0 = true ∧ s.tdir 1 ≠ 0 ∧ (s.tport 1).held = none ∧ ({ tok 1 with half := true } : TokenIn).half = true)
    ∧ (let first := TokenIn.block (tok 1) (noticeBody 1 4 9)
       let s := (sTether 0 Tether.reset).setTport 1 { TPort.reset with held := some first }
       (s.tport 1).held = some first ∧ s.powered 0 = true ∧ s.tdir 1 ≠ 0 ∧ (tok 1).half = false ∧ (tok 1).crcOk = true
       ∧ first ≠ TokenIn.block (tok 1) (noticeBody 1 5 9)) := by
  decide +kernel

/-- 15 R373: a first block and the block after it are one token. -/
theorem test_heldBlockJoins :
    (let s := (sTether 0 Tether.reset).setTport 1 { TPort.reset with held := some (TokenIn.block (tok 1) (reduceBody 0 0 0 5 7)) }
     ((after (.reduceUp (tok 1) 0 0 5 7) s).tport 1).held = none ∧ (after (.reduceUp (tok 1) 0 0 5 7) s).tether.tcrcErr = 0
     ∧ (after (.reduceUp (tok 1) 0 0 5 8) s).tether.tcrcErr = 1) := by
  decide +kernel

/-- The same module as a top Spool without an up port. -/
def sTop (x : Tether) : State :=
  { on with
    image := { Image.reset with secs := [(4, leBytes 4 (5 + 2 ^ 21) ++ List.replicate 12 0 ++ List.replicate 8 0 ++ leBytes 8 (7 + 2 ^ 20 * 2)
      ++ List.replicate 60 0)] }
    tether := x }
def bar5 : BarSlot := { slot := 0, id := 5, own := false, ports := [1], sentUp := false }
def red5 : RedSlot := { slot := 2, op := 0, id := 5, operands := [(1, 7)], sentUp := false }

/-- BarrierSlots: a slot that lacks the own arrival, one with all, below and at the top; a free slot, and none. -/
theorem test_witness_BarrierSlots :
    (let s (b : BarSlot) : State := sTether 0 { Tether.reset with bars := [b] }
     (s bar5).barSlot 5 = some bar5 ∧ 2 ∉ bar5.ports ∧ 1 ∈ bar5.ports ∧ bar5.own = false ∧ (s bar5).ownCounts = false ∧ (5 : BitVec 16).toNat < 0x8000
     ∧ (s { bar5 with own := true }).barSlot 5 = some { bar5 with own := true } ∧ (∀ p ∈ (s bar5).awaitedPorts, p ∈ bar5.ports)
     ∧ (s bar5).upPort = some 0 ∧ (s { bar5 with sentUp := true }).barSlot 5 = some { bar5 with sentUp := true })
    ∧ (let t : State := sTop { Tether.reset with bars := [{ bar5 with own := true }] }
       t.upPort = none ∧ t.barSlot 5 = some { bar5 with own := true } ∧ (∀ p ∈ t.awaitedPorts, p ∈ bar5.ports))
    ∧ (sTop Tether.reset).barSlot 5 = none ∧ (sTop Tether.reset).freeBar = some 0
    ∧ (let t : State := sTop { Tether.reset with bars := (countFrom 0 16).map (fun i => { bar5 with slot := i }) }
       t.barSlot 6 = none ∧ t.freeBar = none) := by
  decide +kernel

/-- ReduceSlots: an empty slot; an operand that fits and ones that do not; a slot with all operands and one without the own. -/
theorem test_witness_ReduceSlots :
    (let s (r : RedSlot) : State := sTether 0 { Tether.reset with reds := [r] }
     let full : RedSlot := { red5 with operands := [(1, 7), (8, 3)] }
     (s red5).redSlot 1 = none ∧ (0 : BitVec 3) ≠ 7 ∧ (s red5).redSlot 2 = some red5
     ∧ (red5.op = 0 ∧ red5.id = 5 ∧ red5.sentUp = false ∧ ∀ y ∈ red5.operands, y.1 ≠ 8) ∧ red5.op ≠ 1
     ∧ (s red5).ownCounts = false ∧ (red5.operands.find? (fun y => decide (y.1 = 8))) = none
     ∧ (s full).redSlot 2 = some full ∧ (∀ p ∈ (s full).awaitedPorts, p ∈ full.operands.map (·.1))
     ∧ (full.operands.find? (fun y => decide (y.1 = 8))).isSome = true ∧ (s full).upPort = some 0
     ∧ (sTop { Tether.reset with reds := [full] }).redSlot 2 = some full ∧ (sTop Tether.reset).upPort = none) := by
  decide +kernel

/-- BarriersFlipsReduces: a top Spool with its flip opened and not, an armed module at rest, an arrival from below for the first time and
again. -/
theorem test_witness_BarriersFlipsReduces :
    (let s := sTether 2 Tether.reset
     s.powered 0 = true ∧ s.tetherRole = 2 ∧ s.tether.flipOpened = false ∧ (tok 1).port.val ∉ s.tether.flipPorts ∧ s.tdir 1 = 2 ∧ s.tdir 0 = 1)
    ∧ ((sTether 2 { Tether.reset with flipTimer := true, flipPorts := [1] }).tether.flipTimer = true)
    ∧ ((tok 1).port.val ∈ (sTether 2 { Tether.reset with flipPorts := [1] }).tether.flipPorts)
    ∧ (let s := { on with image := { Image.reset with shd := .armed, slotA := [1], noActive := false } }
       s.image.shd = .armed ∧ s.image.committed = false ∧ s.quiescent = true ∧ s.imageInForce = true) := by
  decide +kernel

/-- SnapshotEpochs: every phase named, with a granule to copy, one demanded, none left; a drain under way; a cycle for the drain timer. -/
theorem test_witness_SnapshotEpochs :
    (let s (x : Snap) : State := { on with snap := x }
     (s { Snap.reset with phase := .copy, arriving := true }).snap.arriving = true ∧ (s { Snap.reset with phase := .commitWait }).snap.phase = .commitWait
     ∧ (s { Snap.reset with phase := .run, committed := 4 }).snap.draining = false ∧ (s { Snap.reset with phase := .run, committed := 4 }).snap.committed ≠ 0xFFFFFFFF
     ∧ (s { Snap.reset with phase := .clean }).cleanBlocked = false
     ∧ (s { Snap.reset with phase := .copy, uncopied := [3, 4], demand := [4] }).snap.uncopied = 3 :: [4]
     ∧ (s { Snap.reset with phase := .copy, uncopied := [3, 4], demand := [4] }).snap.demand.contains 4 = true
     ∧ (s { Snap.reset with phase := .copy, manifestDone := true }).snap.uncopied = [] ∧ (s { Snap.reset with phase := .copy }).snap.manifestDone = false
     ∧ (s { Snap.reset with phase := .copy }).snap.captureDue = [] ∧ (s { Snap.reset with phase := .copy }).snap.demand = []
     ∧ (s { Snap.reset with phase := .copy, demand := [4] }).snap.demand.head? = some 4
     ∧ (s { Snap.reset with phase := .copy, manifestDone := true }).snap.streaming = false
     ∧ (let x := (s { Snap.reset with phase := .copy, manifestDone := true, streaming := true, streamAcked := true, wardDone := true }).snap
        x.streamAcked = true ∧ x.wardDone = true)
     ∧ (s { Snap.reset with draining := true }).powered 1 = true ∧ (s { Snap.reset with draining := true }).powered 8 = true)
    ∧ (let s := { on with image := { Image.reset with secs := [(10, List.replicate 8 0 ++ [1, 0])] } }
       s.hasSec 10 = true ∧ s.secNat 10 8 2 ≠ 0) := by
  decide +kernel

/-- RollbackAndRestore: a stopped module before and after its copy, a restore, a ward slot of the epoch asked for, a spare and none. -/
theorem test_witness_RollbackAndRestore :
    (let s (x : Snap) : State := { on with snap := x }
     (({ on with mem := memWrites [] (manifestAt 9) (leBytes 8 0x464D5846 ++ leBytes 4 9) } : State).readNat (manifestAt 9) 4 = 0x464D5846)
     ∧ (({ on with mem := memWrites [] (manifestAt 9) (leBytes 8 0x464D5846 ++ leBytes 4 9) } : State).readNat (manifestAt 9 + 8) 4 = 9)
     ∧ (s { Snap.reset with phase := .stopped }).snap.rolling = false ∧ (s { Snap.reset with phase := .stopped, rolling := true }).snap.phase = .stopped
     ∧ (s { Snap.reset with phase := .stopped, restoring := true }).snap.restoring = true)
    ∧ (let s := { on with snap := { Snap.reset with phase := .rolled, xferEpoch := 9 }, mem := memWrites [] (wardManifestAt 9) (leBytes 8 0x464D5846 ++ leBytes 4 9) }
       s.readNat (wardManifestAt 9) 4 = 0x464D5846 ∧ s.readNat (wardManifestAt 9 + 8) 4 = s.snap.xferEpoch.toNat
       ∧ s.snap.epoch.toNat ≤ 9 + 1 ∧ s.snap.phase = .rolled)
    ∧ ({ on with image := { Image.reset with secs := [(4, leBytes 4 (2 ^ 22))] } } : State).spare = true ∧ on.spare = false := by
  decide +kernel

/-- HostInterrupts: sources at the ends of the reserved range and beside it, enabled and not; vectors 1Fh and 20h. -/
theorem test_witness_HostInterrupts :
    (let s := { on with host := { HostIo.reset with hirte := [(0xEB, { Hirte.reset with en := true, vector := 0x20 }), (0x100, { Hirte.reset with pend := true })] } }
     s.powered 2 = true ∧ (mget Hirte.reset s.host.hirte 0xEB).en = true ∧ (0xEB : Nat) < 0xEC ∧ (mget Hirte.reset s.host.hirte 0x100).en = false
     ∧ (mget Hirte.reset s.host.hirte 0x100).pend = true ∧ (0xFF : Nat) < 0x100 ∧ mwf Hirte.reset s.host.hirte = true)
    ∧ (0x401F : Word).getLsbD 14 = true ∧ (((0x401F : Word).extractLsb' 0 8).toNat < 0x20) ∧ (0x4020 : Word).getLsbD 14 = true
    ∧ 0x20 ≤ ((0x4020 : Word).extractLsb' 0 8).toNat ∧ (0x20 : Word).getLsbD 14 = false := by
  decide +kernel

/-- PcieRequests: a request with a context, which reads and writes, fails on a read and a write, and without one; data numbers 0FFh and
100h; an access that waits; a link that events reach. -/
theorem test_witness_PcieRequests :
    (let s := { on with
       host := { HostIo.reset with lstate := 2, rid := [(0, { rid := 7, mask := 0xFFFF, ctx := 0, en := true })] }
       etus := [(4, e0)] }
     s.powered 2 = true ∧ s.host.lstate = 2 ∧ s.ridContext 8 = none ∧ s.ridContext 7 = some 0
     ∧ (match (s.agentRead .hd (.uncached 2) 0 0x2000 8 false).1 with | .ok _ => true | _ => false) = true
     ∧ (match (s.agentRead .hd (.uncached 2) 0 0x8000000000 8 false).1 with | .ok _ => false | _ => true) = true
     ∧ (match (s.agentLocate .hd 0 .write (rangePieces 0x2000 1)).1 with | .ok _ => true | _ => false) = true
     ∧ (match (s.agentLocate .hd 0 .write (rangePieces 0x8000000000 1)).1 with | .ok _ => false | _ => true) = true
     ∧ s.snap.heldWrites = []
     ∧ ({ s with snap := { Snap.reset with heldWrites := [(.hd, 2, 0, 0, [])] } } : State).snap.heldWrites.any
         (fun y => decide (y.1 = .hd) && decide (y.2.1 = 2)) = true)
    ∧ ((0x100 : BitVec 32).extractLsb' 0 10).toNat = 0x100 ∧ ((0x4FF : BitVec 32).extractLsb' 0 10).toNat = 0xFF
    ∧ ((withHazia { k0 with wait := some (.pcie 0x1000 4) }).core h0).wait = some (.pcie 0x1000 4)
    ∧ on.power.failStop = none ∧ on.power.lost100 = false := by
  decide +kernel

/-- ImageStore: every state of SHADOW with what it permits; an image that does not verify; a flip under way; the last byte of the window. -/
theorem test_witness_ImageStore :
    (let i : Image := { Image.reset with shd := .validating }
     imageBad ({ on with image := i } : State).validation i.shadow ≠ none)
    ∧ (0x3FFFFF + [0#8].length ≤ 0x400000) ∧ 0x400000 < 0x400000 + [0#8].length
    ∧ (let i : Image := { Image.reset with shd := .loading, slotB := [1, 2] }
       i.loadPath = false ∧ 1 + [0#8].length ≤ i.shadow.length)
    ∧ ({ Image.reset with applying := true } : Image).applying = true ∧ Image.reset.applying = false
    ∧ (let i : Image := { Image.reset with slotA := [1], noActive := false }
       i.active ≠ [] ∧ i.noActive = false) ∧ Image.reset.active = [] := by
  decide +kernel

/-- RegisterAccess: registers of the HD window by 8 bytes and by halves, with RW, RO, W1C and RC fields, ones that a read pops, a power
register with its state open, and the load window. -/
theorem test_witness_RegisterAccess :
    ([(0xF0000800020, Reg.tred), (0xF0000050000, .modpwr), (0xF0000A00010, .snapcommit)] : List (Nat × Reg)).all (fun x =>
      on.regOk x.1 8 && decide (x.1 % 8 = 0) && decide (on.regOf x.1 = some x.2)) = true
    ∧ readOnlyReg .snapcommit = true
    ∧ (∃ f ∈ regFields .tred, f.2.2 = .rw) ∧ (∃ f ∈ regFields .modpwr, f.2.2 ≠ .rw)
    ∧ on.regOf 0xF0000400008 = none ∧ on.regOk 0xF0000400008 8 = true
    ∧ on.regOk 0xF0000800020 4 = true ∧ on.regOk 0xF0000800024 4 = true ∧ on.regOf 0xF0000800024 = some .tred ∧ 0xF0000800024 % 8 = 4 := by
  decide +kernel

theorem test_witness_takesWrite : takesWrite on 0 .tred := trivial

/-- PowerAndThermal: input: without power and with; counts one below and at their limits; after a fail-stop. -/
theorem test_witness_InputPower :
    ({ State.reset with power := { Power.reset with domains := 0 } } : State).powered 0 = false ∧ State.reset.powered 0 = true
    ∧ State.reset.power.step < 1 ∧ State.reset.power.failStop = none
    ∧ State.reset.power.brownHold = false ∧ State.reset.power.pfw = false
    ∧ ((0 : Nat) + 1 < 10 ∧ 9 + 1 = 10 ∧ 10 ≤ 9 + 1 ∧ 2 ≤ 1 + 1)
    ∧ (1 ≤ on.power.step ∧ 3 ≤ on.power.step ∧ on.power.lost156 = false ∧ on.power.lost100 = false)
    ∧ (4900 : Nat) < (4901 : BitVec 16).toNat ∧ (on.power.poweredDown = false) := by
  decide

/-- PowerAndThermal: limits: a change under way, a die at rest, samples on both sides of each threshold, windows on both sides of the limits. -/
theorem test_witness_PowerLimits :
    (on.setCdPwr 0 { CdPwr.reset with target := some 1 }).cdPwr 0 = { CdPwr.reset with target := some 1 }
    ∧ on.cdUp 0 = true ∧ on.frozen = false ∧ (on.cdPwr 0).sensorFailed = false ∧ on.cores = [] ∧ on.quads = [] ∧ on.engines = [] ∧ on.movers = []
    ∧ (109 : Byte).toNat + (on.cdPwr 0).early.toNat < 110 ∧ 110 ≤ (110 : Byte).toNat + (on.cdPwr 0).early.toNat
    ∧ (on.setCdPwr 0 { CdPwr.reset with sensorFailed := true }).cdPwr 0 = { CdPwr.reset with sensorFailed := true }
    ∧ on.powered (on.sensor (.stack 0 0)).2.2.1 = true ∧ (on.sensor (.stack 0 0)).2.2.2 = 5 ∧ (on.stack (sensorKey (.stack 0 0))).sensFail = false
    ∧ (on.stack (sensorKey (.stack 0 0))).level = 0 ∧ on.powered 0 = true ∧ 4800 < (4801 : BitVec 16).toNat ∧ 4560 ≤ (4560 : BitVec 16).toNat
    ∧ (∀ z ∈ (withCore { k0 with st := .dfault }).cores, z.1 < 96 → z.1 / 24 = 0 → z.2.st = .dfault)
    ∧ (∀ z ∈ (withCore { k0 with wait := some .interrupt }).cores, z.2.st = .run ∧ z.2.wait = some .interrupt)
    ∧ ({ on with power := { on.power with goodWindows := 9 } } : State).power.goodWindows = 9
    ∧ ({ State.reset with power := { Power.reset with domains := 0 } } : State).cdUp 0 = false
    ∧ (4559 : BitVec 16).toNat < 4560 ∧ on.power.goodWindows < 9 := by
  decide

/-- StartUp: a module at each step, without an image, failed and not. -/
theorem test_witness_StartUp :
    ({ State.reset with power := { Power.reset with high50 := 10000 } } : State).stepMay 1 = true ∧ State.reset.stepMay 1 = false
    ∧ on.stepMay 1 = false ∧ on.stepMay 5 = false
    ∧ ({ State.reset with image := { Image.reset with shd := .resetPending, selected := some true } } : State).image.shd = .resetPending
    ∧ (let s (n : Nat) : State := { State.reset with power := { Power.reset with step := n } }
       (s 1).stepMay 2 = true ∧ (s 2).stepMay 3 = true ∧ (s 3).stepMay 4 = true ∧ (s 4).stepMay 5 = true)
    ∧ (({ State.reset with image := { Image.reset with selected := some false } } : State).image.selected = some false
       ∧ imageVerifies [] [] = false)
    ∧ ({ on with power := { on.power with failStop := some 0x15 } } : State).power.failStop = some 0x15
    ∧ (on.powered 0 = true ∧ on.power.failStop ≠ some 0x15 ∧ 2 ≤ on.power.step) := by
  decide +kernel

/-- A session of an ADMIN that has sent request 4, a request 5 of it, and a controller that runs. -/
def sess : Session := { sid := 3, slot := 0, role := 0, lastSeq := 4, subscribed := false, keys := [], sent := 0, init := ([], []), cache := [] }
def sMgmt (l : List Session) : State :=
  { on with mgmt := { Mgmt.reset with
      sessions := l, fwMgmt := { Mgmt.reset.fwMgmt with running := some false }, keys := [(0, { ed := [1], ml := [2], role := 0, set := true })] } }
/-- A request without its tag, and with it. -/
def bare (type : Nat) (mseq : Nat) : VmpReq :=
  { magic := 0x564D, ver := 1, mtype := BitVec.ofNat 8 type, flags := 0, status := 0, plen := 0, sid := 3, mseq := mseq, echo := 0
    payload := [], tag := [], late := false }
def signed (rq : VmpReq) : VmpReq := { rq with tag := hmacSha256 (sess.keys.take 32) (vmpBytes rq) }
def rq5 (type : Nat) : VmpReq := signed (bare type 5)

theorem authentic_signed (rq : VmpReq) (hm : rq.magic = 0x564D) (hv : rq.ver = 1) : vmpAuthentic (signed rq) sess.keys = true := by
  simp [vmpAuthentic, signed, vmpBytes, hm, hv]

/-- Sessions, ManagementRequests: the session takes request 5 of every type, at once, and a late one. -/
theorem test_witness_Admitted :
    (∀ m ∈ [0x03, 0x10, 0x11, 0x12, 0x20, 0x21, 0x22, 0x23, 0x24, 0x30, 0x31, 0x38, 0x40, 0x41, 0x42, 0x43, 0x48, 0x49, 0x50, 0x51, 0x58, 0x60],
      Admitted (sMgmt [sess]) sess (rq5 m) m ∧ Prompt (sMgmt [sess]) (rq5 m))
    ∧ ¬Prompt (sMgmt [sess]) { rq5 3 with late := true } ∧ sess.role = 0 := by
  refine ⟨fun m hm => ⟨⟨by decide, by decide, by decide, rfl, authentic_signed _ rfl rfl, rfl, Nat.lt_succ_self 4, ?_, Nat.zero_lt_succ 7⟩, by decide, rfl⟩, ?_, rfl⟩
  · revert m
    simp only [vmpMalformed, rq5, signed]
    decide
  · exact fun h => absurd h.2 (by decide)

/-- Sessions: slots with a key and without, room for a session and none, one that repeats the opening of a session, a slow queue with
requests in it; requests whose tag fails, that are malformed, repeated or too many, of an OBSERVER; two sessions subscribed. -/
theorem test_witness_Sessions :
    (let s := sMgmt [sess]
     s.mgmtUp = true ∧ s.mgmt.rom = false ∧ (mget MgmtKey.reset s.mgmt.keys 0).set = true ∧ (mget MgmtKey.reset s.mgmt.keys 3).set = false
     ∧ s.anyMgmtKey = true ∧ ({ s with mgmt := { s.mgmt with keys := [] } } : State).anyMgmtKey = false ∧ s.mgmt.sessions.length < 4
     ∧ s.mgmt.slow = [] ∧ s.mgmt.sessions.find? (fun y => decide (y.init.1 = [1])) = none
     ∧ (s.mgmt.sessions.find? (fun y => decide (y.init.1 = []))).isSome = true
     ∧ (bare 3 4).mseq ≤ sess.lastSeq ∧ s.power.failStop = none ∧ (s.mgmt.sessions.filter (fun y => y.subscribed)).length < 2)
    ∧ 4 ≤ (sMgmt (List.replicate 4 sess)).mgmt.sessions.length
    ∧ (let t := sMgmt [sess, { sess with sid := 4, subscribed := true }, { sess with sid := 5, subscribed := true }]
       2 ≤ (t.mgmt.sessions.filter (fun y => y.subscribed)).length ∧ t.session 3 = some sess)
    ∧ (let op : SlowOp := .sessionClose (bare 3 4)
       let s := sMgmt [sess]
       ({ s with mgmt := { s.mgmt with slow := List.replicate 8 (3, op) } } : State).outstanding 3 = 8)
    ∧ vmpMalformed { bare 3 5 with flags := 2 } 3 = true ∧ vmpAuthentic { bare 3 5 with ver := 2 } sess.keys = false
    ∧ ({ sess with cache := [(bare 3 4, [[1]])] } : Session).cache.find? (fun c => decide (c.1 = vmpSent (bare 3 4))) = some (bare 3 4, [[1]])
    ∧ ({ sess with role := 1 } : Session).role ≠ 0 := by
  decide +kernel

/-- ManagementRequests: accesses that the controller may make and one it may not; a load of its own path
and one of the other; an entry of the calibration; a record of the Cabinet; the test hold and none; a fail-stop; a firmware that runs. -/
theorem test_witness_ManagementRequests :
    (let s := sMgmt [sess]
     s.mgmtAccess 0xF0000050000 8 = none ∧ s.mgmtAccess 0x1000 8 ≠ none
     ∧ (∃ i, s.image.write true 0x3FFFFF [1] = some i) ∧ ({ Image.reset with shd := .loading } : Image).write true 0 [1] = none
     ∧ s.quiescent = true ∧ s.mgmt.testHold = false ∧ ({ s with mgmt := { s.mgmt with testHold := true } } : State).mgmt.testHold = true
     ∧ (s.firmware false).running = some false ∧ 3 ≤ s.power.step ∧ s.powered 1 = true ∧ (sMgmt [sess, sess]).image.noActive = false
     ∧ ({ s with power := { s.power with failStop := some 0x15 } } : State).power.failStop.isSome = true)
    ∧ ((({ dirA := calDirOf 1 (List.replicate 16 0x30) [], dirB := [], data := [] } : Calib).tryPut 1 2 0 0 0 [7]).find 1 2).isSome = true
    ∧ (let r : Drained := { epoch := 4, complete := true, data := [1, 2] }
       [r].find? (fun c => decide (c.epoch = 4)) = some r ∧ 1 + 1 ≤ r.data.length)
    ∧ (sQuad (qBound [cmdOf fenceWords])).quiescent = false := by
  refine ⟨⟨?_, ?_, ⟨_, rfl⟩, ?_, ?_, ?_, ?_, ?_, ?_, ?_, ?_, ?_⟩, ?_, ?_, ?_⟩ <;> decide +kernel

/-- 17 R414: the tag of a request with a key of 32 zero bytes depends on every byte of the header. -/
theorem test_headerBytes : vmpBytes (bare 3 5) = [0x56, 0x4D, 1, 3, 0, 0, 0, 0, 0, 0, 0, 0, 0, 0, 0, 3, 0, 0, 0, 0, 0, 0, 0, 5, 0, 0, 0, 0, 0, 0, 0, 0] := by
  decide +kernel

/-- StepKeepsMemory and StepKeepsStores: reset meets both invariants and steps. -/
theorem test_witness_StepKeeps :
    State.reset.MemOk ∧ State.reset.StoresOk ∧ step { State.reset with pending := [.sictlClear] } = exec .sictlClear State.reset := by
  refine ⟨?_, ⟨?_, ?_, ?_, ?_, ?_, ?_⟩, rfl⟩
  all_goals first | exact (rfl : _ = true) | (intro x h; cases h)
end Sys2Proof.Tests
end

section
/-! SUPPORT. Which operations leave the image store alone: the accesses of agents and movers with the coherence protocol below them, and
machine-check records. A STOP alone touches it, to cancel a committed flip that does not apply yet (02 R65); where no flip is
committed, the image stays. -/

namespace Sys2Proof.Machine

/-! ## Folds -/

/-- A fold of steps that leave the image alone leaves it alone. -/
theorem foldl_image {α : Type} (f : State → α → State) (hf : ∀ s a, (f s a).image = s.image) (l : List α) (s : State) :
    (l.foldl f s).image = s.image :=
  foldl_keeps (fun t : State => t.image = s.image) f (fun b a h => (hf b a).trans h) l s rfl

/-- The same for steps that leave it alone while no flip is committed. -/
theorem foldl_image_uncommitted {α : Type} (f : State → α → State)
    (hf : ∀ s a, s.image.committed = false → (f s a).image = s.image) (l : List α) (s : State) (h : s.image.committed = false) :
    (l.foldl f s).image = s.image :=
  foldl_keeps (fun t : State => t.image = s.image) f (fun b a hb => (hf b a (hb ▸ h)).trans hb) l s rfl

/-! ## The coherence protocol -/

@[simp] theorem State.modLine_image (s : State) (c : CacheId) (l : Nat) (f : CacheLine → CacheLine) : (s.modLine c l f).image = s.image := rfl
@[simp] theorem State.dropReservations_image (s : State) (l : Nat) (p : Nat → Bool) : (s.dropReservations l p).image = s.image := rfl
@[simp] theorem State.mapCopies_image (s : State) (l : Nat) (p : Nat → Bool) (f : CacheLine → CacheLine) :
    (s.mapCopies l p f).image = s.image := rfl
@[simp] theorem State.invalidate_image (s : State) (l : Nat) (p : Nat → Bool) : (s.invalidate l p).image = s.image := rfl
@[simp] theorem State.mergeDirty_image (s : State) (l off : Nat) (b : List Byte) : (s.mergeDirty l off b).image = s.image := rfl
@[simp] theorem State.used_image (s : State) (n l w : Nat) (a : Bool) : (s.used n l w a).image = s.image := rfl
@[simp] theorem State.sendSnoop_image (s : State) (c : CacheId) (l : Nat) (m : Snoop) : (s.sendSnoop c l m).image = s.image := rfl
@[simp] theorem State.grant_image (s : State) (c : CacheId) (l : Nat) (st : LineState) : (s.grant c l st).image = s.image := rfl
@[simp] theorem State.acked_image (s : State) (c : CacheId) (l : Nat) : (s.acked c l).image = s.image := rfl
@[simp] theorem State.answerRead_image (s : State) (c : CacheId) (l : Nat) : (s.answerRead c l).image = s.image := rfl
@[simp] theorem State.demandCopy_image (s : State) (l : Nat) : (s.demandCopy l).image = s.image := rfl
@[simp] theorem State.sramWrite_image (s : State) (a : Nat) (b : List Byte) : (s.sramWrite a b).image = s.image := rfl

@[simp] theorem State.setDirEntry_image (s : State) (d l : Nat) (e : DirEntry) : (s.setDirEntry d l e).image = s.image := by
  unfold State.setDirEntry; split <;> rfl
@[simp] theorem State.modDirEntry_image (s : State) (d l : Nat) (f : DirEntry → DirEntry) : (s.modDirEntry d l f).image = s.image :=
  s.setDirEntry_image d l _
@[simp] theorem State.answered_image (s : State) (d l : Nat) : (s.answered d l).image = s.image := s.modDirEntry_image d l _
@[simp] theorem State.closeEntry_image (s : State) (d l : Nat) : (s.closeEntry d l).image = s.image := s.modDirEntry_image d l _
@[simp] theorem State.touch_image (s : State) (c : CacheId) (l : Nat) : (s.touch c l).image = s.image := by
  unfold State.touch; split <;> rfl
@[simp] theorem State.dramWrite_image (s : State) (l : Nat) (b : List Byte) (full : Bool) : (s.dramWrite l b full).image = s.image := by
  unfold State.dramWrite; dsimp only; split <;> rfl
@[simp] theorem State.cleanLine_image (s : State) (l : Nat) : (s.cleanLine l).image = s.image := by
  unfold State.cleanLine; dsimp only; split
  · rfl
  · exact s.dramWrite_image _ _ _
@[simp] theorem State.sendDown_image (s : State) (n l : Nat) (m : Snoop) : (s.sendDown n l m).image = s.image := by
  unfold State.sendDown; split <;> rfl
@[simp] theorem State.startRecall_image (s : State) (d l : Nat) : (s.startRecall d l).image = s.image := by
  unfold State.startRecall
  refine (foldl_image _ ?_ _ _).trans (s.modDirEntry_image d l _)
  intro t x; split <;> simp
@[simp] theorem State.leaveWay_image (s : State) (n l : Nat) : (s.leaveWay n l).image = s.image := by
  unfold State.leaveWay; dsimp only; split <;> rfl
@[simp] theorem State.dirWay_image (s : State) (l : Nat) (o : Bool) : (s.dirWay l o).2.image = s.image := by
  unfold State.dirWay; dsimp only; (repeat' split) <;> simp
@[simp] theorem State.vacate_image (s : State) (n l : Nat) : (s.vacate n l).2.image = s.image := by
  unfold State.vacate
  grind [State.dirWay_image, State.leaveWay_image, State.startRecall_image, State.cleanLine_image, State.setLine_image, State.dropReservations_image]
@[simp] theorem State.place_image (s : State) (n l : Nat) (cls : FillClass) : (s.place n l cls).2.image = s.image := by
  unfold State.place
  grind [State.vacate_image]

@[simp] theorem State.noteSlot_image (s : State) (d n : Nat) : (s.noteSlot d n).image = s.image := by
  unfold State.noteSlot; split <;> rfl
@[simp] theorem State.noteGrant_image (s : State) (c : CacheId) : (s.noteGrant c).image = s.image := s.noteSlot_image _ _
@[simp] theorem State.openEntry_image (s : State) (d l : Nat) (k : OpenKind) (cs : List CacheId) : (s.openEntry d l k cs).image = s.image :=
  (State.modDirEntry_image _ d l _).trans (foldl_image _ (fun t c => t.noteGrant_image c) cs s)
@[simp] theorem State.dropCopy_image (s : State) (c : CacheId) (l : Nat) : (s.dropCopy c l).image = s.image := by
  unfold State.dropCopy; dsimp only; split <;> simp
@[simp] theorem State.restate_image (s : State) (c : CacheId) (l : Nat) (st : LineState) : (s.restate c l st).image = s.image := by
  unfold State.restate; dsimp only; split <;> rfl
@[simp] theorem State.handUp_image (s : State) (n l : Nat) : (s.handUp n l).image = s.image := by
  unfold State.handUp; split <;> simp
@[simp] theorem State.grantOwner_image (s : State) (c : CacheId) (l : Nat) : (s.grantOwner c l).image = s.image := by
  unfold State.grantOwner; dsimp only; split <;> simp
@[simp] theorem State.supply_image (s : State) (c : CacheId) (l : Nat) (dst : CacheId) (give : Bool) :
    (s.supply c l dst give).image = s.image := by
  unfold State.supply; dsimp only; (repeat' split) <;> simp
@[simp] theorem State.giveBack_image (s : State) (c : CacheId) (l : Nat) : (s.giveBack c l).image = s.image := by
  unfold State.giveBack; dsimp only; (repeat' split) <;> simp
@[simp] theorem State.serveSnoop_image (s : State) (c : CacheId) (l : Nat) (m : Snoop) : (s.serveSnoop c l m).image = s.image := by
  unfold State.serveSnoop; dsimp only; (repeat' split) <;> simp
@[simp] theorem State.wakeCd_image (s : State) (d : Fin 4) : (s.wakeCd d).image = s.image := by unfold State.wakeCd; split <;> rfl
@[simp] theorem State.wakeFor_image (s : State) (c : CacheId) : (s.wakeFor c).image = s.image := by
  unfold State.wakeFor; split <;> simp
@[simp] theorem State.takeSnoop_image (s : State) (c : CacheId) (l : Nat) : (s.takeSnoop c l).image = s.image := by
  unfold State.takeSnoop; split <;> simp
@[simp] theorem State.finishTask_image (s : State) (d l : Nat) (m : Snoop) : (s.finishTask d l m).image = s.image := by
  unfold State.finishTask; dsimp only; (repeat' split) <;> simp
@[simp] theorem State.answerAbsent_image (s : State) (d l : Nat) (m : Snoop) : (s.answerAbsent d l m).image = s.image := by
  unfold State.answerAbsent; dsimp only; (repeat' split) <;> simp
theorem State.startTask_image {s t : State} {d l : Nat} {m : Snoop} (ht : s.startTask d l m = some t) : t.image = s.image := by
  unfold State.startTask at ht
  dsimp only at ht
  split at ht
  · split at ht <;> cases ht; simp
  · cases ht
    refine (foldl_image (fun (s : State) (y : Nat × CacheLine) => s.sendSnoop (cacheOf y.1) l (m.inner d)) (fun _ _ => rfl) _ _).trans ?_
    simp
theorem State.missL2_image {s t : State} {d l : Nat} {tr : Transient} {r : DirReq} (ht : s.missL2 d l tr r = some t) : t.image = s.image := by
  unfold State.missL2 at ht
  split at ht <;> cases ht; simp
theorem State.mergeMiss_image {s t : State} {d l : Nat} {r : DirReq} (ht : s.mergeMiss d l r = some t) : t.image = s.image := by
  unfold State.mergeMiss at ht
  (repeat' split at ht) <;> cases ht; simp
@[simp] theorem State.dieRead_image (s : State) (d l : Nat) (c : CacheId) : (s.dieRead d l c).image = s.image := by
  unfold State.dieRead; dsimp only; split <;> simp
@[simp] theorem State.takeOwnership_image (s : State) (d l : Nat) (c : CacheId) (o : List (Nat × CacheLine)) :
    (s.takeOwnership d l c o).image = s.image := by
  unfold State.takeOwnership
  dsimp only
  generalize hu : o.foldl _ _ = u
  have h : u.image = s.image := by
    rw [← hu]
    refine (foldl_image _ ?_ _ _).trans (s.touch_image _ l)
    intro t y; split <;> simp
  (repeat' split) <;> simp [h]
theorem State.serveDie_image {s t : State} {d l : Nat} {r : DirReq} (ht : s.serveDie d l r = some t) : t.image = s.image := by
  unfold State.serveDie at ht
  grind [State.startTask_image, State.missL2_image, State.mergeMiss_image, State.dieRead_image, State.takeOwnership_image,
    State.restate_image, State.modLine_image, State.modDirEntry_image]
@[simp] theorem State.supplyL3_image (s : State) (l : Nat) : (s.supplyL3 l).image = s.image := by
  unfold State.supplyL3; split <;> simp
@[simp] theorem State.moduleRead_image (s : State) (l : Nat) (c : CacheId) : (s.moduleRead l c).image = s.image := by
  unfold State.moduleRead; dsimp only; split <;> simp
theorem State.takeRegister_image {s t : State} {l : Nat} {r : DirReq} (ht : s.takeRegister l r = some t) : t.image = s.image := by
  unfold State.takeRegister at ht
  (repeat' split at ht) <;> cases ht <;> simp
theorem State.mergeModule_image {s t : State} {l : Nat} (ht : s.mergeModule l = some t) : t.image = s.image := by
  have answered (f : CacheLine → CacheLine) (cs : List CacheId) : (cs.foldl (fun (s : State) c => s.modLine c l f) s).image = s.image :=
    foldl_image (fun (s : State) c => s.modLine c l f) (fun _ _ => rfl) cs s
  unfold State.mergeModule at ht
  dsimp only at ht
  (repeat' split at ht) <;> cases ht <;> simp [answered]
@[simp] theorem State.intoL3_image (s : State) (l : Nat) (nt : Bool) (cls : FillClass) : (s.intoL3 l nt cls).image = s.image := by
  unfold State.intoL3
  grind [State.restate_image, State.modLine_image, State.place_image, State.used_image, State.modDirEntry_image]
@[simp] theorem State.tidy_image (s : State) (l : Nat) : (s.tidy l).image = s.image := by unfold State.tidy; split <;> simp
@[simp] theorem State.startMaint_image (s : State) (l k : Nat) (op : Maint) : (s.startMaint l k op).image = s.image :=
  (foldl_image _ (fun t _ => t.sendDown_image _ l _) _ _).trans (s.modDirEntry_image 4 l _)
theorem State.moduleOwn_image {s t : State} {l : Nat} {r : DirReq} {c : CacheId} (ht : s.moduleOwn l r c = some t) : t.image = s.image := by
  unfold State.moduleOwn at ht
  grind [Option.map_eq_some_iff, State.dirWay_image, State.takeRegister_image, State.takeOwnership_image]
theorem State.serveModule_image {s t : State} {l : Nat} {r : DirReq} (ht : s.serveModule l r = some t) : t.image = s.image := by
  unfold State.serveModule at ht
  grind [Option.map_eq_some_iff, State.modLine_image, State.intoL3_image, State.tidy_image, State.startMaint_image,
    State.dirWay_image, State.takeRegister_image, State.moduleRead_image, State.moduleOwn_image]
theorem State.serveAt_image {s t : State} {d l : Nat} {r : DirReq} (ht : s.serveAt d l r = some t) : t.image = s.image := by
  unfold State.serveAt at ht
  split at ht
  · exact State.serveDie_image ht
  · exact State.serveModule_image ht
@[simp] theorem State.maintain_image (s : State) (op : Maint) (l : Nat) : (s.maintain op l).image = s.image := by
  unfold State.maintain; split <;> simp
@[simp] theorem State.finish_image (s : State) (d l : Nat) : (s.finish d l).image = s.image := by
  unfold State.finish; dsimp only; (repeat' split) <;> simp
theorem State.serveFirst_image {d l : Nat} (rest : List DirReq) : ∀ {s t : State} {front : List DirReq},
    s.serveFirst d l front rest = some t → t.image = s.image := by
  induction rest with
  | nil => exact fun ht => nomatch ht
  | cons r rest ih =>
    intro s t front ht
    unfold State.serveFirst at ht
    split at ht
    · rename_i hs
      cases ht
      exact (State.serveAt_image hs).trans (s.modDirEntry_image d l _)
    · exact ih ht
theorem State.pumpAt_image {s t : State} {l d : Nat} (ht : s.pumpAt l d = some t) : t.image = s.image := by
  unfold State.pumpAt at ht
  grind [State.finish_image, State.mergeModule_image, State.serveFirst_image]
@[simp] theorem State.pumpFor_image (l fuel : Nat) : ∀ s : State, (State.pumpFor l fuel s).image = s.image := by
  induction fuel with
  | zero => exact fun _ => rfl
  | succ n ih =>
    intro s
    unfold State.pumpFor
    split
    · rename_i s1 hs
      obtain ⟨d, -, hd⟩ := List.exists_of_findSome?_eq_some hs
      exact (ih s1).trans (State.pumpAt_image hd)
    · rfl
@[simp] theorem State.pump_image (s : State) (l : Nat) : (s.pump l).image = s.image := by
  unfold State.pump; dsimp only; split <;> simp [foldl_image]
@[simp] theorem State.request_image (s : State) (d l : Nat) (r : DirReq) : (s.request d l r).image = s.image := by
  unfold State.request; dsimp only; (repeat' split) <;> simp
theorem State.seekWay_image {s t : State} {l : Nat} (ht : s.seekWay l = some t) : t.image = s.image := by
  unfold State.seekWay at ht
  dsimp only at ht
  (repeat' split at ht) <;> cases ht; simp
@[simp] theorem State.forwardSecond_image (s : State) (d l : Nat) (b : List DirReq) : (s.forwardSecond d l b).image = s.image := by
  unfold State.forwardSecond; dsimp only; (repeat' split) <;> simp
@[simp] theorem State.closeCycle_image (s : State) (d l : Nat) : (s.closeCycle d l).image = s.image := by
  unfold State.closeCycle; simp [foldl_image]
@[simp] theorem State.demoteF_image (s : State) (d l : Nat) (c : CacheId) : (s.demoteF d l c).image = s.image :=
  foldl_image _ (fun t (x : Nat × CacheLine) => State.restate_image t (cacheOf x.1) l .s) _ _
@[simp] theorem State.install_image (s : State) (c : CacheId) (l : Nat) : (s.install c l).image = s.image := by
  unfold State.install
  grind [State.demoteF_image, State.modLine_image, State.used_image, State.place_image]
@[simp] theorem State.serveMissers_image (s : State) (d l : Nat) : (s.serveMissers d l).image = s.image := by
  unfold State.serveMissers
  dsimp only
  split
  · simp
  · rw [State.modDirEntry_image, State.openEntry_image]
    refine (foldl_image _ ?_ _ _).trans (s.modDirEntry_image d l _)
    exact fun _ _ => rfl
@[simp] theorem State.retryL3_image (s : State) (l : Nat) : (s.retryL3 l).image = s.image := by
  unfold State.retryL3; dsimp only; (repeat' split) <;> simp
@[simp] theorem State.fillAck_image (s : State) (c : CacheId) (l : Nat) : (s.fillAck c l).image = s.image := by
  unfold State.fillAck; dsimp only; (repeat' split) <;> simp
@[simp] theorem State.asks_image (s : State) (c : CacheId) (l : Nat) (own nt : Bool) : (s.asks c l own nt).image = s.image := by
  unfold State.asks; dsimp only; split <;> rfl
@[simp] theorem State.haziaAsk_image (s : State) (k : Fin 64) (c : CacheId) (l : Nat) (own : Bool) :
    (s.haziaAsk k c l own).image = s.image := by
  unfold State.haziaAsk; dsimp only; (repeat' split) <;> simp
@[simp] theorem State.deliverMaint_image (d : Nat) (q : List (Nat × Option (Nat × Maint))) :
    ∀ s : State, (State.deliverMaint d q s).image = s.image := by
  induction q with
  | nil => exact fun _ => rfl
  | cons x rest ih =>
    intro s
    unfold State.deliverMaint
    split
    · rename_i hx; cases hx; simp [ih]
    · rfl
theorem State.takeUp_image {s t : State} {d l : Nat} (ht : s.takeUp d l = some t) : t.image = s.image := by
  unfold State.takeUp at ht
  (repeat' split at ht) <;> cases ht; rfl
@[simp] theorem State.requestFrom_image (s : State) (c : CacheId) (l : Nat) (r : DirReq) : (s.requestFrom c l r).image = s.image := by
  unfold State.requestFrom
  grind [State.haziaAsk_image, State.takeUp_image, State.request_image, State.deliverMaint_image]
theorem State.takeDown_image {s t : State} {d : Nat} {x : Nat × Snoop} (ht : s.takeDown d = some (x, t)) : t.image = s.image := by
  unfold State.takeDown at ht
  split at ht <;> cases ht; rfl
@[simp] theorem State.deliverDown_image (s : State) (d : Nat) : (s.deliverDown d).image = s.image := by
  unfold State.deliverDown
  grind [State.takeDown_image, State.request_image]
@[simp] theorem State.deliverUp_image (s : State) (d : Nat) : (s.deliverUp d).image = s.image := by
  unfold State.deliverUp; dsimp only; (repeat' split) <;> simp
@[simp] theorem State.endHold_image (s : State) (c : CacheId) (l : Nat) : (s.endHold c l).image = s.image := by
  unfold State.endHold; simp [foldl_image]
theorem State.stirLine_image {s t : State} {l : Nat} {w : Bool} (ht : s.stirLine l w = some t) : t.image = s.image := by
  unfold State.stirLine at ht
  dsimp only at ht
  (repeat' split at ht) <;> cases ht <;> simp
theorem State.stirSet_image {s t : State} {n l : Nat} (ht : s.stirSet n l = some t) : t.image = s.image := by
  obtain ⟨o, -, ho⟩ := List.exists_of_findSome?_eq_some ht
  split at ho
  · cases ho; simp
  · exact State.stirLine_image ho
theorem State.stir_image {s t : State} {l : Nat} {w : Bool} (ht : s.stir l w = some t) : t.image = s.image := by
  unfold State.stir at ht
  split at ht
  · grind [Option.or_eq_some_iff, State.closeCycle_image, State.stirSet_image, State.seekWay_image]
  · rename_i s1 hs
    refine Eq.trans ?_ (State.stirLine_image hs)
    split at ht
    · cases ht; rfl
    · split at ht <;> cases ht
      · exact State.stirSet_image ‹_›
      · rfl
theorem State.settleFor_image (l : Nat) (w : Bool) (fuel : Nat) : ∀ s : State, (State.settleFor l w fuel s).image = s.image := by
  induction fuel with
  | zero => exact fun _ => rfl
  | succ n ih =>
    intro s
    unfold State.settleFor
    split
    · rename_i s1 hs; exact (ih s1).trans (State.stir_image hs)
    · rfl
@[simp] theorem State.settleLine_image (s : State) (l : Nat) (w : Bool) : (s.settleLine l w).image = s.image := s.settleFor_image l w 256
@[simp] theorem State.settled_image (s : State) (l : Nat) : (s.settled l).image = s.image := by unfold State.settled; split <;> simp
@[simp] theorem State.resumeLine_image (s : State) (l : Nat) : (s.resumeLine l).image = s.image := by
  unfold State.resumeLine; split <;> simp
@[simp] theorem State.settleSet_image (s : State) (n l : Nat) : (s.settleSet n l).image = s.image := by
  unfold State.settleSet; simp [foldl_image]
@[simp] theorem State.forceOut_image (s : State) (n l : Nat) (ok : Nat → Bool) : (s.forceOut n l ok).2.image = s.image := by
  unfold State.forceOut; dsimp only; split <;> simp
@[simp] theorem State.roomFor_image (n l : Nat) (cls : FillClass) (fuel : Nat) : ∀ s : State,
    (State.roomFor n l cls fuel s).2.image = s.image := by
  induction fuel with
  | zero => exact fun s => s.forceOut_image _ _ _
  | succ k ih => intro s; unfold State.roomFor; grind [State.place_image, State.settleSet_image]
@[simp] theorem State.entryFor_image (l fuel : Nat) : ∀ s : State, (State.entryFor l fuel s).image = s.image := by
  induction fuel with
  | zero => intro s; unfold State.entryFor; simp
  | succ k ih => intro s; unfold State.entryFor; grind [State.dirWay_image, State.settleSet_image]
@[simp] theorem State.standM_image (s : State) (c : CacheId) (cls : FillClass) (l : Nat) (p : Bool) :
    (s.standM c cls l p).image = s.image := by
  unfold State.standM; dsimp only; split <;> simp
@[simp] theorem State.writeLine_image (s : State) (e : EtuId) (cls : FillClass) (l off : Nat) (b : List Byte) :
    (s.writeLine e cls l off b).image = s.image := by
  unfold State.writeLine; dsimp only; split <;> simp
@[simp] theorem State.flagManifest_image (s : State) (a i : Nat) : (s.flagManifest a i).image = s.image := s.writeLine_image _ _ _ _ _
@[simp] theorem State.fetchOnce_image (s : State) (c : CacheId) (l : Nat) (own nt : Bool) : (s.fetchOnce c l own nt).image = s.image := by
  unfold State.fetchOnce; dsimp only; split <;> simp
@[simp] theorem State.flushL1_image (s : State) (c : CoreId) : (s.flushL1 c).image = s.image := by
  unfold State.flushL1
  refine foldl_image _ ?_ _ _
  intro t x; dsimp only; split <;> simp

/-! ## Machine-check records

They reach the image through the STOP of a fail-stop alone. -/

@[simp] theorem State.hicDeliver_image (s : State) (n : Nat) : (s.hicDeliver n).image = s.image := by
  unfold State.hicDeliver; dsimp only; split <;> rfl
@[simp] theorem State.hicSource_image (s : State) (n : Nat) : (s.hicSource n).image = s.image := by
  unfold State.hicSource; split <;> simp
@[simp] theorem State.setIpend_image (s : State) (d : Fin 4) (cl : Fin 24) (i : Nat) : (s.setIpend d cl i).image = s.image := by
  unfold State.setIpend; simp
@[simp] theorem State.floodStop_image (s : State) (x : Option Nat) (o t c : Nat) : (s.floodStop x o t c).image = s.image := by
  unfold State.floodStop State.sendOn
  refine foldl_image _ ?_ _ _
  intro u p; dsimp only; split <;> rfl
@[simp] theorem State.sampleDryOf_image (s : State) (q : Nat → Bool) : (s.sampleDryOf q).image = s.image := by
  unfold State.sampleDryOf
  split
  · rfl
  · refine foldl_image _ ?_ _ _
    intro t x; dsimp only; split <;> rfl

/-- A STOP has no flip to cancel where none is committed (02 R65). -/
theorem Image.cancelFlip_uncommitted {i : Image} (h : i.committed = false) : i.cancelFlip = i := by
  simp [Image.cancelFlip, h]

@[simp] theorem State.stopUnits_image (s : State) : s.stopUnits.image = s.image.cancelFlip := rfl
@[simp] theorem State.takeStop_image (s : State) (o c : Nat) : (s.takeStop o c).image = s.image := s.sampleDryOf_image _
@[simp] theorem State.injectStop_image (s : State) (c : Nat) (h : s.image.committed = false) : (s.injectStop c).image = s.image := by
  unfold State.injectStop State.stopHere
  dsimp only
  split <;> simp [Image.cancelFlip_uncommitted, h]
@[simp] theorem State.faultPart_image (s : State) (p : PartId) (c : Byte) : (s.faultPart p c).image = s.image := by
  unfold State.faultPart State.sampleDry; dsimp only; split <;> simp
@[simp] theorem State.containCluster_image (s : State) (d : Fin 4) (cl : Fin 24) : (s.containCluster d cl).image = s.image := by
  unfold State.containCluster
  simp only [State.setMover_image, State.modCore_image]
  refine foldl_image _ ?_ _ _
  intro t i; split <;> simp
@[simp] theorem State.containDie_image (s : State) (d : Fin 4) : (s.containDie d).image = s.image := by
  unfold State.containDie
  refine (foldl_image _ ?_ _ _).trans ((foldl_image _ ?_ _ _).trans (foldl_image _ ?_ _ _)) <;> intro t i <;> simp
@[simp] theorem State.contain_image (s : State) (r : McRec) : (s.contain r).image = s.image := by
  unfold State.contain State.faultOwn; dsimp only; (repeat' split) <;> simp
@[simp] theorem State.mcInterrupt_image (s : State) (r : McRec) : (s.mcInterrupt r).image = s.image := by
  unfold State.mcInterrupt; (repeat' split) <;> simp
@[simp] theorem State.logFatal_image (s : State) (r : McRec) : (s.logFatal r).image = s.image := rfl
@[simp] theorem State.pcieDown_image (s : State) : s.pcieDown.image = s.image := State.hicSource_image _ _
@[simp] theorem State.driveFailstop_image (s : State) : s.driveFailstop.image = s.image := by
  unfold State.driveFailstop; dsimp only; split <;> rfl
@[simp] theorem State.failStop_image (s : State) (c : Byte) (h : s.image.committed = false) : (s.failStop c).image = s.image := by
  unfold State.failStop; dsimp only; (repeat' split) <;> simp [h]
@[simp] theorem State.reportFatal_image (s : State) (r : McRec) (h : s.image.committed = false) : (s.reportFatal r).image = s.image := by
  unfold State.reportFatal; dsimp only; split <;> simp [h]
@[simp] theorem State.reportFull_image (s : State) (r : McRec) (h : s.image.committed = false) : (s.reportFull r).image = s.image := by
  unfold State.reportFull; dsimp only; split <;> simp [h]
@[simp] theorem State.sampleCounter_image (s : State) : s.sampleCounter.image = s.image := rfl
@[simp] theorem State.report_image (s : State) (r : McRec) (h : s.image.committed = false) : (s.report r).image = s.image := by
  unfold State.report; dsimp only; (repeat' split) <;> simp [h]

/-! ## Copy-before-write and the stream of an epoch -/

@[simp] theorem State.carryPoison_image (s : State) (b : MemBlockId) (t : Nat) (w : BitVec 32) (h : s.image.committed = false) :
    (s.carryPoison b t w).image = s.image := by
  unfold State.carryPoison; dsimp only; (repeat' split) <;> simp [h]
@[simp] theorem State.copyTile_image (s : State) (a b : Nat) (h : s.image.committed = false) : (s.copyTile a b).2.image = s.image := by
  have written (g : Nat → List Byte) (k : Nat → Bool) :
      ((countFrom 0 32).foldl (fun (t : State) i => t.dramWrite (b / 128 + i) (g i) (k i)) s).image = s.image :=
    foldl_image (fun (t : State) i => t.dramWrite (b / 128 + i) (g i) (k i)) (fun t _ => t.dramWrite_image _ _ _) _ s
  unfold State.copyTile
  dsimp only
  split <;> simp [written, h]
@[simp] theorem State.copyTiles_image (s : State) (a b n : Nat) (h : s.image.committed = false) : (s.copyTiles a b n).2.image = s.image :=
  foldl_keeps (fun x : Bool × State => x.2.image = s.image)
    (fun (x : Bool × State) i => (x.1 || (x.2.copyTile (a + 4096 * i) (b + 4096 * i)).1, (x.2.copyTile (a + 4096 * i) (b + 4096 * i)).2))
    (fun x _ hx => (x.2.copyTile_image _ _ (hx ▸ h)).trans hx) (countFrom 0 n) (false, s) rfl
theorem State.noteCopied_image (s : State) (g : Nat) (p : Bool) : (s.noteCopied g p).image = s.image := rfl
@[simp] theorem State.copyHome_image (s : State) (g a : Nat) (h : s.image.committed = false) : (s.copyHome g a).image = s.image := by
  unfold State.copyHome
  split
  · rfl
  · exact (State.noteCopied_image _ _ _).trans (s.copyTiles_image _ _ _ h)
@[simp] theorem State.copyGranule_image (s : State) (g : Nat) (h : s.image.committed = false) : (s.copyGranule g).image = s.image := by
  unfold State.copyGranule
  split
  · exact s.copyHome_image g _ h
  · rfl
@[simp] theorem State.transmit_image (s : State) (p : Fin 12) (f : Flit) : (s.transmit p f).image = s.image := by
  unfold State.transmit; dsimp only; split <;> rfl
@[simp] theorem State.sendNull_image (s : State) (p : Fin 12) (n v : Nat) : (s.sendNull p n v).image = s.image := by
  unfold State.sendNull; dsimp only; split <;> simp
@[simp] theorem State.leaveBuffer_image (s : State) (f : Flit) : (s.leaveBuffer f).image = s.image := by
  unfold State.leaveBuffer State.returnCredit; split <;> simp
@[simp] theorem State.pumpPort_image (p : Fin 12) (n : Nat) : ∀ s : State, (s.pumpPort p n).image = s.image := by
  induction n with
  | zero => exact fun _ => rfl
  | succ n ih =>
    intro s
    unfold State.pumpPort
    dsimp only
    (repeat' split) <;> simp [ih]
@[simp] theorem State.sendFlit_image (s : State) (p : Fin 12) (f : Flit) : (s.sendFlit p f).image = s.image := by
  unfold State.sendFlit; simp
@[simp] theorem State.routeFlit_image (s : State) (p : Fin 12) (f : Flit) (h : s.image.committed = false) :
    (s.routeFlit p f).image = s.image := by
  unfold State.routeFlit; dsimp only; split <;> simp [h]
@[simp] theorem State.sendGranule_image (s : State) (a b c d : Nat) (h : s.image.committed = false) :
    (s.sendGranule a b c d).image = s.image := by
  unfold State.sendGranule
  refine foldl_image_uncommitted _ ?_ _ s h
  intro t x ht
  unfold State.sendBridle; dsimp only; split <;> simp [ht]
@[simp] theorem State.streamPlaced_image (s : State) (h : s.image.committed = false) : s.streamPlaced.image = s.image := by
  unfold State.streamPlaced
  refine (foldl_image_uncommitted _ ?_ _ _ ?_).trans (State.modSnap_image _ _)
  · intro t g ht
    split
    · rw [State.modSnap_image, State.sendGranule_image _ _ _ _ _ ht]
    · rfl
  · exact h
@[simp] theorem State.granuleCopied_image (s : State) (g : Nat) (h : s.image.committed = false) : (s.granuleCopied g).image = s.image := by
  unfold State.granuleCopied
  dsimp only
  refine (foldl_image _ (fun t l => t.resumeLine_image l) _ _).trans ?_
  (repeat' split) <;> simp [h]
@[simp] theorem State.copyFirst_image (s : State) (l : Nat) (h : s.image.committed = false) : (s.copyFirst l).image = s.image := by
  unfold State.copyFirst
  split
  · exact foldl_image_uncommitted _ (fun t g ht => t.granuleCopied_image g ht) _ _ h
  · rfl

/-! ## The reads and writes of agents -/

@[simp] theorem State.obtain_image (s : State) (c : CacheId) (l : Nat) (own nt : Bool) (h : s.image.committed = false) :
    (s.obtain c l own nt).image = s.image := by
  have rivals (ls : List Nat) (t : State) : (ls.foldl (fun (t : State) k => t.settled k) t).image = t.image :=
    foldl_image _ (fun u k => u.settled_image k) ls t
  unfold State.obtain
  dsimp only
  (repeat' split) <;> simp [rivals, h]
@[simp] theorem State.uncachedLine_image (s : State) (e : EtuId) (cls : FillClass) (l off : Nat) (b : List Byte)
    (h : s.image.committed = false) : (s.uncachedLine e cls l off b).image = s.image := by
  unfold State.uncachedLine; simp [h]
@[simp] theorem State.releaseLine_image (s : State) (l : Nat) (h : s.image.committed = false) : (s.releaseLine l).image = s.image :=
  foldl_image_uncommitted _ (fun t _ ht => t.uncachedLine_image _ _ _ _ _ ht) _ _ h
@[simp] theorem State.putLine_image (s : State) (e : EtuId) (cls : FillClass) (l off : Nat) (b : List Byte)
    (h : s.image.committed = false) : (s.putLine e cls l off b).image = s.image := by
  unfold State.putLine; split <;> simp [h]
@[simp] theorem State.writeMem_image (s : State) (e : EtuId) (cls : FillClass) (a : Nat) (b : List Byte) (h : s.image.committed = false) :
    (s.writeMem e cls a b).image = s.image := by
  unfold State.writeMem
  split
  · rfl
  · exact foldl_image_uncommitted _ (fun t x ht => t.putLine_image e cls _ _ _ ht) _ s h
@[simp] theorem State.cachedLine_image (s : State) (e : EtuId) (c : CacheId) (nt : Bool) (l off : Nat) (b : List Byte)
    (h : s.image.committed = false) : (s.cachedLine e c nt l off b).image = s.image := by
  unfold State.cachedLine; dsimp only; split <;> simp [h]
@[simp] theorem State.fetchVia_image (s : State) (v : Via) (a n : Nat) (h : s.image.committed = false) :
    (s.fetchVia v a n).image = s.image := by
  unfold State.fetchVia
  split
  · split
    · exact foldl_image_uncommitted _ (fun t l ht => t.obtain_image _ l _ _ ht) _ s h
    · rfl
  · rfl
@[simp] theorem State.writeVia_image (s : State) (e : EtuId) (v : Via) (a : Nat) (b : List Byte) (h : s.image.committed = false) :
    (s.writeVia e v a b).image = s.image := by
  unfold State.writeVia
  split
  · simp [h]
  · split
    · rfl
    · refine foldl_image_uncommitted _ ?_ _ s h
      intro t x ht; split <;> simp [ht]
@[simp] theorem State.verifyTiles_image (s : State) (a n : Nat) : (s.verifyTiles a n).image = s.image := by
  unfold State.verifyTiles State.cleanTile
  split
  · refine foldl_image _ (fun t x => foldl_image _ ?_ _ t) _ s
    intro u l; split <;> simp
  · rfl
@[simp] theorem State.translate_image (s : State) (e : EtuId) (ctx : BitVec 6) (va : Nat) (acc : Access) (seq : Bool)
    (h : s.image.committed = false) : (s.translate e ctx va acc seq).2.image = s.image := by
  unfold State.translate; dsimp only; (repeat' split) <;> simp [h]
@[simp] theorem State.agentLocate_image (e : EtuId) (ctx : BitVec 6) (acc : Access) (ps : List (Nat × Nat)) : ∀ s : State,
    s.image.committed = false → (s.agentLocate e ctx acc ps).2.image = s.image := by
  induction ps with
  | nil => exact fun _ _ => rfl
  | cons p ps ih =>
    intro s h
    unfold State.agentLocate
    grind [State.translate_image]
@[simp] theorem State.pcieRead_image (s : State) (a n : Nat) : (s.pcieRead a n).2.image = s.image := by
  unfold State.pcieRead; dsimp only; split <;> rfl
@[simp] theorem State.agentBytes_image (s : State) (v : Via) (a n : Nat) (h : s.image.committed = false) :
    (s.agentBytes v a n).2.image = s.image := by
  unfold State.agentBytes; split <;> simp [h]
@[simp] theorem State.agentGather_image (v : Via) (verify : Bool) (ps : List (Nat × Nat)) : ∀ (s : State) (va : Nat),
    s.image.committed = false → (s.agentGather v verify va ps).2.image = s.image := by
  induction ps with
  | nil => exact fun _ _ _ => rfl
  | cons p ps ih =>
    intro s va h
    unfold State.agentGather
    grind [State.verifyTiles_image, State.agentBytes_image]
@[simp] theorem State.agentRead_image (s : State) (e : EtuId) (v : Via) (ctx : BitVec 6) (va n : Nat) (verify : Bool)
    (h : s.image.committed = false) : (s.agentRead e v ctx va n verify).2.image = s.image := by
  unfold State.agentRead
  grind [State.agentLocate_image, State.agentGather_image]
@[simp] theorem State.agentScatter_image (e : EtuId) (v : Via) (ps : List (Nat × Nat)) : ∀ (s : State) (b : List Byte),
    s.image.committed = false → (s.agentScatter e v ps b).image = s.image := by
  induction ps with
  | nil => exact fun _ _ _ => rfl
  | cons p ps ih =>
    intro s b h
    unfold State.agentScatter
    dsimp only
    split <;> simp [ih, h]
theorem State.agentWrite_image {s t u : State} {e : EtuId} {v : Via} {ctx : BitVec 6} {va : Nat} {b : List Byte}
    (h : s.image.committed = false) (ht : s.agentWrite e v ctx va b = (.ok t, u)) : t.image = s.image := by
  unfold State.agentWrite at ht
  grind [State.agentLocate_image, State.agentScatter_image]
@[simp] theorem State.deliverBatch_image (s : State) (e : EtuId) (late : Bool) (h : s.image.committed = false) :
    (s.deliverBatch e late).image = s.image := by
  unfold State.deliverBatch; dsimp only; (repeat' split) <;> simp [h]
@[simp] theorem State.park_image (s : State) (e : EtuId) (ctx : BitVec 6) (va : Nat) (acc : Access) (c l : Nat) (q : Option Requester)
    (h : s.image.committed = false) : (s.park e ctx va acc c l q).image = s.image := by
  unfold State.park State.deliverIfDue; dsimp only; (repeat' split) <;> simp [h]
theorem State.parkAgent_image {s t : State} {e : EtuId} {ctx : BitVec 6} {f : AgentFault} {acc : Access} {q : Requester}
    (h : s.image.committed = false) (ht : s.parkAgent e ctx f acc q = some t) : t.image = s.image := by
  unfold State.parkAgent at ht
  grind [State.park_image]

/-! ## Mover channels -/

@[simp] theorem State.moverIrq_image (s : State) (m : MoverId) : (s.moverIrq m).image = s.image := by
  unfold State.moverIrq; split <;> simp
@[simp] theorem State.mvTouch_image (s : State) (m : MoverId) (va : Nat) (b : List Byte) (h : s.image.committed = false) :
    (s.mvTouch m va b).image = s.image := by
  unfold State.mvTouch
  refine foldl_image_uncommitted _ ?_ _ s.bump h
  grind [State.agentWrite_image]
@[simp] theorem State.mvLate_image (m : MoverId) (fuel : Nat) : ∀ s : State, s.image.committed = false →
    (State.mvLate m fuel s).image = s.image := by
  induction fuel with
  | zero => exact fun _ _ => rfl
  | succ n ih =>
    intro s h
    unfold State.mvLate
    dsimp only
    (repeat' split) <;> simp [ih, h]
@[simp] theorem State.haltMover_image (s : State) (m : MoverId) (c : Nat) (w : Bool) (va : Nat) (pa : Option Nat)
    (h : s.image.committed = false) : (s.haltMover m c w va pa).image = s.image := by
  unfold State.haltMover State.mvRest; dsimp only; split <;> simp [h]
@[simp] theorem State.stopMover_image (s : State) (m : MoverId) (w : MvStop) (h : s.image.committed = false) :
    (s.stopMover m w).image = s.image := by
  unfold State.stopMover
  grind [State.haltMover_image, State.parkAgent_image, State.setMover_image]
@[simp] theorem State.freeDst_image (s : State) (m : MoverId) (p : List Word × Nat) (h : s.image.committed = false) :
    (s.freeDst m p).image = s.image := by
  unfold State.freeDst
  refine foldl_image_uncommitted _ ?_ _ s h
  grind [State.agentLocate_image, State.agentScatter_image, State.bump_image]
@[simp] theorem State.fetchDesc_image (m : MoverId) (fuel : Nat) : ∀ s : State, s.image.committed = false →
    (s.fetchDesc m fuel).image = s.image := by
  have overtaken (ps : List (List Word × Nat)) (t : State) (ht : t.image.committed = false) :
      (ps.foldl (fun (t : State) p => t.freeDst m p) t).image = t.image :=
    foldl_image_uncommitted _ (fun u p hu => u.freeDst_image m p hu) ps t ht
  induction fuel with
  | zero => exact fun _ _ => rfl
  | succ n ih =>
    intro s h
    unfold State.fetchDesc
    grind [State.setMover_image, State.agentRead_image, State.stopMover_image, State.haltMover_image]
@[simp] theorem State.rekick_image (s : State) (m : MoverId) (h : s.image.committed = false) : (s.rekick m).image = s.image := by
  unfold State.rekick State.kickMover State.wakeMover
  dsimp only
  (repeat' split) <;> simp [h]

/-! ## The flip of one module (02 R65, R66) -/

@[simp] theorem State.retrainPort_image (s : State) (p : Fin 12) : (s.retrainPort p).image = s.image := by
  unfold State.retrainPort State.dropWaiting
  exact foldl_image _ (fun t f => t.leaveBuffer_image f) _ _
@[simp] theorem State.bindArray_image (s : State) (i : Nat) (restart rings : Bool) : (s.bindArray i restart rings).image = s.image := by
  unfold State.bindArray
  refine (foldl_image _ ?_ _ _).trans (foldl_image _ ?_ _ _) <;> exact fun _ _ => rfl
@[simp] theorem State.resetSequencer_image (s : State) (d : Fin 4) (cl : Fin 24) : (s.resetSequencer d cl).image = s.image := by
  unfold State.resetSequencer; dsimp only; split <;> simp [State.dropRequester]
@[simp] theorem State.releaseCore_image (s : State) (d : Fin 4) (cl : Fin 24) : (s.releaseCore d cl).image = s.image := by
  unfold State.releaseCore; dsimp only; (repeat' split) <;> simp

/-- An image store that differs in the sections in force and in those that wait, at most. -/
def Image.SameButSections (i j : Image) : Prop := ∃ m next, j = { i with secs := m, secsNext := next }

theorem Image.SameButSections.setSec {i : Image} {s : State} (h : i.SameButSections s.image) (k : Nat) (b : List Byte) :
    i.SameButSections (s.setSec k b).image := by
  obtain ⟨m, next, h⟩ := h
  exact ⟨mset [] m k b, next, by rw [State.setSec, h]⟩

/-- The effects of a flip on the sections change no more of the image store than those. -/
theorem State.applyFlip_image (s : State) : s.image.SameButSections s.applyFlip.image := by
  unfold State.applyFlip
  extract_lets new sec old wait s1 s2 image2 s3 s4 s5 snap5 s6 gone
  have h1 : s.image.SameButSections s1.image :=
    foldl_keeps (fun t : State => s.image.SameButSections t.image) _ (fun t k ht => ht.setSec k _) _ s ⟨_, _, rfl⟩
  have h3 : s.image.SameButSections s3.image := by
    obtain ⟨m, next, h2⟩ := h1.setSec 4 (withBridle (sec 4) (old 4))
    exact ⟨m, wait 4 (wait 10 s2.image.secsNext), by simp only [s3, image2, s2, h2]⟩
  have h4 : s4.image = s3.image := foldl_image _ (fun t i => by split <;> simp) _ s3
  have h5 : s5.image = s4.image := foldl_image _ (fun t p => by split <;> simp) _ s4
  have h6 : s6.image = s5.image := by dsimp only [s6]; split <;> rfl
  rwa [← h4, ← h5, ← h6] at h3

/-- The image store after the slots have swapped, with the sections `m` in force and `next` to come. -/
def Image.flipped (i : Image) (m : SMap (List Byte)) (next : SMap (Option (List Byte))) : Image :=
  { i with
    activeIsB := !i.activeIsB, selSeq := i.selSeq + 1, shd := .retired, hold := false, committed := false, applying := false
    secs := m, secsNext := next }

theorem State.flipApplied_ignored (s : State) (h : s.image.applying = false ∨ s.imageInForce = false) : s.flipApplied = s := by
  unfold State.flipApplied
  rw [if_pos (by simpa using h)]

/-- A flip that applies swaps the slots; the sequencers and movers that it starts leave the image store as the swap left it, for no flip
is committed any more. -/
theorem State.flipApplied_image (s : State) (ha : s.image.applying = true) (hf : s.imageInForce = true) :
    ∃ m next, s.flipApplied.image = s.image.flipped m next := by
  obtain ⟨m, next, hm⟩ := s.applyFlip_image
  refine ⟨m, next, ?_⟩
  unfold State.flipApplied
  rw [if_neg (by simp [ha, hf])]
  extract_lets changed s1 image1 s2 s3
  have h2 : s2.image = s.image.flipped m next := by simp only [s2, image1, s1, hm, Image.flipped]
  have h3 : s3.image = s2.image := by
    refine foldl_image _ (fun t n => ?_) changed s2
    dsimp only; split <;> simp
  rw [foldl_image_uncommitted _ (fun t x ht => t.rekick_image x ht) _ _ (by rw [h3]), h3, h2]

/-! ## The slots and the state of SHADOW (02 R58, R59, R62, R63) -/

/-- An image is in force: the words of 02 R62. -/
theorem Image.inForce_iff (i : Image) : i.inForce = true ↔ i.active ≠ [] ∧ i.noActive = false := by
  simp [Image.inForce]

/-- A write into an erased slot: what precedes it reads as erased. -/
theorem slotWrite_nil (off : Nat) (data : List Byte) : slotWrite [] off data = List.replicate off 0xFF ++ data := by
  simp [slotWrite, splice, fitTo]

/-- A write within what a slot holds replaces those bytes. -/
theorem slotWrite_within (b data : List Byte) (off : Nat) (h : off + data.length ≤ b.length) :
    slotWrite b off data = b.take off ++ data ++ b.drop (off + data.length) := by
  have hm : max off b.length = b.length := by omega
  simp [slotWrite, splice, fitTo, hm]

/-- A write that ends beyond the slot is refused. -/
theorem Image.write_beyond (i : Image) (mgmt : Bool) (off : Nat) (data : List Byte) (h : slotSize < off + data.length) :
    i.write mgmt off data = none := if_pos h

/-- The first write erases the slot and begins a load of its path. -/
theorem Image.write_erases (i : Image) (mgmt : Bool) (off : Nat) (data : List Byte) (hfit : off + data.length ≤ slotSize)
    (h : i.shd = .empty ∨ i.shd = .invalid ∨ i.shd = .retired) :
    i.write mgmt off data = some (({ i with shd := .loading, loadPath := mgmt }).setShadow (List.replicate off 0xFF ++ data)) := by
  unfold Image.write
  rw [if_neg (by omega)]
  rcases h with h | h | h <;> simp [h, slotWrite_nil]

/-- A load goes on by its own path alone. -/
theorem Image.write_loading (i : Image) (mgmt : Bool) (off : Nat) (data : List Byte) (hfit : off + data.length ≤ slotSize)
    (h : i.shd = .loading) :
    i.write mgmt off data = if i.loadPath = mgmt then some (i.setShadow (slotWrite i.shadow off data)) else none := by
  unfold Image.write
  rw [if_neg (by omega), h]

/-- A SHADOW under validation, validated, armed or waiting for a reset takes no write. -/
theorem Image.write_refused (i : Image) (mgmt : Bool) (off : Nat) (data : List Byte)
    (h : i.shd = .validating ∨ i.shd = .valid ∨ i.shd = .armed ∨ i.shd = .resetPending) : i.write mgmt off data = none := by
  unfold Image.write
  rcases h with h | h | h | h <;> simp [h]

/-- A write that SHADOW takes. -/
theorem State.loadWindow_taken {s : State} {off : Nat} {data : List Byte} {i : Image} (h : s.image.write false off data = some i) :
    s.loadWindow off data = { s with image := i } := by
  unfold State.loadWindow; rw [h]

/-- A write that SHADOW refuses. -/
theorem State.loadWindow_refused {s : State} {off : Nat} {data : List Byte} (h : s.image.write false off data = none) :
    s.loadWindow off data = s := by
  unfold State.loadWindow; rw [h]

/-- A validation that finds a failure records it. -/
theorem State.validated_bad {s : State} {r : Reject} (h : s.image.shd = .validating)
    (hbad : imageBad s.validation s.image.shadow = some r) :
    s.validated = { s with image := { s.image with
      shd := .invalid, rejCode := BitVec.ofNat 8 r.code, rejType := BitVec.ofNat 8 r.type, rejOffset := BitVec.ofNat 24 r.offset } } := by
  simp [State.validated, h, hbad]

/-- A validation that finds none: RESET-PENDING where a flip would change a reset-class section. -/
theorem State.validated_good {s : State} (h : s.image.shd = .validating) (hbad : imageBad s.validation s.image.shadow = none) :
    s.validated = { s with image := { s.image with
      shd := if s.resetClassSame (imageSections s.image.shadow) then .valid else .resetPending
      rejCode := 0, rejType := 0, rejOffset := 0 } } := by
  simp [State.validated, h, hbad]

/-! ## The commands -/

theorem exec_sictlValidate (s : State) : exec .sictlValidate s = .next { s with image := s.image.validate } := rfl
theorem exec_sictlArm (s : State) : exec .sictlArm s = .next { s with image := s.image.arm } := rfl
theorem exec_sictlDisarm (s : State) : exec .sictlDisarm s = .next { s with image := s.image.disarm } := rfl
theorem exec_sictlClear (s : State) : exec .sictlClear s = .next { s with image := s.image.clear } := rfl
theorem exec_loadWindowWrite (s : State) (off : Nat) (data : List Byte) :
    exec (.loadWindowWrite off data) s = .next (s.loadWindow off data) := rfl
theorem exec_imageValidationComplete (s : State) : exec .imageValidationComplete s = .next s.validated := rfl
theorem exec_flipApplyDone (s : State) : exec .flipApplyDone s = .next s.flipApplied := rfl

/-- Settles O7, a case for each clause: the actions of `SICTL` and the writes by the branches of `Image`'s operations, the flip by what it
leaves of the image store. -/
theorem imageStore : Obligations.ImageStore := by
  unfold Obligations.ImageStore
  intro s off data i now inForce fits
  have hforce : i.inForce = true ↔ inForce := i.inForce_iff
  refine ⟨?validate, ?arm, ?disarm, ?clear, ?erase, ?load, ?refuse, ?notValidating, ?validated, ?noFlip, ?flip⟩
  case validate =>
    rw [exec_sictlValidate, Image.validate]
    split <;> rfl
  case arm =>
    simp only [exec_sictlArm, Image.arm, hforce, i, now]
    split <;> rfl
  case disarm =>
    simp only [exec_sictlDisarm, Image.disarm, Bool.not_eq_true', i, now]
    split <;> rfl
  case clear =>
    rw [exec_sictlClear, Image.clear]
    split <;> rfl
  case erase =>
    intro hfit h
    rw [exec_loadWindowWrite, State.loadWindow_taken (i.write_erases false off data hfit h)]
  case load =>
    intro hfit h hpath hwithin
    have hw := i.write_loading false off data hfit h
    rw [if_pos hpath, slotWrite_within _ _ _ hwithin] at hw
    rw [exec_loadWindowWrite, State.loadWindow_taken hw]
  case refuse =>
    intro h
    have hw : i.write false off data = none := by
      by_cases hfit : off + data.length ≤ slotSize
      · rcases h with h | ⟨h, hpath⟩ | h
        · exact absurd hfit (Nat.not_le.2 h)
        · rw [i.write_loading _ _ _ hfit h, if_neg (by simp [hpath])]
        · exact i.write_refused _ _ _ h
      · exact i.write_beyond _ _ _ (Nat.not_le.1 hfit)
    rw [exec_loadWindowWrite, State.loadWindow_refused hw]
  case notValidating =>
    intro h
    rw [exec_imageValidationComplete, State.validated, if_pos h]
  case validated =>
    intro h
    rw [exec_imageValidationComplete]
    cases hbad : imageBad s.validation i.shadow with
    | some r => rw [State.validated_bad h hbad]
    | none => rw [State.validated_good h hbad]
  case noFlip =>
    intro h
    rw [← hforce, Bool.not_eq_true] at h
    rw [exec_flipApplyDone, s.flipApplied_ignored h]
  case flip =>
    intro ha hf
    obtain ⟨m, next, hm⟩ := s.flipApplied_image ha (hforce.2 hf)
    exact ⟨_, exec_flipApplyDone s, by simp [hm, Image.flipped, i]⟩

end Sys2Proof.Machine
end

section
/-! SUPPORT. Every step keeps the sparse stores in canonical form (O56). The invariant `State.StoresOk` is proved to go through each
operation of the model on its own, in the order in which the model defines them; a step is a chain of these. -/

-- One proof after the other: each of these many short proofs asks for the equations of its operation, and side by side they ask the
-- checker for more threads than its memory limit holds.
set_option Elab.async false

namespace Sys2Proof.Machine

/-! ## What carries canonical stores

`State.StoresOk` speaks of a state; the operations of the model answer with a state beside other data, with one or none, or with one of the
outcomes of an instruction, of an engine or of an access. Each such answer gets a predicate that says the same of every state in it. A
lemma `State.StoresOk.f` says that the operation `f` keeps canonical stores, so that a chain of operations is proved by the chain of their
lemmas, read as the model writes it: `h.setMcq.bump`. -/

/-- Only the six stores count: an update of any other field leaves them canonical. -/
theorem State.StoresOk.same {s t : State} (h : s.StoresOk)
    (e : (t.cores, t.quads, t.lines, t.cre, t.host.hirte, t.tiles) = (s.cores, s.quads, s.lines, s.cre, s.host.hirte, s.tiles) := by rfl) :
    t.StoresOk := by
  simp only [Prod.mk.injEq] at e
  obtain ⟨hcores, hquads, hlines, hcre, hhirte, htiles⟩ := e
  rwa [State.StoresOk, State.CoresOk, hcores, hquads, hlines, hcre, hhirte, htiles]

theorem State.StoresOk.foldl {α : Type} {f : State → α → State} {l : List α} {s : State} (h : s.StoresOk)
    (hf : ∀ {t : State} {x}, t.StoresOk → (f t x).StoresOk) : (l.foldl f s).StoresOk :=
  foldl_keeps State.StoresOk f (fun _ _ h => hf h) l s h

theorem State.StoresOk.ite {p : Prop} [Decidable p] {s t : State} (h : s.StoresOk) (h' : t.StoresOk) : (if p then s else t).StoresOk := by
  split <;> assumption

theorem State.StoresOk.of_snd {α : Type} {x : α × State} {a : α} {t : State} (h : x.2.StoresOk) (e : x = (a, t)) : t.StoresOk := by
  rw [e] at h
  exact h

theorem State.StoresOk.of_fst {α : Type} {x : State × α} {a : α} {t : State} (h : x.1.StoresOk) (e : x = (t, a)) : t.StoresOk := by
  rw [e] at h
  exact h

theorem State.StoresOk.of_snd_snd {α β : Type} {x : α × β × State} {a : α} {b : β} {t : State} (h : x.2.2.StoresOk)
    (e : x = (a, b, t)) : t.StoresOk := by
  rw [e] at h
  exact h

/-- Canonical stores where there is a state. -/
def MaybeOk : Option State → Prop
  | some t => t.StoresOk
  | none => True

theorem MaybeOk.get {o : Option State} {t : State} (h : MaybeOk o) (e : o = some t) : t.StoresOk := by
  rw [e] at h
  exact h

theorem MaybeOk.getD {o : Option State} {s : State} (ho : MaybeOk o) (h : s.StoresOk) : (o.getD s).StoresOk := by
  cases o with
  | none => exact h
  | some t => exact ho

theorem MaybeOk.map {α : Type} {o : Option α} {f : α → State} (h : ∀ a, o = some a → (f a).StoresOk) : MaybeOk (o.map f) := by
  cases o with
  | none => trivial
  | some a => exact h a rfl

theorem MaybeOk.orElse {o : Option State} {f : Unit → Option State} (h : MaybeOk o) (h' : MaybeOk (f ())) : MaybeOk (o.orElse f) := by
  cases o with
  | none => exact h'
  | some t => exact h

theorem MaybeOk.findSome {α : Type} {f : α → Option State} (h : ∀ a, MaybeOk (f a)) (l : List α) : MaybeOk (l.findSome? f) := by
  cases e : l.findSome? f with
  | none => trivial
  | some t =>
    obtain ⟨a, -, ha⟩ := List.exists_of_findSome?_eq_some e
    exact (h a).get ha

/-- `P` of what an operation fails with, `Q` of what it gives. -/
def EitherOk {ε α : Type} (P : ε → Prop) (Q : α → Prop) : Except ε α → Prop
  | .error e => P e
  | .ok a => Q a

theorem EitherOk.of_ok {ε α : Type} {P : ε → Prop} {Q : α → Prop} {x : Except ε α} {a : α} (h : EitherOk P Q x)
    (e : x = .ok a) : Q a := by
  rw [e] at h
  exact h

theorem EitherOk.of_error {ε α : Type} {P : ε → Prop} {Q : α → Prop} {x : Except ε α} {a : ε} (h : EitherOk P Q x)
    (e : x = .error a) : P a := by
  rw [e] at h
  exact h

theorem EitherOk.bind {ε α β : Type} {P : ε → Prop} {Q : α → Prop} {R : β → Prop} {x : Except ε α} {f : α → Except ε β}
    (h : EitherOk P Q x) (hf : ∀ a, Q a → EitherOk P R (f a)) : EitherOk P R (x >>= f) := by
  cases x with
  | error e => exact h
  | ok a => exact hf a h

/-- Canonical stores, however a unit of an engine command ends. -/
def EngOk : EngRes → Prop
  | .go _ s => s.StoresOk
  | .hold _ s => s.StoresOk
  | .stop _ s _ => s.StoresOk

theorem EngOk.bind {r f} (h : EngOk r) (hf : ∀ {c t}, t.StoresOk → EngOk (f c t)) : EngOk (r.bind f) := by
  cases r with
  | go c t => exact hf h
  | hold c t => exact h
  | stop c t why => exact h

theorem EngOk.of_go {r c t} (h : EngOk r) (e : r = .go c t) : t.StoresOk := by
  rw [e] at h
  exact h

theorem EngOk.of_hold {r c t} (h : EngOk r) (e : r = .hold c t) : t.StoresOk := by
  rw [e] at h
  exact h

theorem EngOk.of_stop {r c t w} (h : EngOk r) (e : r = .stop c t w) : t.StoresOk := by
  rw [e] at h
  exact h

/-- Canonical stores, however an instruction ends. -/
def ResOk : Res → Prop
  | .done s _ _ => s.StoresOk
  | .trap s _ _ _ => s.StoresOk
  | .waits s _ => s.StoresOk
  | .completing s _ _ _ => s.StoresOk

theorem ResOk.of_done {r t k c} (h : ResOk r) (e : r = .done t k c) : t.StoresOk := by
  rw [e] at h
  exact h

theorem ResOk.of_trap {r t c d a} (h : ResOk r) (e : r = .trap t c d a) : t.StoresOk := by
  rw [e] at h
  exact h

theorem ResOk.of_waits {r t w} (h : ResOk r) (e : r = .waits t w) : t.StoresOk := by
  rw [e] at h
  exact h

theorem ResOk.of_completing {r t k c d} (h : ResOk r) (e : r = .completing t k c d) : t.StoresOk := by
  rw [e] at h
  exact h

/-- Canonical stores, whether a load finds its bytes or stops its instruction. -/
def LoadedOk : Loaded → Prop
  | .ok s _ => s.StoresOk
  | .stop r => ResOk r

theorem LoadedOk.of_ok {r t b} (h : LoadedOk r) (e : r = .ok t b) : t.StoresOk := by
  rw [e] at h
  exact h

theorem LoadedOk.of_stop {r x} (h : LoadedOk r) (e : r = .stop x) : ResOk x := by
  rw [e] at h
  exact h

/-- Canonical stores after a command that has a next state. -/
def OutcomeOk : Host.Outcome State Fault Refusal → Prop
  | .next t => t.StoresOk
  | _ => True

theorem OutcomeOk.of_next {x t} (h : OutcomeOk x) (e : x = .next t) : t.StoresOk := by
  rw [e] at h
  exact h

/-! ## The stores themselves -/

theorem mem_merase {α : Type} {m : SMap α} {k : Nat} {x : Nat × α} (hx : x ∈ merase k m) : x ∈ m := by
  induction m with
  | nil => exact hx
  | cons y m ih =>
    rw [merase] at hx
    split at hx
    · exact List.mem_cons_of_mem _ (ih hx)
    · exact (List.mem_cons.1 hx).elim (fun e => e ▸ List.mem_cons_self) fun hm => List.mem_cons_of_mem _ (ih hm)

theorem mem_minsert {α : Type} {m : SMap α} {k : Nat} {v : α} {x : Nat × α} (hx : x ∈ minsert k v m) : x ∈ m ∨ x = (k, v) := by
  induction m with
  | nil => exact Or.inr (List.mem_singleton.1 hx)
  | cons y m ih =>
    rw [minsert] at hx
    split at hx
    · exact (List.mem_cons.1 hx).symm
    · split at hx
      · exact (List.mem_cons.1 hx).symm.imp_left (List.mem_cons_of_mem _)
      · rcases List.mem_cons.1 hx with rfl | hm
        · exact Or.inl List.mem_cons_self
        · exact (ih hm).imp_left (List.mem_cons_of_mem _)

/-- What a store lists after a write was listed before or is what was written. -/
theorem mem_mset {α : Type} [DecidableEq α] {d : α} {m : SMap α} {k : Nat} {v : α} {x : Nat × α} (hx : x ∈ mset d m k v) :
    x ∈ m ∨ x = (k, v) := by
  unfold mset at hx
  split at hx
  · exact Or.inl (mem_merase hx)
  · exact mem_minsert hx

theorem mget_induction {α : Type} {P : α → Prop} {d : α} {m : SMap α} {k : Nat} (hd : P d)
    (hm : ∀ x ∈ m, P x.2) : P (mget d m k) := by
  induction m with
  | nil => exact hd
  | cons y m ih =>
    rw [mget]
    split
    · exact hm y List.mem_cons_self
    · exact ih fun x hx => hm x (List.mem_cons_of_mem _ hx)

section
variable {s : State}

theorem State.StoresOk.setCore {c k} (h : s.StoresOk) : (s.setCore c k).StoresOk := ⟨mwf_mset _ _ _ _ h.1, h.2⟩

theorem State.StoresOk.modCore {c f} (h : s.StoresOk) : (s.modCore c f).StoresOk := h.setCore

theorem State.StoresOk.setQuad {p q} (h : s.StoresOk) : (s.setQuad p q).StoresOk := ⟨h.1, mwf_mset _ _ _ _ h.2.1, h.2.2⟩

theorem State.StoresOk.setLine {c l x} (h : s.StoresOk) : (s.setLine c l x).StoresOk :=
  ⟨h.1, h.2.1, mwf_mset _ _ _ _ h.2.2.1, h.2.2.2⟩

end

/-! # Canonical stores through the units, the memory and the coherence protocol. -/

section
variable {s : State}

/-! ## The units of the module (Machine/Ops) -/

theorem State.StoresOk.setTile {t x} (h : s.StoresOk) (hx : mwf 0 x.entries = true) : (s.setTile t x).StoresOk := by
  obtain ⟨hcores, hquads, hlines, hcre, hhirte, htiles⟩ := h
  refine ⟨hcores, hquads, hlines, hcre, hhirte, fun y hy => ?_⟩
  rcases mem_mset hy with hy | rfl
  · exact htiles y hy
  · exact hx

theorem State.StoresOk.tile {t} (h : s.StoresOk) : mwf 0 (s.tile t).entries = true := by
  obtain ⟨-, -, -, -, -, htiles⟩ := h
  exact mget_induction (P := fun x : Tile => mwf 0 x.entries = true) rfl htiles

theorem State.StoresOk.setEngine {e x} (h : s.StoresOk) : (s.setEngine e x).StoresOk := h.same

theorem State.StoresOk.setMover {m x} (h : s.StoresOk) : (s.setMover m x).StoresOk := h.same

theorem State.StoresOk.setEtu {e x} (h : s.StoresOk) : (s.setEtu e x).StoresOk := h.same

theorem State.StoresOk.setBlock {b x} (h : s.StoresOk) : (s.setBlock b x).StoresOk := h.same

theorem State.StoresOk.setStack {n x} (h : s.StoresOk) : (s.setStack n x).StoresOk := h.same

theorem State.StoresOk.setPort {p x} (h : s.StoresOk) : (s.setPort p x).StoresOk := h.same

theorem State.StoresOk.setTport {p x} (h : s.StoresOk) : (s.setTport p x).StoresOk := h.same

theorem State.StoresOk.setCdPwr {d x} (h : s.StoresOk) : (s.setCdPwr d x).StoresOk := h.same

theorem State.StoresOk.setMcq {n x} (h : s.StoresOk) : (s.setMcq n x).StoresOk := h.same

theorem State.StoresOk.emit {o} (h : s.StoresOk) : (s.emit o).StoresOk := h.same

theorem State.StoresOk.bump (h : s.StoresOk) : s.bump.StoresOk := h.same

theorem State.StoresOk.sampleCounter (h : s.StoresOk) : s.sampleCounter.StoresOk := h.same

theorem State.StoresOk.pendVector {core vector} (h : s.StoresOk) : (s.pendVector core vector).StoresOk := by
  unfold State.pendVector
  dsimp only
  exact h.same

/-- A write of one entry of the host interrupt table. -/
theorem State.StoresOk.setHirte {n x} (h : s.StoresOk) :
    State.StoresOk { s with host := { s.host with hirte := mset Hirte.reset s.host.hirte n x } } := by
  obtain ⟨hcores, hquads, hlines, hcre, hhirte, htiles⟩ := h
  exact ⟨hcores, hquads, hlines, hcre, mwf_mset _ _ _ _ hhirte, htiles⟩

theorem State.StoresOk.hicDeliver {n} (h : s.StoresOk) : (s.hicDeliver n).StoresOk := h.setHirte.pendVector.ite h

theorem State.StoresOk.hicSource {n} (h : s.StoresOk) : (s.hicSource n).StoresOk := h.setHirte.hicDeliver.ite h

theorem State.StoresOk.wakeCd {d} (h : s.StoresOk) : (s.wakeCd d).StoresOk := h.setCdPwr.ite h

theorem State.StoresOk.setIpend {d cl i} (h : s.StoresOk) : (s.setIpend d cl i).StoresOk := h.wakeCd.modCore

theorem State.StoresOk.sendOn {ports blocks} (h : s.StoresOk) : (s.sendOn ports blocks).StoresOk := by
  unfold State.sendOn
  extract_lets kind
  refine h.foldl fun ht => ?_
  extract_lets x
  exact ht.ite ht.same

theorem State.StoresOk.tetherTick (h : s.StoresOk) : s.tetherTick.StoresOk := by
  unfold State.tetherTick
  split
  · exact h
  · refine h.foldl fun ht => ?_
    split
    exact ht.same.foldl fun ht => ht.emit

theorem State.StoresOk.nextTseq (h : s.StoresOk) : s.nextTseq.StoresOk := h.same

theorem State.StoresOk.floodStop {except origin tseq cause} (h : s.StoresOk) : (s.floodStop except origin tseq cause).StoresOk := h.sendOn

theorem State.StoresOk.sampleDryOf {p} (h : s.StoresOk) : (s.sampleDryOf p).StoresOk := by
  unfold State.sampleDryOf
  split
  · exact h
  · refine h.foldl fun ht => ?_
    have ⟨hcores, hquads, hrest⟩ := ht
    split
    · exact State.StoresOk.bump ⟨hcores, mwf_mset _ _ _ _ hquads, hrest⟩
    · exact ht

theorem State.StoresOk.sampleDry {p} (h : s.StoresOk) : (s.sampleDry p).StoresOk := h.sampleDryOf

theorem State.StoresOk.takeStop {origin cause} (h : s.StoresOk) : (s.takeStop origin cause).StoresOk := h.sampleDryOf.same

theorem State.StoresOk.stopUnits (h : s.StoresOk) : s.stopUnits.StoresOk := h.same

theorem State.StoresOk.stopHere {origin cause} (h : s.StoresOk) : (s.stopHere origin cause).StoresOk := h.takeStop.ite h.takeStop.stopUnits

theorem State.StoresOk.injectStop {cause} (h : s.StoresOk) : (s.injectStop cause).StoresOk := h.nextTseq.floodStop.stopHere

theorem State.StoresOk.faultPart {p cause} (h : s.StoresOk) : (s.faultPart p cause).StoresOk := h.sampleDry.setQuad.ite h.sampleDry

theorem State.StoresOk.containCluster {d cl} (h : s.StoresOk) : (s.containCluster d cl).StoresOk :=
  (h.foldl fun ht => ht.faultPart.ite ht).modCore.setMover.setMover

theorem State.StoresOk.containDie {d} (h : s.StoresOk) : (s.containDie d).StoresOk :=
  ((h.foldl fun ht => ht.containCluster).foldl fun ht => ht.setEngine).foldl fun ht => ht.setMover

theorem State.StoresOk.logFatal {r} (h : s.StoresOk) : (s.logFatal r).StoresOk := h.same

theorem State.StoresOk.driveFailstop (h : s.StoresOk) : s.driveFailstop.StoresOk := h.ite h.same.emit

theorem State.StoresOk.pcieDown (h : s.StoresOk) : s.pcieDown.StoresOk := h.same.hicSource

/-- A change of every core that is listed: none stays listed at its reset value. -/
theorem State.StoresOk.mapCores {f} (h : s.StoresOk) : State.StoresOk { s with cores := mmap Core.reset f s.cores } :=
  ⟨mwf_mmap _ _ _ h.1, h.2⟩

theorem State.StoresOk.failStop {cls} (h : s.StoresOk) : (s.failStop cls).StoresOk := by
  unfold State.failStop
  split
  · exact h
  · extract_lets cause s1 _ s2
    have hs1 : s1.StoresOk := h.injectStop
    have hs2 : s2.StoresOk := hs1.mapCores.same
    exact (hs2.ite hs2.pcieDown).driveFailstop

theorem State.StoresOk.faultOwn {d r} (h : s.StoresOk) : (s.faultOwn d r).StoresOk := h.faultPart.ite (h.setEngine.ite h)

theorem State.StoresOk.contain {r} (h : s.StoresOk) : (s.contain r).StoresOk := by
  unfold State.contain
  split
  · exact h
  · extract_lets d s1
    have hs1 : s1.StoresOk := h.faultOwn
    split
    · split
      · exact hs1.containCluster
      · exact hs1
    · exact hs1.containDie
    · exact hs1

theorem State.StoresOk.mcInterrupt {r} (h : s.StoresOk) : (s.mcInterrupt r).StoresOk := by
  unfold State.mcInterrupt
  split
  · exact h.hicSource
  · split
    · split
      · exact h.setIpend
      · exact h
    · exact h

theorem State.StoresOk.reportFatal {r} (h : s.StoresOk) : (s.reportFatal r).StoresOk := by
  unfold State.reportFatal
  extract_lets r'
  split
  · exact h.logFatal
  · split
    · extract_lets s1 r''
      have hs1 : s1.StoresOk := h.setMcq
      exact hs1.logFatal.mcInterrupt.failStop

theorem State.StoresOk.reportFull {r} (h : s.StoresOk) : (s.reportFull r).StoresOk := h.logFatal.ite h.logFatal.mcInterrupt.failStop

theorem State.StoresOk.report {r0} (h : s.StoresOk) : (s.report r0).StoresOk := by
  unfold State.report
  extract_lets s' r q past
  have hs' : s'.StoresOk := h.sampleCounter
  split
  · exact hs'.setMcq.bump.ite hs'.setMcq
  · split
    exact hs'.setMcq.mcInterrupt.ite hs'.setMcq
  · split
    · exact hs'.reportFatal
    · split
      exact hs'.setMcq.mcInterrupt.contain.ite hs'.reportFull
  · exact hs'.reportFatal

/-! ## Physical memory (Machine/Memory) -/

theorem State.StoresOk.dramWrite {line data full} (h : s.StoresOk) : (s.dramWrite line data full).StoresOk := by
  unfold State.dramWrite
  extract_lets s1
  have hs1 : s1.StoresOk := h.same
  split
  · extract_lets k
    exact hs1.setBlock
  · exact hs1

/-- The same for the cache lines. -/
theorem State.StoresOk.mapLines {f} (h : s.StoresOk) : State.StoresOk { s with lines := mmap CacheLine.reset f s.lines } := by
  obtain ⟨hcores, hquads, hlines, hrest⟩ := h
  exact ⟨hcores, hquads, mwf_mmap _ _ _ hlines, hrest⟩

theorem State.StoresOk.mapCopies {line p f} (h : s.StoresOk) : (s.mapCopies line p f).StoresOk := h.mapLines

theorem State.StoresOk.cleanLine {line} (h : s.StoresOk) : (s.cleanLine line).StoresOk := by
  unfold State.cleanLine
  extract_lets d s1
  have hs1 : s1.StoresOk := h.dramWrite
  split
  · exact h
  · exact hs1.same.mapCopies

theorem State.StoresOk.dropReservations {line p} (h : s.StoresOk) : (s.dropReservations line p).StoresOk := h.mapCores

theorem State.StoresOk.invalidate {line keep} (h : s.StoresOk) : (s.invalidate line keep).StoresOk := h.mapCopies.dropReservations

theorem State.StoresOk.mergeDirty {line off data} (h : s.StoresOk) : (s.mergeDirty line off data).StoresOk := h.same

theorem State.StoresOk.carryPoison {b t written} (h : s.StoresOk) : (s.carryPoison b t written).StoresOk := by
  unfold State.carryPoison
  split
  · exact h
  · extract_lets k
    exact h.report.ite h.setBlock.bump

theorem State.StoresOk.copyTile {src dst} (h : s.StoresOk) : (s.copyTile src dst).2.StoresOk := by
  unfold State.copyTile
  extract_lets clean s1 mask
  have hs1 : s1.StoresOk := h.foldl fun ht => ht.dramWrite
  split
  · exact hs1.carryPoison
  · exact hs1

theorem State.StoresOk.copyTiles {src dst tiles} (h : s.StoresOk) : (s.copyTiles src dst tiles).2.StoresOk := by
  refine foldl_keeps (fun x : Bool × State => x.2.StoresOk) _ (fun x i hx => ?_) _ _ h
  split
  exact hx.copyTile.of_snd ‹_›

theorem State.StoresOk.noteCopied {g poisoned} (h : s.StoresOk) : (s.noteCopied g poisoned).StoresOk := h.same

theorem State.StoresOk.copyHome {g base} (h : s.StoresOk) : (s.copyHome g base).StoresOk := by
  unfold State.copyHome
  split
  · exact h.same
  · exact h.copyTiles.noteCopied

theorem State.StoresOk.copyGranule {g} (h : s.StoresOk) : (s.copyGranule g).StoresOk := h.copyHome.ite h

theorem State.StoresOk.countStall (h : s.StoresOk) : s.countStall.StoresOk := h.bump.same

theorem State.StoresOk.demandCopy {line} (h : s.StoresOk) : (s.demandCopy line).StoresOk := h.countStall.same

theorem State.StoresOk.sramWrite {a data} (h : s.StoresOk) : (s.sramWrite a data).StoresOk := h.same

/-! ## Ways of the caches (Machine/Ways) -/

theorem State.StoresOk.used {n line way away} (h : s.StoresOk) : (s.used n line way away).StoresOk := h.same

theorem State.StoresOk.touch {c line} (h : s.StoresOk) : (s.touch c line).StoresOk := h.ite h.used

theorem State.StoresOk.setDirEntry {dir line e} (h : s.StoresOk) : (s.setDirEntry dir line e).StoresOk := h.same.ite h.same

theorem State.StoresOk.modDirEntry {dir line f} (h : s.StoresOk) : (s.modDirEntry dir line f).StoresOk := h.setDirEntry

theorem State.StoresOk.sendSnoop {cache line m} (h : s.StoresOk) : (s.sendSnoop cache line m).StoresOk := h.setLine

theorem State.StoresOk.sendDown {n line m} (h : s.StoresOk) : (s.sendDown n line m).StoresOk := h.same.ite h.sendSnoop

theorem State.StoresOk.startRecall {dir line} (h : s.StoresOk) : (s.startRecall dir line).StoresOk :=
  h.modDirEntry.foldl fun ht => ht.sendSnoop.ite ht.sendDown

theorem State.StoresOk.leaveWay {n line} (h : s.StoresOk) : (s.leaveWay n line).StoresOk := by
  unfold State.leaveWay
  dsimp only
  split
  · exact h.setLine.setLine.setLine.dropReservations
  · exact h.setLine.dropReservations

theorem State.StoresOk.dirWay {line own} (h : s.StoresOk) : (s.dirWay line own).2.StoresOk := by
  unfold State.dirWay
  split
  · exact h
  · extract_lets occ take
    have htake : ∀ {t : State} {x0}, t.StoresOk → (take t x0).StoresOk := fun ht => ht.modDirEntry.used
    split
    · exact htake h
    · split
      · split
        · split
          · exact htake h.modDirEntry
          · exact h.startRecall
        · exact h
      · exact h

theorem State.StoresOk.vacate {n line} (h : s.StoresOk) : (s.vacate n line).2.StoresOk := by
  unfold State.vacate
  split
  · split
    · exact h.leaveWay
    · dsimp only
      exact h.startRecall
  · split
    · extract_lets s1
      have hs1 : s1.StoresOk := (h.cleanLine.ite h).setLine
      split
      · exact hs1
      · split
        · exact hs1.dirWay.of_snd ‹_›
        · exact (hs1.dirWay.of_snd ‹_›).startRecall
    · split
      · exact h.setLine.dropReservations
      · exact h.leaveWay

theorem State.StoresOk.place {n line cls} (h : s.StoresOk) : (s.place n line cls).2.StoresOk := by
  unfold State.place
  extract_lets occ permitted
  split
  · exact h
  · split
    · split
      · split <;> exact h.vacate.of_snd ‹_›
      · exact h
    · exact h

/-! ## Directories (Machine/Directory) -/

theorem State.StoresOk.noteSlot {dir slot} (h : s.StoresOk) : (s.noteSlot dir slot).StoresOk := h.same.ite h.same

theorem State.StoresOk.noteGrant {cache} (h : s.StoresOk) : (s.noteGrant cache).StoresOk := h.noteSlot

theorem State.StoresOk.modLine {cache line f} (h : s.StoresOk) : (s.modLine cache line f).StoresOk := h.setLine

theorem State.StoresOk.grant {cache line st} (h : s.StoresOk) : (s.grant cache line st).StoresOk := h.modLine

theorem State.StoresOk.acked {cache line} (h : s.StoresOk) : (s.acked cache line).StoresOk := h.modLine

theorem State.StoresOk.answered {dir line} (h : s.StoresOk) : (s.answered dir line).StoresOk := h.modDirEntry

theorem State.StoresOk.openEntry {dir line k for'} (h : s.StoresOk) : (s.openEntry dir line k for').StoresOk :=
  (h.foldl fun ht => ht.noteGrant).modDirEntry

theorem State.StoresOk.dropCopy {cache line} (h : s.StoresOk) : (s.dropCopy cache line).StoresOk := by
  unfold State.dropCopy
  extract_lets s1
  have hs1 : s1.StoresOk := h.modLine
  split
  · exact hs1.setLine.setLine.dropReservations
  · exact hs1.dropReservations

theorem State.StoresOk.restate {cache line st} (h : s.StoresOk) : (s.restate cache line st).StoresOk := by
  unfold State.restate
  extract_lets s1
  have hs1 : s1.StoresOk := h.modLine
  split
  · exact hs1.modLine
  · exact hs1

theorem State.StoresOk.handUp {n line} (h : s.StoresOk) : (s.handUp n line).StoresOk := h.restate.modLine.ite h.cleanLine

theorem State.StoresOk.grantOwner {dst line} (h : s.StoresOk) : (s.grantOwner dst line).StoresOk := (h.cleanLine.ite h).dropCopy.grant

theorem State.StoresOk.answerRead {dst line} (h : s.StoresOk) : (s.answerRead dst line).StoresOk := h.grant

theorem State.StoresOk.supply {cache line dst give} (h : s.StoresOk) : (s.supply cache line dst give).StoresOk := by
  unfold State.supply
  extract_lets n dir x toDir dirty s1 s1'
  have hs1 : s1.StoresOk := h.modLine.ite h.dropCopy
  have hs1' : s1'.StoresOk := by
    dsimp only [s1']
    split
    · exact h.handUp.restate
    · exact h.restate
    · exact h.handUp.modLine.ite h
    · exact h
  exact (hs1.grantOwner.ite hs1.grant).ite (hs1'.answered.ite (hs1'.answerRead.ite hs1'.grant))

theorem State.StoresOk.giveBack {cache line} (h : s.StoresOk) : (s.giveBack cache line).StoresOk :=
  (h.handUp.ite h).modLine.ite (h.handUp.ite h).dropCopy

theorem State.StoresOk.serveSnoop {cache line a2} (h : s.StoresOk) : (s.serveSnoop cache line a2).StoresOk := by
  unfold State.serveSnoop
  split
  · exact h.supply
  · exact h.supply
  · exact h.dropCopy.acked
  · exact h.giveBack.answered
  · extract_lets x s1
    have hs1 : s1.StoresOk := h.restate.ite h.modLine
    exact hs1.answered
  · exact h.giveBack.answered

theorem State.StoresOk.wakeFor {a0} (h : s.StoresOk) : (s.wakeFor a0).StoresOk := by
  unfold State.wakeFor
  split
  · exact h.wakeCd
  · exact h.wakeCd
  · exact h

theorem State.StoresOk.takeSnoop {cache line} (h : s.StoresOk) : (s.takeSnoop cache line).StoresOk := by
  unfold State.takeSnoop
  split
  · exact h
  · exact h.wakeFor.modLine.serveSnoop

theorem State.StoresOk.finishTask {d line m} (h : s.StoresOk) : (s.finishTask d line m).StoresOk := by
  unfold State.finishTask
  extract_lets l2 x dirty s1 st
  have hs1 : s1.StoresOk := h.cleanLine.ite h
  split
  · exact hs1.restate.grant
  · exact h.dropCopy.grantOwner
  · exact h.dropCopy.acked
  · exact h.dropCopy.answered
  · exact (h.restate.ite h).answered
  · exact h.dropCopy.answered

theorem State.StoresOk.answerAbsent {d line m} (h : s.StoresOk) : (s.answerAbsent d line m).StoresOk := by
  unfold State.answerAbsent
  extract_lets l2 buffered s1
  have hs1 : s1.StoresOk := h.modLine
  split
  · exact (hs1.cleanLine.ite hs1).answerRead
  · exact hs1.grantOwner
  · exact h.acked
  · exact hs1.answered
  · exact hs1.answered

theorem State.StoresOk.startTask {d line m} (h : s.StoresOk) : MaybeOk (s.startTask d line m) := by
  unfold State.startTask
  extract_lets x asked s1
  have hs1 : s1.StoresOk := h.noteSlot.modDirEntry
  split
  · split
    · trivial
    · exact h.answerAbsent
  · exact hs1.foldl fun ht => ht.sendSnoop

theorem State.StoresOk.missL2 {d line tr r} (h : s.StoresOk) : MaybeOk (s.missL2 d line tr r) := by
  unfold State.missL2
  split
  · trivial
  · extract_lets nt cls s1
    have hs1 : s1.StoresOk := h.modLine.modDirEntry
    exact hs1.same

theorem State.StoresOk.mergeMiss {d line r} (h : s.StoresOk) : MaybeOk (s.mergeMiss d line r) := by
  unfold State.mergeMiss
  split
  · trivial
  · split
    · exact h.modDirEntry
    · trivial

theorem State.StoresOk.dieRead {d line c} (h : s.StoresOk) : (s.dieRead d line c).StoresOk := by
  unfold State.dieRead
  extract_lets others s1
  have hs1 : s1.StoresOk := h.touch
  split
  · exact hs1.sendSnoop.openEntry
  · exact hs1.grant.openEntry

theorem State.StoresOk.takeOwnership {dir line c others} (h : s.StoresOk) : (s.takeOwnership dir line c others).StoresOk := by
  unfold State.takeOwnership
  extract_lets x data owner supplies s0 s1 s2 s3
  have hs0 : s0.StoresOk := h.touch
  have hs1 : s1.StoresOk := hs0.foldl fun ht => ht.sendSnoop.ite ht.sendDown
  have hs2 : s2.StoresOk := hs1.modLine
  have hs3 : s3.StoresOk := hs2.ite (hs2.grant.ite hs2.grantOwner)
  exact hs3.openEntry

theorem State.StoresOk.serveDie {d line r} (h : s.StoresOk) : MaybeOk (s.serveDie d line r) := by
  unfold State.serveDie
  extract_lets l2 x
  split
  · trivial
  · split
    · extract_lets s1
      have hs1 : s1.StoresOk := h.restate.ite h
      exact hs1.modLine
    · exact h.modLine
    · exact h.startTask
    · exact h.modDirEntry.ite h.same
    · exact h
    · split
      · exact h.dieRead
      · split
        · trivial
        · split
          · exact h.missL2
          · exact h.mergeMiss
    · split
      · exact h.takeOwnership
      · split
        · trivial
        · split
          · exact h.missL2
          · exact h.mergeMiss
    · split
      · exact h.takeOwnership
      · split
        · trivial
        · split
          · exact h.missL2
          · exact h.mergeMiss

theorem State.StoresOk.supplyL3 {line} (h : s.StoresOk) : (s.supplyL3 line).StoresOk := (h.cleanLine.ite h).restate.touch

theorem State.StoresOk.moduleRead {line c} (h : s.StoresOk) : (s.moduleRead line c).StoresOk := by
  unfold State.moduleRead
  extract_lets n hs
  split
  · exact h.supplyL3.grant.openEntry
  · exact h.touch.sendDown.openEntry
  · exact h.grant.openEntry

theorem State.StoresOk.takeRegister {line r} (h : s.StoresOk) : MaybeOk (s.takeRegister line r) := by
  unfold State.takeRegister
  split
  · split
    · trivial
    · exact h.modDirEntry
  · exact h

theorem State.StoresOk.mergeModule {line} (h : s.StoresOk) : MaybeOk (s.mergeModule line) := by
  unfold State.mergeModule
  extract_lets e s1 s1'
  have hs1 : s1.StoresOk := h.foldl fun ht => ht.modLine
  have hs1' : s1'.StoresOk := h.foldl fun ht => ht.modLine
  split
  · split
    · trivial
    · extract_lets rest
      split
      · exact hs1.grant.openEntry.modDirEntry
      · exact hs1'.grant.openEntry.modDirEntry
  · trivial

theorem State.StoresOk.intoL3 {line nt cls} (h : s.StoresOk) : (s.intoL3 line nt cls).StoresOk := by
  unfold State.intoL3
  extract_lets p
  split
  · exact h.restate.modLine
  · split
    · exact (h.place.of_snd ‹_›).modLine.used.modDirEntry
    · exact (h.place.of_snd ‹_›).modLine.modDirEntry

theorem State.StoresOk.tidy {line} (h : s.StoresOk) : (s.tidy line).StoresOk := h.modDirEntry.ite h

theorem State.StoresOk.startMaint {line core op} (h : s.StoresOk) : (s.startMaint line core op).StoresOk :=
  h.modDirEntry.foldl fun ht => ht.sendDown

theorem State.StoresOk.moduleOwn {line r c} (h : s.StoresOk) : MaybeOk (s.moduleOwn line r c) := by
  unfold State.moduleOwn
  split
  · trivial
  · split
    · exact MaybeOk.map fun t ht => ((h.dirWay.of_snd ‹_›).takeRegister.get ht).takeOwnership
    · trivial

theorem State.StoresOk.serveModule {line r} (h : s.StoresOk) : MaybeOk (s.serveModule line r) := by
  unfold State.serveModule
  split
  · extract_lets x s1
    have hs1 : s1.StoresOk := h.modLine
    split
    · exact hs1.intoL3.tidy
    · exact hs1.tidy
  · exact h.modLine.tidy
  · exact h
  · exact h.startMaint
  · exact h
  · split
    · exact MaybeOk.map fun t ht => ((h.dirWay.of_snd ‹_›).takeRegister.get ht).moduleRead
    · trivial
  · exact h.moduleOwn
  · exact h.moduleOwn

theorem State.StoresOk.serveAt {dir line r} (h : s.StoresOk) : MaybeOk (s.serveAt dir line r) := by
  unfold State.serveAt
  split
  · exact h.serveDie
  · exact h.serveModule

theorem State.StoresOk.closeEntry {dir line} (h : s.StoresOk) : (s.closeEntry dir line).StoresOk := h.modDirEntry

theorem State.StoresOk.maintain {op line} (h : s.StoresOk) : (s.maintain op line).StoresOk := by
  unfold State.maintain
  split
  · exact h.cleanLine.mapCopies
  · exact h.cleanLine.invalidate
  · exact h.same.invalidate

theorem State.StoresOk.modCores {k f} (h : s.StoresOk) : State.StoresOk { s with cores := mmod Core.reset s.cores k f } :=
  ⟨mwf_mset _ _ _ _ h.1, h.2⟩

theorem State.StoresOk.finish {dir line} (h : s.StoresOk) : (s.finish dir line).StoresOk := by
  unfold State.finish
  extract_lets e
  split
  · split
    · exact h.finishTask.closeEntry
    · exact h.leaveWay.closeEntry
  · split
    · extract_lets s1
      have hs1 : s1.StoresOk := h.maintain.closeEntry
      refine State.StoresOk.tidy ?_
      split
      · exact hs1.modCores
      · exact hs1
    · exact h.cleanLine.closeEntry.tidy

theorem State.StoresOk.serveFirst {dir line front a3} (h : s.StoresOk) : MaybeOk (s.serveFirst dir line front a3) := by
  induction a3 generalizing s dir line front with
  | nil =>
    rw [State.serveFirst]
    trivial
  | cons x xs ih =>
    rw [State.serveFirst]
    split
    · exact h.modDirEntry.serveAt.get ‹_›
    · exact ih h

theorem State.StoresOk.pumpAt {line dir} (h : s.StoresOk) : MaybeOk (s.pumpAt line dir) := by
  unfold State.pumpAt
  extract_lets e
  split
  · exact h.finish
  · split
    · split
      · trivial
      · exact h.mergeModule
    · exact h.serveFirst

theorem State.StoresOk.pumpFor {line fuel} (h : s.StoresOk) : (State.pumpFor line fuel s).StoresOk := by
  induction fuel generalizing s with
  | zero => exact h
  | succ n ih =>
    rw [State.pumpFor]
    split
    · exact ih ((MaybeOk.findSome (fun _ => h.pumpAt) _).get ‹_›)
    · exact h

theorem State.StoresOk.pump {line} (h : s.StoresOk) : (s.pump line).StoresOk := (h.pumpFor.foldl fun ht => ht.pumpFor).ite h.pumpFor

theorem State.StoresOk.request {dir line r} (h : s.StoresOk) : (s.request dir line r).StoresOk :=
  (h.demandCopy.ite h).modDirEntry.pump.dirWay.ite (h.demandCopy.ite h).modDirEntry.pump

theorem State.StoresOk.seekWay {line} (h : s.StoresOk) : MaybeOk (s.seekWay line) := by
  unfold State.seekWay
  extract_lets occ
  split
  · split
    · trivial
    · exact h.dirWay.pump
  · trivial

theorem State.StoresOk.forwardSecond {dir line batch} (h : s.StoresOk) : (s.forwardSecond dir line batch).StoresOk := by
  unfold State.forwardSecond
  extract_lets e wb
  split
  · split
    · extract_lets s1
      have hs1 : s1.StoresOk := h.noteGrant.modDirEntry
      exact hs1.sendSnoop.ite hs1.sendDown
    · exact h
  · exact h

theorem State.StoresOk.closeCycle {dir line} (h : s.StoresOk) : (s.closeCycle dir line).StoresOk := by
  unfold State.closeCycle
  split
  exact (h.modDirEntry.foldl fun ht => ht.request).forwardSecond

theorem State.StoresOk.demoteF {dir line c} (h : s.StoresOk) : (s.demoteF dir line c).StoresOk := h.foldl fun ht => ht.restate

theorem State.StoresOk.install {cache line} (h : s.StoresOk) : (s.install cache line).StoresOk := by
  unfold State.install
  extract_lets n x
  split
  · split
    · exact h
    · extract_lets put
      have hput : ∀ {t : State} {x0}, t.StoresOk → (put t x0).StoresOk := fun ht => (ht.demoteF.ite ht).modLine.used
      split
      · exact hput h
      · split
        · exact hput (h.place.of_snd ‹_›)
        · exact h.place.of_snd ‹_›
  · exact h

theorem State.StoresOk.serveMissers {d line} (h : s.StoresOk) : (s.serveMissers d line).StoresOk :=
  h.modDirEntry.modDirEntry.ite (h.modDirEntry.foldl fun ht => ht.grant).openEntry.modDirEntry

theorem State.StoresOk.retryL3 {line} (h : s.StoresOk) : (s.retryL3 line).StoresOk := (h.intoL3.closeEntry.pump.ite h.intoL3).ite h

theorem State.StoresOk.fillAck {cache line} (h : s.StoresOk) : (s.fillAck cache line).StoresOk := by
  unfold State.fillAck
  extract_lets s1 x dir e left s2 s3
  have hs1 : s1.StoresOk := h.install
  have hs2 : s2.StoresOk := hs1.ite (hs1.closeEntry.ite hs1.modDirEntry)
  have hs3 : s3.StoresOk := by
    dsimp only [s3]
    split
    · exact hs2.serveMissers
    · exact hs2
  exact h.retryL3.ite (hs1.ite hs3.pump)

theorem State.StoresOk.asks {cache line own nt} (h : s.StoresOk) : (s.asks cache line own nt).StoresOk := h.ite h.setLine

theorem State.StoresOk.haziaAsk {k cache line own} (h : s.StoresOk) : (s.haziaAsk k cache line own).StoresOk := h.grant.ite h.asks

theorem State.StoresOk.deliverMaint {d q} (h : s.StoresOk) : (State.deliverMaint d q s).StoresOk := by
  induction q generalizing s with
  | nil => exact h
  | cons x rest ih =>
    unfold State.deliverMaint
    split
    · obtain ⟨rfl, rfl⟩ := List.cons.inj ‹_›
      exact ih (State.StoresOk.request h.same)
    · exact h

theorem State.StoresOk.takeUp {d line} (h : s.StoresOk) : MaybeOk (s.takeUp d line) := by
  unfold State.takeUp
  split
  · split
    · exact h.same
    · trivial
  · trivial

theorem State.StoresOk.requestFrom {cache line r} (h : s.StoresOk) : (s.requestFrom cache line r).StoresOk := by
  unfold State.requestFrom
  split
  · exact h.haziaAsk
  · exact h.haziaAsk
  · split
    · extract_lets s2
      have hs2 : s2.StoresOk := (h.takeUp.get ‹_›).request
      exact hs2.deliverMaint
    · exact h
  · exact h.request

theorem State.StoresOk.takeDown {d x t} (h : s.StoresOk) (e : s.takeDown d = some (x, t)) : t.StoresOk := by
  unfold State.takeDown at e
  split at e
  · obtain ⟨-, rfl⟩ := Prod.mk.inj (Option.some.inj e)
    exact h.same
  · cases e

theorem State.StoresOk.deliverDown {d} (h : s.StoresOk) : (s.deliverDown d).StoresOk := by
  unfold State.deliverDown
  split
  · exact (h.takeDown ‹_›).request
  · exact h

theorem State.StoresOk.deliverUp {d} (h : s.StoresOk) : (s.deliverUp d).StoresOk := by
  unfold State.deliverUp
  split
  · extract_lets s1 s2
    have hs1 : s1.StoresOk := h.same
    have hs2 : s2.StoresOk := by
      dsimp only [s2]
      split
      · exact hs1.request
      · exact hs1
    exact hs2.deliverMaint
  · exact h.deliverMaint

theorem State.StoresOk.endHold {cache line} (h : s.StoresOk) : (s.endHold cache line).StoresOk :=
  (h.modLine.foldl fun ht => ht.takeSnoop).pump

theorem State.StoresOk.stirLine {line windows} (h : s.StoresOk) : MaybeOk (s.stirLine line windows) := by
  unfold State.stirLine
  dsimp only
  split
  · exact h.deliverDown
  · split
    · exact h.modLine.takeSnoop.pump
    · split
      · exact h.fillAck
      · split
        · exact h.fillAck
        · split
          · exact h.deliverUp
          · split
            · exact h.request
            · trivial

theorem State.StoresOk.stirSet {n line} (h : s.StoresOk) : MaybeOk (s.stirSet n line) := by
  refine MaybeOk.findSome (fun o => ?_) _
  split
  · exact h.endHold
  · exact h.stirLine

theorem State.StoresOk.stir {line windows} (h : s.StoresOk) : MaybeOk (s.stir line windows) := by
  unfold State.stir
  split
  · split
    · split
      · exact h.closeCycle
      · split
        · exact h.stirSet.orElse h.seekWay
        · trivial
    · trivial
  · have hline := h.stirLine.get ‹_›
    split
    · exact hline
    · split
      · exact hline.stirSet.get ‹_›
      · exact hline

theorem State.StoresOk.settleFor {line windows a2} (h : s.StoresOk) : (State.settleFor line windows a2 s).StoresOk := by
  induction a2 generalizing s line windows with
  | zero =>
    rw [State.settleFor]
    exact h
  | succ n ih =>
    rw [State.settleFor]
    split
    · exact ih (h.stir.get ‹_›)
    · exact h

theorem State.StoresOk.settleLine {line windows} (h : s.StoresOk) : (s.settleLine line windows).StoresOk := h.settleFor

theorem State.StoresOk.settled {line} (h : s.StoresOk) : (s.settled line).StoresOk := h.ite h.settleLine

theorem State.StoresOk.resumeLine {line} (h : s.StoresOk) : (s.resumeLine line).StoresOk := (h.demandCopy.ite h).pump

/-! ## The sending side of the fabric (Machine/FabricSend) -/

theorem State.StoresOk.transmit {p f} (h : s.StoresOk) : (s.transmit p f).StoresOk := h.setPort.ite h.emit

theorem State.StoresOk.sendNull {p n vc} (h : s.StoresOk) : (s.sendNull p n vc).StoresOk := h.transmit.ite h

theorem State.StoresOk.returnCredit {p vc} (h : s.StoresOk) : (s.returnCredit p vc).StoresOk := h.sendNull

theorem State.StoresOk.leaveBuffer {f} (h : s.StoresOk) : (s.leaveBuffer f).StoresOk := by
  unfold State.leaveBuffer
  split
  · exact h.returnCredit
  · exact h

theorem State.StoresOk.pumpPort {p a1} (h : s.StoresOk) : (s.pumpPort p a1).StoresOk := by
  induction a1 generalizing s p with
  | zero =>
    rw [State.pumpPort]
    exact h
  | succ n ih =>
    rw [State.pumpPort]
    split
    · exact h
    · split
      · exact h
      · extract_lets g s1
        have hs1 : s1.StoresOk := h.setPort
        exact ih hs1.transmit.leaveBuffer

theorem State.StoresOk.sendFlit {p f} (h : s.StoresOk) : (s.sendFlit p f).StoresOk := h.setPort.pumpPort

theorem State.StoresOk.routeFlit {from' f} (h : s.StoresOk) : (s.routeFlit from' f).StoresOk := by
  unfold State.routeFlit
  split
  · extract_lets x free
    exact h.bump.setPort.leaveBuffer.report
  · exact h.sendFlit

theorem State.StoresOk.forwardFlit {from' f} (h : s.StoresOk) : (s.forwardFlit from' f).StoresOk := by
  unfold State.forwardFlit
  split
  · extract_lets x
    exact h.setPort.returnCredit
  · exact h.routeFlit

theorem State.StoresOk.modCre {k f} (h : s.StoresOk) : State.StoresOk { s with cre := mmod CreState.reset s.cre k f } := by
  obtain ⟨hcores, hquads, hlines, hcre, hrest⟩ := h
  exact ⟨hcores, hquads, hlines, mwf_mset _ _ _ _ hcre, hrest⟩

theorem State.StoresOk.originate {d f} (h : s.StoresOk) : (s.originate d f).StoresOk := h.modCre.ite h.routeFlit

/-! ## Copy before write (Machine/CopyFirst) -/

theorem State.StoresOk.settleSet {n line} (h : s.StoresOk) : (s.settleSet n line).StoresOk := h.foldl fun ht => ht.settled

theorem State.StoresOk.forceOut {n line ok} (h : s.StoresOk) : (s.forceOut n line ok).2.StoresOk := by
  unfold State.forceOut
  extract_lets occ free w
  split
  · exact h.cleanLine.invalidate.modDirEntry
  · exact h

theorem State.StoresOk.roomFor {n line cls a3} (h : s.StoresOk) : (State.roomFor n line cls a3 s).2.StoresOk := by
  induction a3 generalizing s n line cls with
  | zero =>
    rw [State.roomFor]
    exact h.forceOut
  | succ n ih =>
    rw [State.roomFor]
    split
    · exact h.place.of_snd ‹_›
    · exact ih (h.place.of_snd ‹_›).settleSet

theorem State.StoresOk.entryFor {line a1} (h : s.StoresOk) : (State.entryFor line a1 s).StoresOk := by
  induction a1 generalizing s line with
  | zero =>
    rw [State.entryFor]
    split
    exact (h.forceOut.of_snd ‹_›).modDirEntry
  | succ n ih =>
    rw [State.entryFor]
    split
    · exact h.dirWay.of_snd ‹_›
    · exact ih (h.dirWay.of_snd ‹_›).settleSet

theorem State.StoresOk.standM {c cls line poison} (h : s.StoresOk) : (s.standM c cls line poison).StoresOk := by
  unfold State.standM
  extract_lets n
  split
  · exact h.modLine.touch
  · split
    exact (h.roomFor.of_snd ‹_›).modLine.used

theorem State.StoresOk.writeLine {at' cls line off data} (h : s.StoresOk) : (s.writeLine at' cls line off data).StoresOk :=
  h.settled.mergeDirty.invalidate.standM.modDirEntry.ite h.settled.mergeDirty.invalidate.standM.entryFor

theorem State.StoresOk.modSnap {f} (h : s.StoresOk) : (s.modSnap f).StoresOk := h.same

theorem State.StoresOk.flagManifest {at' i} (h : s.StoresOk) : (s.flagManifest at' i).StoresOk := h.writeLine

theorem State.StoresOk.sendBridle {dst kind epoch index rank off last payload} (h : s.StoresOk) :
    (s.sendBridle dst kind epoch index rank off last payload).StoresOk := by
  unfold State.sendBridle
  extract_lets ps _ f
  split
  · exact h.routeFlit
  · exact h.sendFlit

theorem State.StoresOk.sendGranule {dst epoch base off} (h : s.StoresOk) : (s.sendGranule dst epoch base off).StoresOk :=
  h.foldl fun ht => ht.sendBridle

theorem State.StoresOk.sendManifest {dst epoch at' bytes} (h : s.StoresOk) : (s.sendManifest dst epoch at' bytes).StoresOk :=
  (h.foldl fun ht => ht.sendBridle).sendBridle

theorem State.StoresOk.streamPlaced (h : s.StoresOk) : s.streamPlaced.StoresOk := by
  unfold State.streamPlaced
  refine h.modSnap.foldl fun ht => ?_
  split
  · exact ht.sendGranule.modSnap
  · exact ht

theorem State.StoresOk.granuleCopied {g} (h : s.StoresOk) : (s.granuleCopied g).StoresOk := by
  unfold State.granuleCopied
  extract_lets m s1 s2 s3 s4
  have hs1 : s1.StoresOk := h.copyGranule
  have hs2 : s2.StoresOk := hs1.flagManifest.ite hs1
  have hs3 : s3.StoresOk := hs2.flagManifest.ite hs2
  have hs4 : s4.StoresOk := hs3.modSnap.streamPlaced
  exact hs4.foldl fun ht => ht.resumeLine

theorem State.StoresOk.copyFirst {line} (h : s.StoresOk) : (s.copyFirst line).StoresOk := by
  unfold State.copyFirst
  split
  · extract_lets g s1
    have hs1 : s1.StoresOk := h.demandCopy
    exact hs1.foldl fun ht => ht.granuleCopied
  · exact h

/-! ## Coherent accesses of the agents (Machine/Coherent) -/

theorem State.StoresOk.fetchOnce {cache line own nt} (h : s.StoresOk) : (s.fetchOnce cache line own nt).StoresOk := by
  unfold State.fetchOnce
  extract_lets s1
  have hs1 : s1.StoresOk := h.asks
  split
  · exact hs1.requestFrom.settleLine
  · exact hs1

theorem State.StoresOk.obtain {cache line own nt} (h : s.StoresOk) : (s.obtain cache line own nt).StoresOk := by
  unfold State.obtain
  split
  · exact h.touch
  · extract_lets s1 s2 s3
    have hs1 : s1.StoresOk := (h.copyFirst.ite h).settled
    have hs2 : s2.StoresOk := hs1.ite hs1.fetchOnce
    have hs3 : s3.StoresOk := (hs2.foldl fun ht => ht.settled).settled
    exact hs2.touch.ite (hs2.ite (hs3.touch.ite hs3.fetchOnce))

theorem State.StoresOk.uncachedLine {at' cls line off data} (h : s.StoresOk) : (s.uncachedLine at' cls line off data).StoresOk :=
  h.copyFirst.writeLine

theorem State.StoresOk.releaseLine {line} (h : s.StoresOk) : (s.releaseLine line).StoresOk := h.modSnap.foldl fun ht => ht.uncachedLine

theorem State.StoresOk.putLine {at' cls line off data} (h : s.StoresOk) : (s.putLine at' cls line off data).StoresOk :=
  h.modSnap.ite h.releaseLine.uncachedLine

theorem State.StoresOk.writeMem {at' cls a data} (h : s.StoresOk) : (s.writeMem at' cls a data).StoresOk :=
  h.sramWrite.ite (h.foldl fun ht => ht.putLine)

theorem State.StoresOk.cachedLine {at' cache nt line off data} (h : s.StoresOk) : (s.cachedLine at' cache nt line off data).StoresOk :=
  h.obtain.mergeDirty.modLine.restate.ite h.obtain.putLine

theorem State.StoresOk.fetchVia {r a n} (h : s.StoresOk) : (s.fetchVia r a n).StoresOk := by
  unfold State.fetchVia
  split
  · exact (h.foldl fun ht => ht.obtain).ite h
  · exact h

theorem State.StoresOk.writeVia {at' r a data} (h : s.StoresOk) : (s.writeVia at' r a data).StoresOk := by
  unfold State.writeVia
  split
  · exact h.writeMem
  · exact h.sramWrite.ite (h.foldl fun ht => ht.putLine.ite ht.cachedLine)

theorem State.StoresOk.cleanTile {tileBase} (h : s.StoresOk) : (s.cleanTile tileBase).StoresOk :=
  h.foldl fun ht => ht.settled.maintain.ite ht

end

/-! # Canonical stores through translation, the cores and the arrays. -/

section
variable {s : State}

/-! ## Engine translation units (Machine/Etu) -/

theorem State.StoresOk.translate {id ctx va acc seq} (h : s.StoresOk) : (s.translate id ctx va acc seq).2.StoresOk := by
  unfold State.translate
  extract_lets e e1 die r
  split
  · exact h
  · split
    · exact h
    · split
      · split
        · extract_lets entry
          exact h.setEtu
        · exact h.setEtu.report
        · exact h.setEtu

theorem State.StoresOk.deliverBatch {id byTime} (h : s.StoresOk) : (s.deliverBatch id byTime).StoresOk :=
  h.ite (h.setEtu.ite (h.writeMem.writeMem.setEtu.hicSource.ite h.writeMem.writeMem.setEtu))

theorem State.StoresOk.deliverIfDue {id} (h : s.StoresOk) : (s.deliverIfDue id).StoresOk := h.deliverBatch.ite h

theorem State.StoresOk.park {id ctx va acc cause level req} (h : s.StoresOk) : (s.park id ctx va acc cause level req).StoresOk := by
  unfold State.park
  extract_lets e parked out upd r
  split
  · split
    · exact h
    · extract_lets upd'
      exact h.setEtu
  · split
    · exact h.setEtu
    · split
      · split
        · exact h
        · exact h.setEtu
      · exact h.setEtu.deliverIfDue

theorem State.StoresOk.dropRequester {id q} (h : s.StoresOk) : (s.dropRequester id q).StoresOk := h.setEtu

/-! ## Accesses of the agents (Machine/Agents) -/

theorem State.StoresOk.agentLocate {id ctx acc a3} (h : s.StoresOk) : (s.agentLocate id ctx acc a3).2.StoresOk := by
  induction a3 generalizing s id ctx acc with
  | nil =>
    rw [State.agentLocate]
    exact h
  | cons x xs ih =>
    rw [State.agentLocate]
    split
    · split
      · exact h.translate.of_snd ‹_›
      · split <;> exact (ih (h.translate.of_snd ‹_›)).of_snd ‹_›
    · exact h.translate.of_snd ‹_›
    · exact h.translate.of_snd ‹_›
    · exact h.translate.of_snd ‹_›

theorem State.StoresOk.pcieRead {pa n} (h : s.StoresOk) : (s.pcieRead pa n).2.StoresOk := by
  unfold State.pcieRead
  dsimp only
  split
  · exact h.emit.bump
  · exact h.emit.bump
  · exact h.emit.bump.same

theorem State.StoresOk.agentBytes {via pa n} (h : s.StoresOk) : (s.agentBytes via pa n).2.StoresOk := by
  unfold State.agentBytes
  split
  · exact h.pcieRead
  · extract_lets s1
    have hs1 : s1.StoresOk := h.fetchVia
    exact hs1

theorem State.StoresOk.verifyTiles {pa n} (h : s.StoresOk) : (s.verifyTiles pa n).StoresOk := (h.foldl fun ht => ht.cleanTile).ite h

theorem State.StoresOk.agentGather {via verify a2 a3} (h : s.StoresOk) : (s.agentGather via verify a2 a3).2.StoresOk := by
  induction a3 generalizing s via verify a2 with
  | nil =>
    rw [State.agentGather]
    exact h
  | cons x xs ih =>
    rw [State.agentGather]
    split
    · exact h.verifyTiles.ite h
    · split
      · exact (h.verifyTiles.ite h).agentBytes.of_snd ‹_›
      · split <;> exact (ih ((h.verifyTiles.ite h).agentBytes.of_snd ‹_›)).of_snd ‹_›

theorem State.StoresOk.agentRead {id via ctx va n verify} (h : s.StoresOk) : (s.agentRead id via ctx va n verify).2.StoresOk := by
  unfold State.agentRead
  split
  · split
    · exact h.agentLocate.of_snd ‹_›
    · exact (h.agentLocate.of_snd ‹_›).agentGather
  · exact h.agentLocate.of_snd ‹_›

theorem State.StoresOk.agentScatter {id via a2 a3} (h : s.StoresOk) : (s.agentScatter id via a2 a3).StoresOk := by
  induction a2 generalizing s id via a3 with
  | nil =>
    rw [State.agentScatter]
    exact h
  | cons x xs ih =>
    rw [State.agentScatter]
    split
    · exact ih h.emit
    · exact ih h.writeVia

theorem State.StoresOk.agentWrite {id via ctx va data} (h : s.StoresOk) : (s.agentWrite id via ctx va data).2.StoresOk := by
  unfold State.agentWrite
  split
  · split <;> exact h.agentLocate.of_snd ‹_›
  · exact h.agentLocate.of_snd ‹_›

/-- The state that a write of an agent gives inside its first part, once it is let through. -/
theorem State.StoresOk.agentWritten {id via ctx va data t u} (h : s.StoresOk) (e : s.agentWrite id via ctx va data = (.ok t, u)) :
    t.StoresOk := by
  unfold State.agentWrite at e
  split at e
  · split at e
    · cases e
    · cases e
      exact (h.agentLocate.of_snd ‹_›).agentScatter
  · cases e

theorem State.StoresOk.parkAgent {id ctx f acc req} (h : s.StoresOk) : MaybeOk (s.parkAgent id ctx f acc req) := by
  unfold State.parkAgent
  split
  · exact h.same
  · split
    · exact h.park
    · trivial
  · trivial

/-! ## Rows of the movers (Machine/MoverRow) -/

theorem State.StoresOk.moverIrq {a0} (h : s.StoresOk) : (s.moverIrq a0).StoresOk := by
  unfold State.moverIrq
  split
  · exact h.setIpend
  · exact h.hicSource
  · exact h.hicSource

theorem State.StoresOk.funnelPiece {m verify va need rest} (h : s.StoresOk) : (s.funnelPiece m verify va need rest).2.StoresOk := by
  unfold State.funnelPiece
  extract_lets id via off n
  split
  · exact h.agentLocate.of_snd ‹_›
  · extract_lets pa lines
    split
    · split <;> exact (h.agentLocate.of_snd ‹_›).pcieRead.of_snd ‹_›
    · split
      · exact h.agentLocate.of_snd ‹_›
      · split <;> exact (h.agentLocate.of_snd ‹_›).agentGather.of_snd ‹_›

theorem State.StoresOk.funnelRead {m verify va need rest a5 a6} (h : s.StoresOk) :
    (State.funnelRead m verify va need rest a5 a6 s).2.StoresOk := by
  induction a5 generalizing s m verify va need rest a6 with
  | zero =>
    rw [State.funnelRead]
    exact h
  | succ n ih =>
    rw [State.funnelRead]
    split
    · exact h
    · split
      · exact h.funnelPiece.of_snd ‹_›
      · exact ih (h.funnelPiece.of_snd ‹_›)

theorem State.StoresOk.mvForm {m at' out ahead} (h : s.StoresOk) : (s.mvForm m at' out ahead).2.StoresOk := by
  unfold State.mvForm
  dsimp only
  split
  · split <;> exact h.funnelRead.of_snd ‹_›
  · split <;> exact h.funnelRead.of_snd ‹_›
  · split
    · exact h.funnelRead.of_snd ‹_›
    · split <;> exact h.funnelRead.of_snd ‹_›
  · split
    · exact h
    · split
      · exact h.funnelRead.of_snd ‹_›
      · split
        · exact h.funnelRead.of_snd ‹_›
        · split
          · exact (h.funnelRead.of_snd ‹_›).funnelRead.of_snd ‹_›
          · split
            · exact (h.funnelRead.of_snd ‹_›).funnelRead.of_snd ‹_›
            · split <;> exact (h.funnelRead.of_snd ‹_›).funnelRead.of_snd ‹_›

theorem State.StoresOk.mvTouch {m va data} (h : s.StoresOk) : (s.mvTouch m va data).StoresOk := by
  refine h.bump.foldl fun ht => ?_
  split
  · split
    · exact ht.agentWritten ‹_›
    · exact ht
  · exact ht

theorem State.StoresOk.mvLate {m a1} (h : s.StoresOk) : (State.mvLate m a1 s).StoresOk := by
  induction a1 generalizing s m with
  | zero =>
    rw [State.mvLate]
    exact h
  | succ n ih =>
    rw [State.mvLate]
    split
    · exact h
    · split
      · extract_lets s1
        have hs1 : s1.StoresOk := h.mvTouch
        exact ih hs1.bump.setMover
      · exact h.ite (ih h.setMover)

theorem State.StoresOk.mvRest {m cause} (h : s.StoresOk) : (s.mvRest m cause).StoresOk := h.ite h.mvLate.setMover

theorem State.StoresOk.reportStop {r} (h : s.StoresOk) : (s.reportStop r).StoresOk := by
  unfold State.reportStop
  extract_lets s1 d s2
  have hs1 : s1.StoresOk := h.report
  have hs2 : s2.StoresOk := hs1.foldl fun ht => ht.mvRest.moverIrq.dropRequester.dropRequester.ite ht
  split
  · exact hs1
  · refine hs2.foldl fun ht => ?_
    extract_lets e
    exact ht.dropRequester.dropRequester.ite ht

/-! ## Operands of an instruction (Machine/Operands) -/

theorem State.StoresOk.coreTranslate {c va acc} (h : s.StoresOk) : (s.coreTranslate c va acc).2.StoresOk := by
  unfold State.coreTranslate
  split
  · exact h.translate
  · split
    · exact h
    · split
      · extract_lets size
        exact h.bump
      · exact h.bump

theorem State.StoresOk.translatePieces {c acc a2} (h : s.StoresOk) : (s.translatePieces c acc a2).2.StoresOk := by
  induction a2 generalizing s c acc with
  | nil =>
    rw [State.translatePieces]
    exact h
  | cons x xs ih =>
    rw [State.translatePieces]
    split
    · split <;> exact (ih (h.coreTranslate.of_snd ‹_›)).of_snd ‹_›
    · split
      · split
        · exact (ih (h.coreTranslate.of_snd ‹_›)).of_snd ‹_›
        · exact h.coreTranslate.of_snd ‹_›
      · exact h.coreTranslate.of_snd ‹_›

theorem State.StoresOk.locate {c k va n} (h : s.StoresOk) : (s.locate c k va n).2.StoresOk := by
  unfold State.locate
  extract_lets v last
  split
  · extract_lets userWindow
    split
    · exact h.translatePieces.of_snd ‹_›
    · split
      · exact h.translatePieces.of_snd ‹_›
      · split
        · exact h.translatePieces.of_snd ‹_›
        · split
          · exact h.translatePieces.of_snd ‹_›
          · split
            · exact h.translatePieces.of_snd ‹_›
            · exact h.translatePieces.of_snd ‹_›
            · split
              · exact h.translatePieces.of_snd ‹_›
              · split
                · split <;> exact h.translatePieces.of_snd ‹_›
                · split
                  · exact h.translatePieces.of_snd ‹_›
                  · split
                    · exact h.translatePieces.of_snd ‹_›
                    · split <;> exact h.translatePieces.of_snd ‹_›

theorem State.StoresOk.locateTwo {c k va1 va2 n} (h : s.StoresOk) : (s.locateTwo c k va1 va2 n).2.StoresOk := by
  unfold State.locateTwo
  split
  · split <;> exact (h.locate.of_snd ‹_›).locate.of_snd ‹_›
  · split
    · split
      · exact (h.locate.of_snd ‹_›).locate.of_snd ‹_›
      · exact h.locate.of_snd ‹_›
    · exact h.locate.of_snd ‹_›

/-! ## The end of an instruction (Machine/Trap) -/

theorem State.StoresOk.doubleFault {c k cause} (h : s.StoresOk) : (s.doubleFault c k cause).StoresOk := h.setCore.reportStop

theorem State.StoresOk.takeTrap {c k cause detail addr r interrupt} (h : s.StoresOk) :
    (s.takeTrap c k cause detail addr r interrupt).StoresOk := by
  unfold State.takeTrap
  split
  · exact h.setCore
  · exact h.doubleFault

theorem State.StoresOk.trapHere {c k cause detail addr} (h : s.StoresOk) : (s.trapHere c k cause detail addr).StoresOk := h.takeTrap

theorem State.StoresOk.accessRes {c acc f} (h : s.StoresOk) : ResOk (accessRes s c acc f) := by
  unfold Machine.accessRes
  split
  · exact h
  · exact h
  · extract_lets addr
    split
    · exact h
    · split
      · exact h.park
      · exact h

theorem State.StoresOk.coreWrite {c nt l} (h : s.StoresOk) : (s.coreWrite c nt l).StoresOk := h.foldl fun ht => ht.writeVia

theorem State.StoresOk.loseElem {c k d i} (h : s.StoresOk) : (s.loseElem c k d i).StoresOk := by
  unfold State.loseElem
  extract_lets b va n lo hi
  split
  · extract_lets old free
    exact (h.locate.of_snd ‹_›).coreWrite.bump
  · exact h

theorem State.StoresOk.loseRest {c k run} (h : s.StoresOk) : (s.loseRest c k run).StoresOk := by
  unfold State.loseRest
  split
  · exact h.foldl fun ht => ht.loseElem
  · exact h

theorem State.StoresOk.storeProgress {c k run index} (h : s.StoresOk) : EitherOk ResOk State.StoresOk (s.storeProgress c k run index) := by
  unfold State.storeProgress
  split
  · exact (h.locate.of_snd ‹_›).coreWrite
  · split
    · exact ((h.locate.of_snd ‹_›).accessRes.of_trap ‹_›).loseRest
    · exact (h.locate.of_snd ‹_›).accessRes

theorem State.StoresOk.stopTensor {c} (h : s.StoresOk) : EitherOk ResOk State.StoresOk (s.stopTensor c) := by
  unfold State.stopTensor
  split
  · split
    · exact (h.storeProgress.of_ok ‹_›).modCore
    · exact h.storeProgress.of_error ‹_›
  · exact h

theorem State.StoresOk.insteadOf {c act} (h : s.StoresOk) (hact : ∀ {t : State}, t.StoresOk → (act t).StoresOk) :
    (s.insteadOf c act).StoresOk := by
  unfold State.insteadOf
  split
  · exact hact (h.stopTensor.of_ok ‹_›).modCore
  · exact ((h.stopTensor.of_error ‹_›).of_trap rfl).trapHere
  · exact ((h.stopTensor.of_error ‹_›).of_waits rfl).modCore
  · exact h

theorem State.StoresOk.runInstr {c p sh body} (h : s.StoresOk) (hbody : ∀ {t k}, t.StoresOk → ResOk (body t k)) :
    (s.runInstr c p sh body).StoresOk := by
  unfold State.runInstr
  split
  · extract_lets k m
    split
    · exact h.trapHere
    · split
      · exact ((hbody h).of_done ‹_›).setCore
      · exact ((hbody h).of_trap ‹_›).trapHere
      · exact ((hbody h).of_waits ‹_›).modCore
      · exact ((hbody h).of_completing ‹_›).takeTrap
  · exact h

theorem State.StoresOk.runLocal {c p sh f} (h : s.StoresOk) : (s.runLocal c p sh f).StoresOk := h.runInstr fun ht => ht

/-! ## Array queues (Machine/ArrayQueue) -/

theorem State.StoresOk.enqueue {p ws} (h : s.StoresOk) : (s.enqueue p ws).StoresOk := h.setQuad.bump

theorem State.StoresOk.rejectAt {p code op tag} (h : s.StoresOk) : (s.rejectAt p code op tag).StoresOk := h.setQuad

theorem State.StoresOk.partFails {p cause va} (h : s.StoresOk) : (s.partFails p cause va).StoresOk := h.reportStop

theorem State.StoresOk.stopPart {p acc req f} (h : s.StoresOk) : (s.stopPart p acc req f).StoresOk := by
  unfold State.stopPart
  split
  · exact (h.parkAgent.get ‹_›).setQuad
  · exact h.partFails

theorem State.StoresOk.notifyQuad {p notify} (h : s.StoresOk) : (s.notifyQuad p notify).StoresOk := by
  unfold State.notifyQuad
  split
  · exact h
  · extract_lets r s1
    have hs1 : s1.StoresOk := h.setIpend.ite h
    exact hs1.hicSource.ite hs1

theorem State.StoresOk.writeRecord {p r} (h : s.StoresOk) : (s.writeRecord p r).StoresOk := by
  unfold State.writeRecord
  extract_lets q
  split
  · exact h.setQuad
  · split
    · exact (h.agentWritten ‹_›).setQuad.notifyQuad
    · have hfailed := h.agentWrite.of_snd ‹_›
      split
      · exact (hfailed.parkAgent.get ‹_›).setQuad
      · exact hfailed.partFails

theorem State.StoresOk.flushRecords {p} (h : s.StoresOk) : (s.flushRecords p).StoresOk := h.setQuad.foldl fun ht => ht.writeRecord

theorem State.StoresOk.reportCmd {p c} (h : s.StoresOk) : (s.reportCmd p c).StoresOk := h.ite (h.writeRecord.bump.ite h.notifyQuad)

theorem State.StoresOk.rejectRecord {p ws code} (h : s.StoresOk) : (s.rejectRecord p ws code).StoresOk := h.writeRecord.ite h

theorem State.StoresOk.retire {p c} (h : s.StoresOk) : (s.retire p c).StoresOk := h.setQuad.reportCmd

theorem State.StoresOk.offer {p ctx badEntry ws} (h : s.StoresOk) : (s.offer p ctx badEntry ws).2.2.StoresOk := by
  unfold State.offer
  split
  · exact h.rejectAt
  · exact h.enqueue

theorem State.StoresOk.fetchCommand {d ctx va} (h : s.StoresOk) : (s.fetchCommand d ctx va).2.StoresOk := by
  unfold State.fetchCommand
  split
  · exact h
  · split <;> exact h.agentRead.of_snd ‹_›

theorem State.StoresOk.qpost {p value} (h : s.StoresOk) : (s.qpost p value).StoresOk := by
  unfold State.qpost
  extract_lets s' q take
  have hs' : s'.StoresOk := h.wakeCd
  have htake : ∀ {t : State}, t.StoresOk → (take t).StoresOk := fun ht => ht.setQuad
  split
  · exact htake hs'
  · split
    · exact hs'.rejectAt
    · exact htake hs'

theorem State.StoresOk.promotePost {p a1} (h : s.StoresOk) : (s.promotePost p a1).StoresOk := by
  induction a1 generalizing s p with
  | zero =>
    rw [State.promotePost]
    exact h
  | succ n ih =>
    rw [State.promotePost]
    split
    · exact h
    · split
      · exact ih h.setQuad.rejectAt
      · exact h

theorem State.StoresOk.qpostFetched {p} (h : s.StoresOk) : (s.qpostFetched p).StoresOk := by
  unfold State.qpostFetched
  extract_lets q
  split
  · exact h
  · extract_lets s1
    have hs1 : s1.StoresOk := h.setQuad
    refine State.StoresOk.promotePost ?_
    split
    · exact (hs1.fetchCommand.of_snd ‹_›).rejectAt
    · split
      exact ((hs1.fetchCommand.of_snd ‹_›).offer.of_snd_snd ‹_›).ite
        ((hs1.fetchCommand.of_snd ‹_›).offer.of_snd_snd ‹_›).rejectRecord

theorem State.StoresOk.acmdBody {d cl vs dq k} (h : s.StoresOk) : ResOk (acmdBody d cl vs dq s k) := by
  unfold Machine.acmdBody
  split
  · exact h
  · extract_lets x p
    split
    exact h.wakeCd.offer.of_snd_snd ‹_›

theorem State.StoresOk.setRing {p w} (h : s.StoresOk) : (s.setRing p w).StoresOk := h.ite h.setQuad

/-! ## Scalar floating point (Machine/Float) -/

theorem State.StoresOk.floatOp {c p bytes dd srcs op long} (h : s.StoresOk) : (floatOp c p bytes dd srcs op s long).StoresOk := h.runLocal

theorem State.StoresOk.floatCmp {c p dd da db op} (h : s.StoresOk) : (floatCmp c p dd da db op s).StoresOk := h.runLocal

/-! ## Array commands (Machine/Arrays) -/

theorem State.StoresOk.carry {f l} (h : s.StoresOk) (hf : ∀ {t i}, t.StoresOk → EitherOk (·.2.StoresOk) State.StoresOk (f t i)) :
    (carry f l s).1.StoresOk := by
  induction l generalizing s with
  | nil => exact h
  | cons i is ih =>
    rw [Machine.carry]
    split
    · exact ih ((hf h).of_ok ‹_›)
    · exact (hf h).of_error ‹_›

theorem State.StoresOk.runCmd {p c total bad f} (h : s.StoresOk)
    (hf : ∀ {t i}, t.StoresOk → EitherOk (·.2.StoresOk) State.StoresOk (f t i)) : (s.runCmd p c total bad f).StoresOk := by
  unfold State.runCmd
  extract_lets g
  have hg : ∀ {t i}, t.StoresOk → EitherOk (·.2.StoresOk) State.StoresOk (g t i) := by
    intro t i ht
    dsimp only [g]
    split
    · split
      · exact ht
      · exact hf ht
    · exact hf ht
  split
  · exact ((h.carry hg).of_fst ‹_›).setQuad
  · have hcarried := (h.carry hg).of_fst ‹_›
    split
    · exact hcarried.setQuad.stopPart
    · exact hcarried.setQuad.partFails

theorem State.StoresOk.partRead {p req va n verify} (h : s.StoresOk) :
    EitherOk (·.2.StoresOk) (·.2.StoresOk) (s.partRead p req va n verify) := by
  unfold State.partRead
  split <;> exact h.agentRead.of_snd ‹_›

theorem State.StoresOk.partWrite {p va data} (h : s.StoresOk) : EitherOk (·.2.StoresOk) State.StoresOk (s.partWrite p va data) := by
  unfold State.partWrite
  split
  · exact h.agentWritten ‹_›
  · exact h.agentWrite.of_snd ‹_›

theorem State.StoresOk.partWriteRow {p va code xs} (h : s.StoresOk) :
    EitherOk (·.2.StoresOk) State.StoresOk (s.partWriteRow p va code xs) := by
  unfold State.partWriteRow
  extract_lets n
  split
  · exact h.agentLocate.of_snd ‹_›
  · split
    · exact h.agentLocate.of_snd ‹_›
    · extract_lets last
      exact (h.agentLocate.of_snd ‹_›).agentScatter

/-- A read that a step makes under a condition, and what the step does with it. -/
theorem State.StoresOk.partReadIf {c : Prop} [Decidable c] {p req va n verify} {f : List Byte × State → Except (CmdStop × State) State}
    (h : s.StoresOk) (hf : ∀ b : List Byte, ∀ t : State, t.StoresOk → EitherOk (·.2.StoresOk) State.StoresOk (f (b, t))) :
    EitherOk (·.2.StoresOk) State.StoresOk (if c then s.partRead p req va n verify >>= f else Except.ok ([], s) >>= f) := by
  split
  · exact h.partRead.bind fun a ha => hf a.1 a.2 ha
  · exact hf [] s h

theorem State.StoresOk.loadRow {p ws k} (h : s.StoresOk) : EitherOk (·.2.StoresOk) State.StoresOk (State.loadRow p ws s k) :=
  h.partRead.bind fun ⟨_, _⟩ hrow => State.StoresOk.partReadIf hrow fun _ _ hscales => hscales.setQuad

theorem Tile.put_entries {x : Tile} {row col e g} (h : mwf 0 x.entries = true) : mwf 0 (x.put row col e g).entries = true :=
  mwf_mset _ _ _ _ h

theorem Tile.vector_entries {x : Tile} {v b c row as sa} (h : mwf 0 x.entries = true) : mwf 0 (x.vector v b c row as sa).entries = true :=
  foldl_keeps (fun x : Tile => mwf 0 x.entries = true) _ (fun _ _ hx => Tile.put_entries hx) _ _ h

theorem Tile.forMxz_entries {x : Tile} {acc} (h : mwf 0 x.entries = true) : mwf 0 (x.forMxz acc).entries = true := by
  unfold Tile.forMxz
  dsimp only
  split
  · exact h
  · rfl

theorem State.StoresOk.vecStep {p ws i} (h : s.StoresOk) : EitherOk (·.2.StoresOk) State.StoresOk (State.vecStep p ws s i) := by
  refine h.partRead.bind fun ⟨_, _⟩ hlow => State.StoresOk.partReadIf hlow fun _ _ hhigh => hhigh.partReadIf fun _ _ hscale =>
    hscale.partReadIf fun _ s3 hread => ?_
  have hswapped := (hread.setQuad (p := p) (q := { s3.quad p with
    bact := if cNewb ws ∧ i = 0 then (s.quad p).bshd else (s.quad p).bact, bshd := BBuf.empty })).ite (p := cNewb ws ∧ i = 0) hread
  refine hswapped.setTile (Tile.vector_entries ?_)
  split
  · exact Tile.forMxz_entries hswapped.tile
  · exact hswapped.tile

theorem State.StoresOk.countFreezes {p total order} (h : s.StoresOk) : (s.countFreezes p total order).StoresOk := h.setQuad.bump.bump

theorem State.StoresOk.runVectors {p op bad} (h : s.StoresOk) : (s.runVectors p op bad).StoresOk := by
  unfold State.runVectors
  split
  · extract_lets total
    refine State.StoresOk.countFreezes ?_
    refine h.runCmd fun ht => ?_
    exact ht.vecStep
  · exact h

theorem State.StoresOk.flagTiles {p ts g} (h : s.StoresOk) : (s.flagTiles p ts g).StoresOk := h.foldl fun ht => ht.setTile ht.tile

theorem State.StoresOk.drainStep {p ws i} (h : s.StoresOk) : EitherOk (·.2.StoresOk) State.StoresOk (State.drainStep p ws s i) := by
  refine h.partReadIf fun _ _ hscales => hscales.partReadIf fun _ _ helems => helems.partWriteRow.bind fun _ hrow => ?_
  dsimp only
  split
  · exact hrow.partWrite.bind fun _ ht => ht.flagTiles
  · exact hrow.flagTiles

theorem State.StoresOk.retireSeq {p n} (h : s.StoresOk) : (s.retireSeq p n).StoresOk := by
  unfold State.retireSeq
  extract_lets q
  split
  · exact h
  · split
    · exact h
    · extract_lets ahead
      exact h.ite h.retire

theorem State.StoresOk.poisonTile {p t} (h : s.StoresOk) : (s.poisonTile p t).StoresOk := by
  unfold State.poisonTile
  extract_lets id _ s1
  have hs1 : s1.StoresOk := h.setTile h.tile
  exact hs1.foldl fun ht => ht.setQuad

theorem State.StoresOk.unparkPart {p} (h : s.StoresOk) : (s.unparkPart p).StoresOk := (h.foldl fun ht => ht.dropRequester).same

theorem State.StoresOk.recoverPart {p0} (h : s.StoresOk) : (s.recoverPart p0).StoresOk := by
  unfold State.recoverPart
  extract_lets p q live gone s1 s2
  have hs1 : s1.StoresOk := h.setQuad
  have hs2 : s2.StoresOk := hs1.unparkPart.foldl fun ht => ht.poisonTile
  exact h.ite (hs2.flushRecords.foldl fun ht => ht.reportCmd)

theorem State.StoresOk.clrTile {t} (h : s.StoresOk) : (s.clrTile t).StoresOk := by
  unfold State.clrTile
  split
  · exact h.setTile h.tile
  · exact h

theorem State.StoresOk.tileInstrBody {c k t dr setFlags body} (h : s.StoresOk)
    (hbody : ∀ {id row flags}, ResOk (body id (s.tile id) row flags)) : ResOk (s.tileInstrBody c k t dr setFlags body) := by
  unfold State.tileInstrBody
  split
  · exact h
  · extract_lets x n at' o order id tile row
    split
    · exact h
    · split
      · exact h
      · split
        · exact h.ite h.bump
        · split
          · exact h
          · exact hbody

/-! ## Control, traps and interrupts (Machine/System) -/

theorem State.StoresOk.sampleCycles {k} (h : s.StoresOk) : (s.sampleCycles k).1.StoresOk := h.bump

theorem State.StoresOk.takeInterrupt {c k r} (h : s.StoresOk) : (s.takeInterrupt c k r).StoresOk := by
  unfold State.takeInterrupt
  split
  · exact h.takeTrap
  · dsimp only
    exact h.same.takeTrap

theorem State.StoresOk.interruptAfter {c k len} (h : s.StoresOk) : (s.interruptAfter c k len).StoresOk := h.takeInterrupt

theorem State.StoresOk.endWait {c k} (h : s.StoresOk) : (s.endWait c k).StoresOk := h.interruptAfter.ite h.setCore

theorem State.StoresOk.abandonFor {c} (h : s.StoresOk) : (s.abandonFor c).StoresOk := h.insteadOf fun ht => ht.takeInterrupt

theorem State.StoresOk.acceptInterrupt {c} (h : s.StoresOk) : (s.acceptInterrupt c).StoresOk := by
  unfold State.acceptInterrupt
  extract_lets k
  split
  · split
    · exact h.interruptAfter
    · exact h.abandonFor
  · exact h

/-! ## Lines of a core (Machine/CoreLine) -/

theorem State.StoresOk.startMiss {c line own nt} (h : s.StoresOk) : (s.startMiss c line own nt).StoresOk := by
  unfold State.startMiss
  extract_lets start
  have hstart : ∀ {t : State} {x0}, t.StoresOk → (start t x0).StoresOk := fun ht => ht.ite ht.asks
  split
  · exact hstart h
  · exact hstart (hstart h)

theorem State.StoresOk.ownedWrite {c a data} (h : s.StoresOk) : (s.ownedWrite c a data).StoresOk := by
  unfold State.ownedWrite
  refine h.foldl fun ht => ?_
  extract_lets s1 p s2 s3
  have hs1 : s1.StoresOk := ht.mergeDirty
  have hs2 : s2.StoresOk := hs1.modLine.touch
  have hs3 : s3.StoresOk := by
    dsimp only [s3]
    split
    · exact hs2.modLine
    · exact hs2
  exact hs3.modLine

theorem State.StoresOk.rehold {c line} (h : s.StoresOk) : (s.rehold c line).StoresOk := h.setLine

end

/-! # Canonical stores through the engines, the vector unit and the movers. -/

section
variable {s : State}

/-! ## Engine queues (Machine/EngineQueue) -/

theorem State.StoresOk.epost {e p} (h : s.StoresOk) : (s.epost e p).StoresOk := h.wakeCd.setEngine

theorem State.StoresOk.epostIgnored {e} (h : s.StoresOk) : (s.epostIgnored e).StoresOk := h.setEngine

theorem State.StoresOk.epostFrom {e d cl value} (h : s.StoresOk) : (s.epostFrom e d cl value).StoresOk := h.epost

theorem State.StoresOk.epostx {e ctx value} (h : s.StoresOk) : (s.epostx e ctx value).StoresOk := h.epost

theorem State.StoresOk.setEngRing {e ctx r} (h : s.StoresOk) : (s.setEngRing e ctx r).StoresOk := h.same

theorem State.StoresOk.notifyEngine {e r} (h : s.StoresOk) : (s.notifyEngine e r).StoresOk := by
  unfold State.notifyEngine
  split
  · exact h
  · extract_lets ring s1
    have hs1 : s1.StoresOk := by
      dsimp only [s1]
      split
      · exact h.setIpend.ite h
      · exact h
    exact hs1.hicSource.ite hs1

theorem State.StoresOk.writeEngRec {e r} (h : s.StoresOk) : (s.writeEngRec e r).StoresOk := by
  unfold State.writeEngRec
  extract_lets x ring
  split
  · exact h.setEngine
  · split
    · exact (h.agentWritten ‹_›).setEngRing.notifyEngine
    · have hfailed := h.agentWrite.of_snd ‹_›
      split
      · exact (hfailed.parkAgent.get ‹_›).setEngine
      · exact hfailed

theorem State.StoresOk.flushEngRecs {e} (h : s.StoresOk) : (s.flushEngRecs e).StoresOk := h.setEngine.foldl fun ht => ht.writeEngRec

theorem State.StoresOk.reportEng {e c} (h : s.StoresOk) : (s.reportEng e c).StoresOk := h.ite (h.writeEngRec.bump.ite h.notifyEngine)

theorem State.StoresOk.engineReject {e code op tag} (h : s.StoresOk) : (s.engineReject e code op tag).StoresOk := h.setEngine

theorem State.StoresOk.engineFetched {e} (h : s.StoresOk) : (s.engineFetched e).StoresOk := by
  unfold State.engineFetched
  extract_lets x
  split
  · exact h
  · extract_lets s1
    have hs1 : s1.StoresOk := h.setEngine
    split
    · exact (hs1.fetchCommand.of_snd ‹_›).engineReject
    · split
      · extract_lets s3
        have hs3 : s3.StoresOk := (hs1.fetchCommand.of_snd ‹_›).engineReject
        exact hs3.writeEngRec.ite hs3
      · extract_lets y c
        exact (hs1.fetchCommand.of_snd ‹_›).setEngine

theorem State.StoresOk.modHead {e f} (h : s.StoresOk) : (s.modHead e f).StoresOk := by
  unfold State.modHead
  extract_lets x
  split
  · exact h
  · exact h.setEngine

theorem State.StoresOk.endHead {e status} (h : s.StoresOk) : (s.endHead e status).StoresOk := h.modHead.setEngine

theorem State.StoresOk.engineRetire {e} (h : s.StoresOk) : (s.engineRetire e).StoresOk := by
  unfold State.engineRetire
  extract_lets x
  split
  · exact h
  · exact h.ite h.setEngine.reportEng

theorem State.StoresOk.recoverEngine {e} (h : s.StoresOk) : (s.recoverEngine e).StoresOk :=
  h.ite (h.dropRequester.dropRequester.setEngine.foldl fun ht => ht.reportEng)

theorem State.StoresOk.setEngBase {e ctx w} (h : s.StoresOk) : (s.setEngBase e ctx w).StoresOk := h.ite h.setEngRing

/-! ## The vector unit (Machine/Vector) -/

theorem State.StoresOk.runVector {c p bytes imm types pred body long} (h : s.StoresOk)
    (hbody : ∀ {t k}, t.StoresOk → ResOk (body t k)) : (s.runVector c p bytes imm types pred body long).StoresOk := by
  refine h.runInstr fun ht => ?_
  split
  · exact ht
  · exact hbody ht

theorem State.StoresOk.vecOp {c p bytes types vd srcs op long} (h : s.StoresOk) : (vecOp c p bytes types vd srcs op s long).StoresOk := by
  unfold Machine.vecOp
  refine h.runVector fun ht => ?_
  extract_lets code w xs
  split
  exact ht

theorem State.StoresOk.vecImm {c p bytes vd srcs i op} (h : s.StoresOk) : (vecImm c p bytes vd srcs i op s).StoresOk := by
  unfold Machine.vecImm
  refine h.runVector fun ht => ?_
  extract_lets code w imm xs
  split
  · exact ht
  · split
    exact ht

theorem State.StoresOk.vecCmp {c p pd va vb iop fop} (h : s.StoresOk) : (vecCmp c p pd va vb iop fop s).StoresOk := by
  unfold Machine.vecCmp
  refine h.runVector fun ht => ?_
  extract_lets code w a b res
  exact ht

theorem State.StoresOk.predOp {c p bytes pd f} (h : s.StoresOk) : (predOp c p bytes pd f s).StoresOk := h.runLocal

theorem State.StoresOk.vecReduce {c p dd va which op} (h : s.StoresOk) : (vecReduce c p dd va which op s).StoresOk := by
  refine h.runInstr fun ht => ?_
  dsimp only
  split <;> exact ht

theorem State.StoresOk.vecSlide {c p vd va shift} (h : s.StoresOk) : (vecSlide c p vd va shift s).StoresOk := by
  unfold Machine.vecSlide
  refine h.runVector fun ht => ?_
  extract_lets w n a
  split
  exact ht

theorem State.StoresOk.locatePage {c k acc unit guarded pg} (h : s.StoresOk) : (s.locatePage c k acc unit guarded pg).2.StoresOk := by
  unfold State.locatePage
  dsimp only
  split
  · split
    · exact h.coreTranslate
    · split
      · exact h.coreTranslate
      · exact h.coreTranslate
      · exact h.coreTranslate
      · exact h.coreTranslate
      · exact h.coreTranslate
      · split <;> exact h.coreTranslate
  · split
    · exact h.coreTranslate
    · split
      · exact h.coreTranslate
      · exact h.coreTranslate
      · exact h.coreTranslate
      · exact h.coreTranslate
      · exact h.coreTranslate
      · split <;> exact h.coreTranslate

theorem State.StoresOk.locatePages {c k acc unit guarded a5} (h : s.StoresOk) : (s.locatePages c k acc unit guarded a5).2.StoresOk := by
  induction a5 generalizing s c k acc unit guarded with
  | nil =>
    rw [State.locatePages]
    exact h
  | cons x xs ih =>
    rw [State.locatePages]
    split
    · split <;> exact (ih (h.locatePage.of_snd ‹_›)).of_snd ‹_›
    · split
      · split
        · exact (ih (h.locatePage.of_snd ‹_›)).of_snd ‹_›
        · exact h.locatePage.of_snd ‹_›
      · exact h.locatePage.of_snd ‹_›

theorem State.StoresOk.vecLocate {c k acc unit va as} (h : s.StoresOk) : (s.vecLocate c k acc unit va as).2.StoresOk := by
  unfold State.vecLocate
  extract_lets r
  have hr : r.2.StoresOk := h.locatePages
  split
  · exact hr
  · exact h
  · split
    · exact h
    · exact hr

/-! ## Tensor forms (Machine/Tensor) -/

theorem State.StoresOk.locateDescs {c k l} (h : s.StoresOk) : (s.locateDescs c k l).2.2.StoresOk := by
  induction l generalizing s with
  | nil => exact h
  | cons x rest ih =>
    have hrest := ih (h.locate (c := c) (k := k) (va := x.1) (n := { acc := x.2, size := 64, align := true }))
    rw [State.locateDescs]
    dsimp only
    split
    · exact hrest
    · split <;> exact hrest

theorem State.StoresOk.readDescs {c k vas} (h : s.StoresOk) : EitherOk ResOk (·.1.StoresOk) (s.readDescs c k vas) := by
  unfold State.readDescs
  split
  · split
    · exact (h.locateDescs.of_snd_snd ‹_›).accessRes
    · extract_lets at' s2
      have hs2 : s2.StoresOk := (h.locateDescs.of_snd_snd ‹_›).foldl fun ht => ht.fetchVia
      split
      · exact h.locateDescs.of_snd_snd ‹_›
      · exact hs2

theorem State.StoresOk.locateGroup {c k acc d i n} (h : s.StoresOk) : (s.locateGroup c k acc d i n).2.StoresOk := by
  unfold State.locateGroup
  split
  · extract_lets unit addrs
    split <;> exact h.locatePages.of_snd ‹_›

theorem State.StoresOk.locateOperands {c k i n l} (h : s.StoresOk) : (s.locateOperands c k i n l).2.2.StoresOk := by
  induction l generalizing s with
  | nil => exact h
  | cons x rest ih =>
    have hrest := ih (h.locateGroup (c := c) (k := k) (acc := x.2) (d := x.1) (i := i) (n := n))
    rw [State.locateOperands]
    dsimp only
    split <;> exact hrest

theorem State.StoresOk.runGroup {c k dst srcs op i n} (h : s.StoresOk) :
    EitherOk (·.2.StoresOk) (·.1.StoresOk) (s.runGroup c k dst srcs op i n) := by
  unfold State.runGroup
  split
  · split
    · exact h.locateOperands.of_snd_snd ‹_›
    · split
      · exact h.locateOperands.of_snd_snd ‹_›
      · extract_lets out s2 raws res w old b len new
        have hs2 : s2.StoresOk := (h.locateOperands.of_snd_snd ‹_›).foldl fun ht => ht.foldl fun ht => ht.fetchVia
        split
        · exact h.locateOperands.of_snd_snd ‹_›
        · exact hs2.coreWrite

theorem State.StoresOk.tensorStops {c run w} (h : s.StoresOk) : ResOk (tensorStops c run s w) := h.modCore

theorem State.StoresOk.tensorTraps {c k run cause detail addr} (h : s.StoresOk) : ResOk (tensorTraps c k run s cause detail addr) := by
  unfold Machine.tensorTraps
  split
  · exact (h.storeProgress.of_ok ‹_›).modCore
  · exact ((h.storeProgress.of_error ‹_›).of_waits rfl).tensorStops
  · exact h.storeProgress.of_error ‹_›

theorem State.StoresOk.tensorFrom {c k f code imm run} (h : s.StoresOk) : ResOk (tensorFrom c k f code imm run s) := by
  unfold Machine.tensorFrom
  split
  · exact h
  · extract_lets fmts total w n op complete
    have hcomplete : ∀ {r t k}, t.StoresOk → ResOk (complete r t k) := by
      intro r t k ht
      dsimp only [complete]
      split
      · exact ht.storeProgress.of_ok ‹_›
      · exact ((ht.storeProgress.of_error ‹_›).of_waits rfl).modCore.tensorStops
      · exact ht.storeProgress.of_error ‹_›
    split
    · exact hcomplete h
    · split
      · have hgroup := h.runGroup.of_ok ‹_›
        split
        · exact hcomplete hgroup
        · exact State.StoresOk.tensorStops (State.StoresOk.modCore hgroup)
      · exact State.StoresOk.tensorStops (h.runGroup.of_error ‹_›)
      · exact State.StoresOk.tensorTraps (h.runGroup.of_error ‹_›)
      · rename_i acc e s1 heq
        have haccess : ResOk (Machine.accessRes s1 c acc e) := State.StoresOk.accessRes (h.runGroup.of_error heq)
        split
        · exact (haccess.of_waits ‹_›).tensorStops
        · exact (haccess.of_trap ‹_›).tensorTraps
        · exact haccess

theorem State.StoresOk.tensorForm {c p f ads i} (h : s.StoresOk) : (tensorForm c p f ads i s).StoresOk := by
  unfold Machine.tensorForm
  extract_lets code imm
  refine h.runInstr fun ht => ?_
  split
  · exact ht
  · split
    · exact ht
    · split
      · exact ht
      · split
        · exact ht
        · split
          · exact ht.tensorFrom
          · split
            · exact ht.readDescs.of_error ‹_›
            · have hread := ht.readDescs.of_ok ‹_›
              extract_lets descs fmts same at'
              split
              · exact hread
              · exact State.StoresOk.tensorFrom hread

/-! ## The engines (Machine/Engines) -/

theorem State.StoresOk.engRead {e c desc va n k} (h : s.StoresOk) (hk : ∀ {b t}, t.StoresOk → EngOk (k b t)) :
    EngOk (s.engRead e c desc va n k) := by
  unfold State.engRead
  split
  · exact hk (h.agentRead.of_snd ‹_›)
  · exact h.agentRead.of_snd ‹_›

theorem State.StoresOk.engWrite {e c va data k} (h : s.StoresOk) (hk : ∀ {t}, t.StoresOk → EngOk (k t)) :
    EngOk (s.engWrite e c va data k) := by
  unfold State.engWrite
  split
  · exact hk (h.agentWritten ‹_›)
  · exact h.agentWrite.of_snd ‹_›

theorem State.StoresOk.unlessStruck {bad c r} (h : s.StoresOk) (hr : EngOk r) : EngOk (unlessStruck bad c s r) := by
  unfold Machine.unlessStruck
  split
  · exact h
  · exact hr

theorem State.StoresOk.stopHead {e c why} (h : s.StoresOk) : (s.stopHead e c why).StoresOk := by
  unfold State.stopHead
  extract_lets s0
  have hs0 : s0.StoresOk := h.modHead
  split
  · exact hs0.endHead
  · exact hs0.reportStop
  · split
    · exact (hs0.parkAgent.get ‹_›).setEngine
    · exact hs0.endHead

theorem State.StoresOk.startHead {e c} (h : s.StoresOk) : (s.startHead e c).2.StoresOk := by
  unfold State.startHead
  split
  · exact h
  · extract_lets late x
    exact h.same.setEngine

theorem State.StoresOk.runHead {e kind op work} (h : s.StoresOk) (hwork : ∀ {c t}, t.StoresOk → EngOk (work c t)) :
    (s.runHead e kind op work).StoresOk := by
  unfold State.runHead
  extract_lets x
  split
  · exact h
  · split
    · exact h
    · split
      rename_i c1 s1 heq
      have hrun : EngOk (work c1 (s1.modHead e fun _ => c1)) := hwork (h.startHead.of_snd heq).modHead
      split
      · exact (hrun.of_go ‹_›).modHead.endHead
      · exact (hrun.of_hold ‹_›).modHead
      · exact (hrun.of_stop ‹_›).stopHead

theorem State.StoresOk.engUnits {bad unit total fuel c} (h : s.StoresOk) (hunit : ∀ {i c t}, t.StoresOk → EngOk (unit i c t)) :
    EngOk (engUnits bad unit total fuel c s) := by
  induction fuel generalizing s c with
  | zero => exact h
  | succ n ih =>
    rw [Machine.engUnits]
    split
    · exact h
    · split
      · exact h
      · exact (hunit h).bind fun ht => ih ht

theorem State.StoresOk.loadDescs {e c k l acc} (h : s.StoresOk) (hk : ∀ {ds t}, t.StoresOk → EngOk (k ds t)) :
    EngOk (State.loadDescs e c k l acc s) := by
  induction l generalizing s acc with
  | nil => exact hk h
  | cons va rest ih =>
    rw [State.loadDescs]
    split
    · exact h
    · split
      · exact h
      · exact h.engRead fun ht => ih ht

theorem State.StoresOk.withDescs {e c addrs check work} (h : s.StoresOk) (hwork : ∀ {c t}, t.StoresOk → EngOk (work c t)) :
    EngOk (s.withDescs e c addrs check work) := by
  unfold State.withDescs
  split
  · exact hwork h
  · refine h.loadDescs fun ht => ?_
    split
    · exact hwork ht
    · exact ht

theorem State.StoresOk.writeRow {e c d r free vals k} (h : s.StoresOk) (hk : ∀ {t}, t.StoresOk → EngOk (k t)) :
    EngOk (s.writeRow e c d r free vals k) := by
  unfold State.writeRow
  extract_lets w vs
  split
  · exact h.agentLocate.of_snd ‹_›
  · have hlocated := h.agentLocate.of_snd ‹_›
    split
    · exact hlocated
    · exact hk hlocated.agentScatter.bump

theorem State.StoresOk.readRow {e c d r k} (h : s.StoresOk) (hk : ∀ {x t}, t.StoresOk → EngOk (k x t)) : EngOk (s.readRow e c d r k) :=
  h.engRead hk

theorem State.StoresOk.txeRow {e r c} (h : s.StoresOk) : EngOk (txeRow e r c s) := by
  unfold Machine.txeRow
  extract_lets src dst
  refine h.readRow fun ht => ?_
  extract_lets res
  exact ht.writeRow fun ht => ht

theorem State.StoresOk.writeIf {e c on d r free vals k} (h : s.StoresOk) (hk : ∀ {t}, t.StoresOk → EngOk (k t)) :
    EngOk (s.writeIf e c on d r free vals k) := by
  unfold State.writeIf
  split
  · exact h.writeRow hk
  · exact hk h

theorem State.StoresOk.selRow {e k r c} (h : s.StoresOk) : EngOk (selRow e k r c s) := by
  unfold Machine.selRow
  extract_lets src hasV hasI dv di
  refine h.readRow fun ht => ?_
  extract_lets raws order
  refine ht.writeIf fun ht => ?_
  refine ht.writeIf fun ht => ?_
  exact ht

theorem State.StoresOk.select {e bad op} (h : s.StoresOk) : (s.select e bad op).StoresOk := by
  unfold State.select
  refine h.runHead fun ht => ?_
  extract_lets outs k fmts
  refine ht.withDescs fun ht => ?_
  refine ht.engUnits fun ht => ?_
  exact ht.selRow

theorem State.StoresOk.gseRow {e op i c} (h : s.StoresOk) : EngOk (gseRow e op i c s) := by
  unfold Machine.gseRow
  extract_lets table idx rows els
  refine h.engRead fun ht => ?_
  extract_lets x t
  split
  · exact ht
  · split
    · exact ht.readRow fun ht => ht.writeRow fun ht => ht
    · exact ht.readRow fun ht => ht.writeRow fun ht => ht
    · refine ht.readRow fun ht => ?_
      refine ht.readRow fun ht => ?_
      extract_lets res
      exact ht.writeRow fun ht => ht

theorem State.StoresOk.gatherScatter {e bad code op} (h : s.StoresOk) : (s.gatherScatter e bad code op).StoresOk := by
  unfold State.gatherScatter
  refine h.runHead fun ht => ?_
  refine ht.withDescs fun ht => ?_
  refine ht.engUnits fun ht => ?_
  exact ht.gseRow

theorem State.StoresOk.setRand {d n x} (h : s.StoresOk) : (s.setRand d n x).StoresOk := h.same

theorem State.StoresOk.ownedStream {e c k} (h : s.StoresOk) (hk : ∀ {n r}, EngOk (k n r)) : EngOk (ownedStream e c s k) := by
  unfold Machine.ownedStream
  extract_lets n r
  split
  · exact hk
  · exact h

theorem State.StoresOk.fillRow {e r i c} (h : s.StoresOk) : EngOk (fillRow e r i c s) := h.writeRow fun ht => ht

theorem State.StoresOk.readRows {e c r k ds acc} (h : s.StoresOk) (hk : ∀ {xs t}, t.StoresOk → EngOk (k xs t)) :
    EngOk (State.readRows e c r k ds acc s) := by
  induction ds generalizing s acc with
  | nil => exact hk h
  | cons d ds ih => exact h.readRow fun ht => ih ht

theorem State.StoresOk.foldRow {e dst srcs r c} (h : s.StoresOk) : EngOk (foldRow e dst srcs r c s) :=
  h.readRows fun ht => ht.writeRow fun ht => ht

theorem State.StoresOk.readColumn {e c d k is acc} (h : s.StoresOk) (hk : ∀ {xs t}, t.StoresOk → EngOk (k xs t)) :
    EngOk (State.readColumn e c d k is acc s) := by
  induction is generalizing s acc with
  | nil => exact hk h
  | cons i is ih => exact h.engRead fun ht => ih ht

theorem State.StoresOk.transposeRow {e r c} (h : s.StoresOk) : EngOk (transposeRow e r c s) :=
  h.readColumn fun ht => ht.writeRow fun ht => ht

theorem State.StoresOk.compressUnit {e i c} (h : s.StoresOk) : EngOk (compressUnit e i c s) := by
  unfold Machine.compressUnit
  refine h.engRead fun ht => ?_
  extract_lets out
  split
  · exact ht
  · exact ht.engWrite fun ht => ht.bump

theorem State.StoresOk.decompressUnit {e c} (h : s.StoresOk) : EngOk (decompressUnit e c s) := by
  unfold Machine.decompressUnit
  extract_lets left
  split
  · exact h
  · refine h.engRead fun ht => ?_
    extract_lets x
    split
    · exact ht
    · refine ht.engRead fun ht => ?_
      split
      · exact ht
      · split
        · exact ht
        · exact ht.engWrite fun ht => ht.bump

theorem State.StoresOk.decompressUnits {e bad i fuel c} (h : s.StoresOk) : EngOk (decompressUnits e bad i fuel c s) := by
  induction fuel generalizing s i c with
  | zero => exact h
  | succ n ih =>
    rw [Machine.decompressUnits]
    split
    · exact h
    · split
      · exact h
      · exact h.decompressUnit.bind fun ht => ih ht

/-! ## Mover channels (Machine/Movers) -/

theorem State.StoresOk.haltMover {m cause write va pa} (h : s.StoresOk) : (s.haltMover m cause write va pa).StoresOk :=
  h.mvRest.setMover.moverIrq

theorem State.StoresOk.stopMover {m w} (h : s.StoresOk) : (s.stopMover m w).StoresOk := by
  unfold State.stopMover
  split
  · exact h.haltMover
  · split
    · exact h.haltMover
    · split
      · exact (h.parkAgent.get ‹_›).setMover
      · exact h.haltMover

theorem State.StoresOk.writeBack {m status} (h : s.StoresOk) : (s.writeBack m status).2.StoresOk := by
  unfold State.writeBack
  extract_lets x ctx head len w6 places
  have hhead : head.2.StoresOk := by
    dsimp only [head]
    split
    · exact h
    · split
      · exact (h.agentRead.of_snd ‹_›).setMover
      · exact h.agentRead.of_snd ‹_›
  clear_value head
  split
  · exact hhead
  · split
    · exact hhead.agentLocate.of_snd ‹_›
    · have hlocated := hhead.agentLocate.of_snd ‹_›
      split
      · exact hlocated
      · exact hlocated.agentScatter

theorem State.StoresOk.freeDst {m p} (h : s.StoresOk) : (s.freeDst m p).StoresOk := by
  unfold State.freeDst
  extract_lets n
  refine h.foldl fun ht => ?_
  split
  · exact (ht.agentLocate.of_snd ‹_›).ite (ht.agentLocate.of_snd ‹_›).agentScatter.bump
  · exact ht

theorem State.StoresOk.fetchDesc {m a1} (h : s.StoresOk) : (s.fetchDesc m a1).StoresOk := by
  induction a1 generalizing s m with
  | zero =>
    rw [State.fetchDesc]
    exact h
  | succ n ih =>
    rw [State.fetchDesc]
    split
    · exact h.setMover
    · split
      · exact (h.agentRead.of_snd ‹_›).setMover.stopMover
      · extract_lets d y s2
        have hs2 : s2.StoresOk := (h.agentRead.of_snd ‹_›).setMover
        exact ((ih (h.agentRead.of_snd ‹_›).setMover).ite (h.agentRead.of_snd ‹_›).setMover).ite
          ((hs2.foldl fun ht => ht.freeDst).ite hs2.haltMover)

theorem State.StoresOk.handBack {m status} (h : s.StoresOk) : (s.handBack m status).StoresOk := by
  unfold State.handBack
  extract_lets x s0
  have hs0 : s0.StoresOk := h.setMover
  split
  · exact (hs0.writeBack.of_snd ‹_›).stopMover
  · extract_lets y s2 s3
    have hs2 : s2.StoresOk := (hs0.writeBack.of_snd ‹_›).setMover
    have hs3 : s3.StoresOk := hs2.moverIrq.ite hs2
    exact hs3.fetchDesc

theorem State.StoresOk.creditRow {m w} (h : s.StoresOk) : (s.creditRow m w).2.StoresOk := h.setMover.bump

theorem State.StoresOk.rowPieces {m places w} (h : s.StoresOk) : (State.rowPieces m places w s).2.2.StoresOk := by
  induction places generalizing s w with
  | nil => exact h.creditRow
  | cons p rest ih =>
    rw [State.rowPieces]
    split
    · exact h.agentWrite.of_snd ‹_›
    · exact ih (h.agentWritten ‹_›).creditRow

theorem State.StoresOk.mvRow {m a1 a2} (h : s.StoresOk) : (State.mvRow m a1 a2 s).2.StoresOk := by
  induction a1 generalizing s m a2 with
  | zero =>
    rw [State.mvRow]
    exact h
  | succ n ih =>
    rw [State.mvRow]
    split
    · exact h
    · split
      · exact h.mvForm.of_snd ‹_›
      · extract_lets start w1 n'
        split
        · exact (h.mvForm.of_snd ‹_›).bump.rowPieces.of_snd_snd ‹_›
        · exact ih ((h.mvForm.of_snd ‹_›).bump.rowPieces.of_snd_snd ‹_›)

theorem State.StoresOk.mvRun {m a1} (h : s.StoresOk) : (State.mvRun m a1 s).2.StoresOk := by
  induction a1 generalizing s m with
  | zero =>
    rw [State.mvRun]
    exact h
  | succ n ih =>
    rw [State.mvRun]
    split
    · exact h.mvRow.of_snd ‹_›
    · extract_lets y
      split
      · exact ih (h.mvRow.of_snd ‹_›).setMover
      · exact h.mvRow.of_snd ‹_›

theorem State.StoresOk.moverRun {m xform} (h : s.StoresOk) : (s.moverRun m xform).StoresOk := by
  unfold State.moverRun
  extract_lets x
  split
  · exact h
  · split
    · exact (h.mvRun.of_snd ‹_›).stopMover
    · exact (h.mvRun.of_snd ‹_›).handBack

theorem State.StoresOk.wakeMover {a0} (h : s.StoresOk) : (s.wakeMover a0).StoresOk := by
  unfold State.wakeMover
  split
  · exact h.wakeCd
  · exact h.wakeCd
  · exact h

theorem State.StoresOk.kickMover {m} (h : s.StoresOk) : (s.kickMover m).StoresOk := by
  unfold State.kickMover
  split
  · exact h
  · extract_lets s' x
    have hs' : s'.StoresOk := h.wakeMover
    exact hs'.setMover.fetchDesc.ite hs'.setMover

theorem State.StoresOk.rekick {m} (h : s.StoresOk) : (s.rekick m).StoresOk := h.setMover.kickMover.ite h

theorem State.StoresOk.resumeMover {m} (h : s.StoresOk) : (s.resumeMover m).StoresOk := by
  unfold State.resumeMover
  extract_lets x s1
  have hs1 : s1.StoresOk := h.setMover
  split
  · exact h
  · split
    · exact h.moverIrq
    · split
      · exact h.setMover.rekick
      · split
        · exact hs1.handBack
        · exact hs1.fetchDesc.ite hs1

theorem State.StoresOk.abortMover {m} (h : s.StoresOk) : (s.abortMover m).StoresOk := h.ite (h.setMover.rekick.ite h.handBack)

theorem State.StoresOk.resetMover {m} (h : s.StoresOk) : (s.resetMover m).StoresOk := h.ite h.setMover

theorem State.StoresOk.retryMover {m} (h : s.StoresOk) : (s.retryMover m).StoresOk := by
  unfold State.retryMover
  extract_lets x s1
  have hs1 : s1.StoresOk := h.setMover
  split
  · exact h
  · split
    · exact hs1.handBack
    · exact hs1.fetchDesc.ite hs1

theorem State.StoresOk.failMover {m} (h : s.StoresOk) : (s.failMover m).StoresOk := h.ite h.haltMover

/-! ## Sequencer control (Machine/RunControl) -/

theorem State.StoresOk.flushL1 {c} (h : s.StoresOk) : (s.flushL1 c).StoresOk := by
  unfold State.flushL1
  extract_lets mine own
  refine h.foldl fun ht => ?_
  extract_lets l cache s1
  have hs1 : s1.StoresOk := ht.settled
  exact (hs1.handUp.ite hs1).dropCopy

theorem State.StoresOk.ringDoorbell {d cl} (h : s.StoresOk) : (s.ringDoorbell d cl).StoresOk := h.setIpend

theorem State.StoresOk.releaseCore {d cl} (h : s.StoresOk) : (s.releaseCore d cl).StoresOk := by
  unfold State.releaseCore
  extract_lets k
  split
  · exact h
  · split
    · exact h.setCore
    · exact h.setCore
    · exact h

theorem State.StoresOk.requestHalt {d cl} (h : s.StoresOk) : (s.requestHalt d cl).StoresOk := h.modCore

theorem State.StoresOk.halt {d cl} (h : s.StoresOk) : (s.halt d cl).StoresOk := (h.insteadOf fun ht => ht.setCore).ite h

theorem State.StoresOk.resetSequencer {d cl} (h : s.StoresOk) : (s.resetSequencer d cl).StoresOk :=
  h.dropRequester.setCore.flushL1.ite h.dropRequester.setCore

/-! ## Translations that wait or fail (Machine/Translation) -/

theorem State.StoresOk.beginCmd {p op} (h : s.StoresOk) : (s.beginCmd p op).StoresOk := by
  unfold State.beginCmd
  split
  · exact h.setQuad
  · exact h

theorem State.StoresOk.translationFails {req va acc t} (h : s.StoresOk) : (s.translationFails req va acc t).StoresOk := by
  unfold State.translationFails
  extract_lets stop f
  split
  · exact h.beginCmd.stopPart
  · exact h.beginCmd.stopPart
  · exact h.stopMover
  · split
    · exact h.stopHead
    · exact h
  · extract_lets c trap
    have htrap : ∀ {x0} {x1}, (trap x0 x1).StoresOk := h.insteadOf fun ht => ht.trapHere
    split
    · exact h.park.modCore.ite htrap
    · exact htrap
    · exact htrap
    · exact htrap

theorem State.StoresOk.translation {e ctx va acc req} (h : s.StoresOk) : (s.translation e ctx va acc req).StoresOk := by
  unfold State.translation
  split
  · exact h
  · extract_lets seq
    split
    · exact h.translate.of_snd ‹_›
    · exact (h.translate.of_snd ‹_›).translationFails

theorem State.StoresOk.prefetchTranslation {req stream} (h : s.StoresOk) : (s.prefetchTranslation req stream).StoresOk := by
  unfold State.prefetchTranslation
  extract_lets e ctx seq
  split
  · exact h
  · split
    · exact h
    · split
      · exact h
      · extract_lets va
        split
        · exact (h.translate.of_snd ‹_›).park.ite (h.translate.of_snd ‹_›)
        · exact h.translate.of_snd ‹_›

theorem State.StoresOk.unparkEngine {e ring} (h : s.StoresOk) : (s.unparkEngine e ring).StoresOk := h.setEngine

theorem State.StoresOk.retryRequester {r req} (h : s.StoresOk) : (s.retryRequester r req).StoresOk := by
  unfold State.retryRequester
  split
  · extract_lets l s1
    have hs1 : s1.StoresOk := h.sampleDry
    exact hs1.setQuad
  · extract_lets l s1
    have hs1 : s1.StoresOk := h.setQuad
    exact (hs1.ite hs1.flushRecords).ite h
  · extract_lets c waits
    exact h.modCore.ite h
  · exact h.ite h.retryMover
  · extract_lets x
    exact (h.unparkEngine.flushEngRecs.ite h).ite (h.unparkEngine.ite h)

theorem State.StoresOk.failRequester {r req} (h : s.StoresOk) : (s.failRequester r req).StoresOk := by
  unfold State.failRequester
  split
  · extract_lets l s1
    have hs1 : s1.StoresOk := h.sampleDry
    exact hs1.setQuad.partFails.ite h
  · extract_lets l q
    exact h.setQuad.partFails.ite h
  · extract_lets c
    split
    · extract_lets addr
      split
      · exact h.loseRest.trapHere.ite (h.insteadOf fun ht => ht.trapHere)
      · exact h.trapHere
    · exact h
  · exact h.failMover
  · extract_lets x
    exact (h.setEngine.unparkEngine.flushEngRecs.ite h).ite (h.endHead.ite h)

theorem State.StoresOk.fbdone {e value} (h : s.StoresOk) : (s.fbdone e value).StoresOk := by
  unfold State.fbdone
  extract_lets x buf s1
  have hs1 : s1.StoresOk := h.setEtu.deliverIfDue
  split
  · exact h
  · split
    · exact h
    · extract_lets results s2
      have hs2 : s2.StoresOk := hs1.foldl fun ht => ht.foldl fun ht => ht.retryRequester.ite ht.failRequester
      exact (hs2.foldl fun ht => ht.retryRequester).deliverIfDue

theorem State.StoresOk.withdrawDone {e} (h : s.StoresOk) : (s.withdrawDone e).StoresOk := h.setEtu.hicSource.ite h.setEtu

theorem State.StoresOk.ageStores {a0} (h : s.StoresOk) : (s.ageStores a0).StoresOk := by
  unfold State.ageStores
  split
  · exact h.modCore
  · exact h

theorem State.StoresOk.withdraw {e value} (h : s.StoresOk) : (s.withdraw e value).StoresOk := by
  unfold State.withdraw
  extract_lets x all lo hi ctx waits s0 s1
  have hs0 : s0.StoresOk := by
    dsimp only [s0]
    refine h.foldl fun ht => ?_
    exact ht.ageStores
  have hs1 : s1.StoresOk := hs0.setEtu
  exact h.setEtu.ite (hs1.withdrawDone.ite hs1)

theorem State.StoresOk.withdrawAck {e req} (h : s.StoresOk) : (s.withdrawAck e req).StoresOk := h.ite (h.setEtu.withdrawDone.ite h.setEtu)

theorem State.StoresOk.withdrawTimeout {e} (h : s.StoresOk) : (s.withdrawTimeout e).StoresOk := h.ite h.setEtu.reportStop

theorem State.StoresOk.rollbackEtu {e} (h : s.StoresOk) : (s.rollbackEtu e).StoresOk := h.setEtu.withdrawDone.ite h.setEtu

theorem State.StoresOk.rollbackEtus (h : s.StoresOk) : s.rollbackEtus.StoresOk := by
  unfold State.rollbackEtus
  extract_lets s'
  have hs' : s'.StoresOk := by
    dsimp only [s']
    refine h.foldl fun ht => ?_
    exact ht.rollbackEtu
  exact hs'.same

/-! ## Accesses that go on (Machine/Held) -/

theorem State.StoresOk.releaseHeld (h : s.StoresOk) : s.releaseHeld.StoresOk := by
  unfold State.releaseHeld
  extract_lets x
  split
  · extract_lets free s1 s2 s3 s4 s5
    have hs1 : s1.StoresOk := h.modSnap
    have hs2 : s2.StoresOk := hs1.foldl fun ht => ht.uncachedLine
    have hs3 : s3.StoresOk := (hs2.foldl fun ht => ht.hicSource).ite hs2
    have hs4 : s4.StoresOk := hs3.foldl fun ht => ht.resumeLine
    have hs5 : s5.StoresOk := hs4.foldl fun ht => ht.retryRequester
    exact hs5.foldl fun ht => ht.deliverIfDue

theorem State.StoresOk.letGo (h : s.StoresOk) : s.letGo.StoresOk := h.ite h.releaseHeld

end

/-! # Canonical stores through the fabric, the Tether, the memory tiers, images and epochs. -/

section
variable {s : State}

/-! ## The receiving side of the fabric (Machine/Fabric) -/

theorem State.StoresOk.discardFlit {p bad} (h : s.StoresOk) : (s.discardFlit p bad).StoresOk := h.ite h.setPort.sendFlit

theorem State.StoresOk.takeFlit {p want} (h : s.StoresOk) : (s.takeFlit p want).2.StoresOk := by
  unfold State.takeFlit
  extract_lets x
  split
  · exact h.setPort.returnCredit
  · exact h

theorem State.StoresOk.arriving {p data d t} (h : s.StoresOk) (e : s.arriving p data = some (d, t)) : t.StoresOk := by
  unfold State.arriving at e
  extract_lets x at e
  split at e
  · cases e
    exact h
  · split at e
    · cases e
    · cases e
      exact h.setPort

theorem State.StoresOk.receiveFlit {p f fcrcOk} (h : s.StoresOk) : (s.receiveFlit p f fcrcOk).StoresOk := by
  unfold State.receiveFlit
  extract_lets x _ x1 s1 y
  have hs1 : s1.StoresOk := h.setPort.pumpPort
  exact h.ite (h.discardFlit.ite (h.discardFlit.ite (hs1.ite (hs1.setPort.sendNull.ite (hs1.forwardFlit.sendNull.ite hs1.returnCredit)))))

theorem State.StoresOk.dropWaiting {p} (h : s.StoresOk) : (s.dropWaiting p).StoresOk := h.setPort.foldl fun ht => ht.leaveBuffer

theorem State.StoresOk.portDown {p} (h : s.StoresOk) : (s.portDown p).StoresOk :=
  h.setPort.dropWaiting.report.injectStop.ite h.setPort.dropWaiting

theorem State.StoresOk.replayFrom {p fseq failed} (h : s.StoresOk) : (s.replayFrom p fseq failed).StoresOk :=
  h.ite (h.portDown.ite (h.setPort.foldl fun ht => ht.transmit))

theorem State.StoresOk.trained {p peer0 peerPort0} (h : s.StoresOk) : (s.trained p peer0 peerPort0).StoresOk := by
  unfold State.trained
  extract_lets x own peer peerPort y match'
  split
  · exact h
  · split
    · exact h
    · exact h.setPort.pumpPort.ite h.setPort.report

theorem State.StoresOk.retrainPort {p} (h : s.StoresOk) : (s.retrainPort p).StoresOk := h.setPort.dropWaiting

/-! ## Collectives (Machine/Collectives) -/

theorem State.StoresOk.setCreState {d x} (h : s.StoresOk) : (s.setCreState d x).StoresOk :=
  ⟨h.1, h.2.1, h.2.2.1, mwf_mset _ _ _ _ h.2.2.2.1, h.2.2.2.2⟩

theorem State.StoresOk.readList {e c k places acc} (h : s.StoresOk) (hk : ∀ {b t}, t.StoresOk → EngOk (k b t)) :
    EngOk (State.readList e c k places acc s) := by
  induction places generalizing s acc with
  | nil => exact hk h
  | cons p rest ih => exact h.engRead fun ht => ih ht

theorem State.StoresOk.sendUnit {e i c} (h : s.StoresOk) : EngOk (sendUnit e i c s) :=
  h.readList fun ht => ht.originate

theorem State.StoresOk.takePayload {e f c} (h : s.StoresOk) : EngOk (takePayload e f c s) := by
  unfold Machine.takePayload
  dsimp only
  split
  · exact h
  · exact h.engWrite fun ht => ht

theorem State.StoresOk.takeHeld {e fuel c} (h : s.StoresOk) : EngOk (takeHeld e fuel c s) := by
  induction fuel generalizing s c with
  | zero => exact h
  | succ n ih =>
    rw [Machine.takeHeld]
    split
    · exact h
    · exact h.takePayload.bind fun ht => ih ht.setCreState

theorem State.StoresOk.openRanks {e c k} (h : s.StoresOk) (hk : ∀ {c t}, t.StoresOk → EngOk (k c t)) : EngOk (openRanks e c s k) := by
  unfold Machine.openRanks
  split
  · exact hk h
  · refine h.engRead fun ht => ?_
    extract_lets ents ranks x other
    split
    · exact hk ht.setCreState
    · exact ht

theorem State.StoresOk.deliverColl {d port f} (h : s.StoresOk) : (s.deliverColl d port f).2.StoresOk := by
  unfold State.deliverColl
  extract_lets e x st
  split
  · split
    · split
      · exact h
      · split
        · exact (h.takePayload.of_go ‹_›).modHead
        · exact (h.takePayload.of_hold ‹_›).modHead
        · exact (h.takePayload.of_stop ‹_›).stopHead
    · split
      · exact h.setCreState
      · exact h
  · split
    · exact h.setCreState
    · exact h

/-! ## The Tether (Machine/Tether) -/

theorem State.StoresOk.dropToken {p} (h : s.StoresOk) : (s.dropToken p).StoresOk := by
  unfold State.dropToken
  extract_lets x s1
  have hs1 : s1.StoresOk := h.setTport
  exact hs1.same

theorem State.StoresOk.receiveToken {t b act} (h : s.StoresOk) (hact : ∀ {u : State}, u.StoresOk → (act u).StoresOk) :
    (s.receiveToken t b act).StoresOk := by
  unfold State.receiveToken
  extract_lets x s1
  have hs1 : s1.StoresOk := h.setTport
  split
  · exact h
  · split
    · exact (hact h).ite h.dropToken
    · split
      · split
        · exact h.setTport
        · exact (hact h).ite h.dropToken
      · exact (hact hs1).ite hs1.dropToken

theorem State.StoresOk.receiveUp {t b act} (h : s.StoresOk) (hact : ∀ {u : State}, u.StoresOk → (act u).StoresOk) :
    (s.receiveUp t b act).StoresOk :=
  h.receiveToken fun ht => (hact ht).ite ht

theorem State.StoresOk.receiveDown {t b act} (h : s.StoresOk) (hact : ∀ {u : State}, u.StoresOk → (act u).StoresOk) :
    (s.receiveDown t b act).StoresOk :=
  h.receiveToken fun ht => (hact ht).ite ht

theorem State.StoresOk.sendToken {ports kind sub origin arg tseq ext} (h : s.StoresOk) :
    (s.sendToken ports kind sub origin arg tseq ext).StoresOk := h.sendOn

theorem State.StoresOk.sendOwn {ports kind sub arg ext} (h : s.StoresOk) : (s.sendOwn ports kind sub arg ext).StoresOk :=
  h.nextTseq.sendToken

theorem State.StoresOk.passOn {t ports kind sub arg ext} (h : s.StoresOk) : (s.passOn t ports kind sub arg ext).StoresOk := h.sendToken

theorem State.StoresOk.deliverNotice {code data origin subject} (h : s.StoresOk) : (s.deliverNotice code data origin subject).StoresOk :=
  h.same.ite ((h.same.hicSource.ite h.same).foldl fun ht => ht.setIpend.ite ht)

theorem State.StoresOk.setSlow {origin factor} (h : s.StoresOk) : (s.setSlow origin factor).StoresOk := h.same

theorem State.StoresOk.faultUp {origin subject tseq cause} (h : s.StoresOk) : (s.faultUp origin subject tseq cause).StoresOk := by
  unfold State.faultUp
  extract_lets s' s1 now
  have hs' : s'.StoresOk := h.setSlow.ite h
  have hs1 : s1.StoresOk := hs'.deliverNotice.sampleCounter
  split
  · exact hs'.deliverNotice.ite hs'
  · exact (hs1.ite hs1.same.sendOwn).ite hs'.sendToken

theorem State.StoresOk.raiseFault {cause subject} (h : s.StoresOk) : (s.raiseFault cause subject).StoresOk := h.nextTseq.faultUp

theorem State.StoresOk.sendSlow {slow} (h : s.StoresOk) : (s.sendSlow slow).StoresOk := h.sendOwn.setSlow.deliverNotice

theorem State.StoresOk.popNotice (h : s.StoresOk) : (s.popNotice).2.StoresOk := by
  unfold State.popNotice
  extract_lets t lost
  split <;> exact h.same

theorem State.StoresOk.neighbourLost {p} (h : s.StoresOk) : (s.neighbourLost p).StoresOk := h.setTport.injectStop.raiseFault

theorem State.StoresOk.setRed {r} (h : s.StoresOk) : (s.setRed r).StoresOk := h.same

theorem State.StoresOk.redResult {origin slot x} (h : s.StoresOk) : (s.redResult origin slot x).StoresOk := h.same.deliverNotice

theorem State.StoresOk.settleReduce {slot} (h : s.StoresOk) : (s.settleReduce slot).StoresOk := by
  unfold State.settleReduce
  split
  · exact h
  · extract_lets own xs v
    split
    · exact h
    · split
      · exact h.setRed.sendOwn
      · exact h.sendOwn.redResult

theorem State.StoresOk.contribute {from' slot op id x} (h : s.StoresOk) : (s.contribute from' slot op id x).StoresOk :=
  h.ite (h.same.ite h.setRed.settleReduce)

/-! ## Memory tiers (Machine/Tiers) -/

theorem State.StoresOk.logRepair {b w0} (h : s.StoresOk) : (s.logRepair b w0).StoresOk := h.sampleCounter.report.ite h.sampleCounter.same

theorem State.StoresOk.poisonFull {b t} (h : s.StoresOk) : (s.poisonFull b t).StoresOk := h.report

theorem State.StoresOk.poisonDram {b t src cls detail pa} (h : s.StoresOk) : (s.poisonDram b t src cls detail pa).StoresOk :=
  h.poisonFull.ite h.bump.setBlock.report

theorem State.StoresOk.retireGranule {b g word} (h : s.StoresOk) : (s.retireGranule b g word).StoresOk :=
  h.ite (h.poisonFull.ite h.setBlock.logRepair.report)

theorem State.StoresOk.popRetq {b} (h : s.StoresOk) : (s.popRetq b).2.StoresOk := by
  unfold State.popRetq
  extract_lets k lost
  split
  · exact h.setBlock
  · extract_lets t
    exact h.setBlock

theorem State.StoresOk.askRemap {b t line} (h : s.StoresOk) : (s.askRemap b t line).StoresOk := by
  unfold State.askRemap
  split
  · exact h.retireGranule
  · extract_lets k q
    exact h.ite h.setBlock

theorem State.StoresOk.dramOutcome {b t line o} (h : s.StoresOk) : (s.dramOutcome b t line o).StoresOk := by
  unfold State.dramOutcome
  extract_lets pa at' k s1 n x
  have hs1 : s1.StoresOk := h.setBlock.report
  split
  · exact h
  · split
    · exact hs1.askRemap.ite hs1
    · split
      · extract_lets s2
        have hs2 : s2.StoresOk := hs1.setStack
        exact hs2.askRemap.ite hs2
  · exact h.poisonDram.askRemap

theorem State.StoresOk.sealOutcome {b t src o} (h : s.StoresOk) : (s.sealOutcome b t src o).StoresOk := by
  unfold State.sealOutcome
  extract_lets pa k
  split
  · exact h
  · exact h.setBlock.report
  · exact h.poisonDram

theorem State.StoresOk.sealFails {who pa} (h : s.StoresOk) : (s.sealFails who pa).StoresOk := by
  unfold State.sealFails
  split
  · extract_lets l
    exact h.partFails.ite h
  · split
    · split
      · exact h
      · split
        exact (h.startHead.of_snd ‹_›).modHead.endHead
    · exact h
  · extract_lets x
    split
    · split
      exact h.haltMover
    · exact h
  · extract_lets k
    split
    · exact h.setBlock.ite h
    · exact h
  · exact h

theorem State.StoresOk.copyRow {b q bad} (h : s.StoresOk) : (s.copyRow b q bad).StoresOk := by
  unfold State.copyRow
  refine h.foldl fun ht => ?_
  extract_lets t
  exact ht.poisonDram

theorem State.StoresOk.remapHead {d q bad} (h : s.StoresOk) : (s.remapHead d q bad).StoresOk := by
  unfold State.remapHead
  extract_lets b n x old x1
  split
  · exact h.retireGranule
  · extract_lets s1
    have hs1 : s1.StoresOk := h.copyRow.setStack
    exact hs1.setBlock

theorem State.StoresOk.remapRow {b bad} (h : s.StoresOk) : (s.remapRow b bad).StoresOk := by
  unfold State.remapRow
  extract_lets k
  split
  · exact h
  · exact h.setBlock.foldl fun ht => ht.logRepair
  · exact h
  · exact h.setBlock.ite (h.ite h.setBlock.remapHead)

theorem State.StoresOk.applyRepair {b w} (h : s.StoresOk) : (s.applyRepair b w).StoresOk := by
  unfold State.applyRepair
  extract_lets st n x k row g
  split
  · split
    · exact h.setStack
    · exact h
  · split
    · exact h.setStack
    · exact h
  · exact h.setBlock
  · exact h.setBlock
  · split
    · exact h.setStack
    · exact h.setBlock
  · exact h

theorem State.StoresOk.reloadRepairs {b} (h : s.StoresOk) : (s.reloadRepairs b).StoresOk := h.foldl fun ht => ht.applyRepair

theorem State.StoresOk.seStart {b value op result done} (h : s.StoresOk) : (s.seStart b value op result done).StoresOk := h.setBlock

theorem State.StoresOk.seWrite {b data} (h : s.StoresOk) : (s.seWrite b data).2.StoresOk := by
  unfold State.seWrite
  extract_lets buf
  split
  · exact h
  · split
    · exact h
    · exact h.writeMem

theorem State.StoresOk.readSeal {b value} (h : s.StoresOk) : (s.readSeal b value).StoresOk := by
  unfold State.readSeal
  extract_lets k
  split
  · exact h
  · split
    · exact h.seStart
    · split
      exact (h.seWrite.of_snd ‹_›).bump.seStart

theorem State.StoresOk.sealVerify {b value} (h : s.StoresOk) : (s.sealVerify b value).StoresOk := by
  unfold State.sealVerify
  extract_lets k
  split
  · exact h
  · split
    · exact h.seStart
    · exact (h.foldl fun ht => ht.ite ht.cleanTile).seStart

theorem State.StoresOk.listPoison {b value} (h : s.StoresOk) : (s.listPoison b value).StoresOk := by
  unfold State.listPoison
  extract_lets k ents
  split
  · exact h
  · split
    exact (h.seWrite.of_snd ‹_›).seStart

theorem State.StoresOk.resealTile {b t} (h : s.StoresOk) : (s.resealTile b t).StoresOk :=
  h.ite (h.foldl fun ht => ht.ite ht.same).setBlock.bump

theorem State.StoresOk.reseal {b value} (h : s.StoresOk) : (s.reseal b value).StoresOk := by
  unfold State.reseal
  extract_lets k
  split
  · exact h
  · split
    · exact h.seStart
    · split
      · exact h.seStart
      · exact (h.foldl fun ht => ht.resealTile).seStart

theorem State.StoresOk.seRefuse {b value code} (h : s.StoresOk) : (s.seRefuse b value code).StoresOk := h.setBlock.hicSource.ite h.setBlock

theorem State.StoresOk.startMove {b value} (h : s.StoresOk) : (s.startMove b value).StoresOk := by
  unfold State.startMove
  extract_lets k page slot refuse
  have hrefuse : ∀ {x0}, (refuse x0).StoresOk := h.seRefuse
  exact h.ite (hrefuse.ite (hrefuse.ite (hrefuse.ite h.setBlock)))

theorem State.StoresOk.mcAck {die value} (h : s.StoresOk) : (s.mcAck die value).StoresOk := h.setMcq

/-! ## The image store (Machine/Image) -/

theorem State.StoresOk.loadWindow {off data} (h : s.StoresOk) : (s.loadWindow off data).StoresOk := by
  unfold State.loadWindow
  split
  · exact h.same
  · exact h

theorem State.StoresOk.validated (h : s.StoresOk) : s.validated.StoresOk := by
  unfold State.validated
  extract_lets i
  split
  · exact h
  · split <;> exact h.same

theorem State.StoresOk.bindArray {i restart rings} (h : s.StoresOk) : (s.bindArray i restart rings).StoresOk := by
  unfold State.bindArray
  extract_lets d cl a old lay _ cfg s1 s2
  have hs1 : s1.StoresOk := h.same
  have hs2 : s2.StoresOk := hs1.foldl fun ht => ht.setQuad
  clear_value s2
  exact hs2.foldl fun ht => ht.setTile rfl

theorem State.StoresOk.setSec {type body} (h : s.StoresOk) : (s.setSec type body).StoresOk := h.same

theorem State.StoresOk.zeroSram (h : s.StoresOk) : s.zeroSram.StoresOk := h.same

theorem State.StoresOk.flipCompletes (h : s.StoresOk) : s.flipCompletes.StoresOk := h.same.ite h

theorem State.StoresOk.flipAbandoned (h : s.StoresOk) : s.flipAbandoned.StoresOk := by
  unfold State.flipAbandoned
  split
  · extract_lets held _ s1
    have hs1 : s1.StoresOk := h.same
    exact (hs1.foldl fun ht => ht.rekick).ite hs1
  · exact h

theorem State.StoresOk.applyFlip (h : s.StoresOk) : s.applyFlip.StoresOk := by
  unfold State.applyFlip
  extract_lets new sec old wait s1 s2 _ s3 s4 s5 _ s6 gone
  have hs1 : s1.StoresOk := h.foldl fun ht => ht.setSec
  have hs2 : s2.StoresOk := hs1.setSec
  clear_value s2
  have hs3 : s3.StoresOk := hs2.same
  have hs4 : s4.StoresOk := hs3.foldl fun ht => ht.ite ht.bindArray
  have hs5 : s5.StoresOk := hs4.foldl fun ht => ht.ite ht.retrainPort
  clear_value s5
  have hs6 : s6.StoresOk := hs5.ite hs5.same
  exact hs6.same

theorem State.StoresOk.flipApplied (h : s.StoresOk) : s.flipApplied.StoresOk := by
  unfold State.flipApplied
  split
  · exact h
  · extract_lets changed s1 _ s2 s3
    have hs1 : s1.StoresOk := h.applyFlip
    clear_value s1
    have hs2 : s2.StoresOk := hs1.same
    have hs3 : s3.StoresOk := hs2.foldl fun ht => ht.resetSequencer.releaseCore.ite ht.resetSequencer
    exact hs3.foldl fun ht => ht.rekick

theorem State.StoresOk.epochSections (h : s.StoresOk) : s.epochSections.StoresOk := by
  unfold State.epochSections
  extract_lets s1
  have hs1 : s1.StoresOk := by
    dsimp only [s1]
    refine h.foldl fun ht => ?_
    split
    · exact ht.setSec
    · exact ht
  exact hs1.same

/-! ## Snapshots and recovery (Machine/Snapshot) -/

theorem State.StoresOk.putManifest {at' off data} (h : s.StoresOk) : (s.putManifest at' off data).StoresOk := h.writeMem

theorem State.StoresOk.pairFails {reason} (h : s.StoresOk) : (s.pairFails reason).StoresOk := h.ite h.modSnap.raiseFault

theorem State.StoresOk.tryPair (h : s.StoresOk) : s.tryPair.StoresOk := by
  unfold State.tryPair
  split
  · exact h
  · split
    · exact h.modSnap.ite h
    · exact h.pairFails
    · exact h

theorem State.StoresOk.sendPairing (h : s.StoresOk) : s.sendPairing.StoresOk := by
  unfold State.sendPairing
  split
  · extract_lets up
    exact (h.foldl fun ht => ht.sendBridle).modSnap
  · exact h

theorem State.StoresOk.keepPosition (h : s.StoresOk) : s.keepPosition.StoresOk := h.modSnap

theorem State.StoresOk.arriveCut (h : s.StoresOk) : s.arriveCut.StoresOk := by
  unfold State.arriveCut
  split
  · exact h.keepPosition.modSnap
  · exact h.ite h.keepPosition.modSnap
  · exact h.ite h.keepPosition.modSnap
  · exact h

theorem State.StoresOk.cleanSet (h : s.StoresOk) : s.cleanSet.StoresOk := (h.foldl fun ht => ht.maintain).mapLines

theorem State.StoresOk.manifestHeader {n} (h : s.StoresOk) : (s.manifestHeader n).StoresOk :=
  (h.foldl fun ht => ht.ite ht.putManifest).putManifest.putManifest.putManifest

theorem State.StoresOk.recheckPair (h : s.StoresOk) : s.recheckPair.StoresOk := by
  unfold State.recheckPair
  split
  · exact h.modSnap.pairFails
  · exact h

theorem State.StoresOk.takeCut (h : s.StoresOk) : s.takeCut.StoresOk := by
  unfold State.takeCut
  extract_lets s' same s1 n s2
  have hs' : s'.StoresOk := h.epochSections
  have hs1 : s1.StoresOk := hs'.modSnap.recheckPair
  have hs2 : s2.StoresOk := hs1.modSnap
  exact hs1.modSnap.releaseHeld.ite (hs1.modSnap.ite (hs1.ite hs2.manifestHeader.releaseHeld))

theorem State.StoresOk.finishManifest (h : s.StoresOk) : s.finishManifest.StoresOk := by
  unfold State.finishManifest
  extract_lets n m ds s1 s2 d s4
  have hs1 : s1.StoresOk := h.foldl fun ht => ht.putManifest
  have hs2 : s2.StoresOk := hs1.flagManifest
  have hs4 : s4.StoresOk := hs2.putManifest.modSnap
  exact hs4.sendManifest.modSnap.ite hs4

theorem State.StoresOk.startDrain (h : s.StoresOk) : s.startDrain.StoresOk := h.ite h.modSnap

theorem State.StoresOk.takeCommit (h : s.StoresOk) : s.takeCommit.StoresOk := by
  unfold State.takeCommit
  split
  · exact h
  · extract_lets s1
    have hs1 : s1.StoresOk := h.flagManifest.modSnap
    exact hs1.startDrain.ite hs1

theorem State.StoresOk.askDrain (h : s.StoresOk) : s.askDrain.StoresOk := h.startDrain.ite h

theorem State.StoresOk.takeBridle {p kind} (h : s.StoresOk) : (s.takeBridle p kind).2.StoresOk := h.takeFlit

theorem State.StoresOk.dramPut {a data} (h : s.StoresOk) : (s.dramPut a data).StoresOk := by
  unfold State.dramPut
  refine h.foldl fun ht => ?_
  extract_lets s1
  have hs1 : s1.StoresOk := ht.same.invalidate.tidy
  exact hs1.dramWrite

theorem State.StoresOk.dropFlits {p} (h : s.StoresOk) : (s.dropFlits p).StoresOk :=
  (h.setPort.foldl fun ht => ht.returnCredit).foldl fun ht => ht.leaveBuffer

/-- What a rollback leaves of the units, beside the zeroed SRAM. -/
theorem State.StoresOk.emptyUnits {f engines tether snap} (h : s.StoresOk) : State.StoresOk { s.zeroSram with
    engines := engines, cre := [], cores := mmap Core.reset f s.cores, tether := tether, snap := snap } := by
  have ⟨_, hquads, hlines, _, hrest⟩ := h.zeroSram
  exact ⟨mwf_mmap _ _ _ h.1, hquads, hlines, rfl, hrest⟩

theorem State.StoresOk.rollbackUnits (h : s.StoresOk) : s.rollbackUnits.StoresOk := by
  unfold State.rollbackUnits
  extract_lets s1 _ _ _ s2
  have hs1 : s1.StoresOk := h.rollbackEtus.foldl fun ht => ht.bindArray
  clear_value s1
  have hs2 : s2.StoresOk := hs1.emptyUnits
  clear_value s2
  refine hs2.foldl fun ht => ?_
  extract_lets s'
  have hs' : s'.StoresOk := ht.dropFlits
  exact hs'.retrainPort.ite hs'

theorem State.StoresOk.dropSet {rs} (h : s.StoresOk) : (s.dropSet rs).StoresOk := by
  obtain ⟨hcores, hquads, hlines, hrest⟩ := h
  exact State.StoresOk.mapCores (s := { s with lines := s.lines.filter _ }) ⟨hcores, hquads, mwf_filter _ _ _ hlines, hrest⟩ |>.same

theorem State.StoresOk.copyBack {a0 a1} (h : s.StoresOk) : (s.copyBack a0 a1).StoresOk := by
  induction a1 generalizing s a0 with
  | nil =>
    rw [State.copyBack]
    exact h
  | cons x xs ih =>
    rw [State.copyBack]
    exact ih h.copyTiles

theorem State.StoresOk.rollBack (h : s.StoresOk) : s.rollBack.StoresOk := by
  unfold State.rollBack
  split
  · exact h
  · extract_lets c rs
    exact h.rollbackUnits.dropSet.copyBack.modSnap

theorem State.StoresOk.restoreRand {at'} (h : s.StoresOk) : (s.restoreRand at').StoresOk := by
  unfold State.restoreRand
  extract_lets one
  exact h.same

theorem State.StoresOk.enterRolled {c} (h : s.StoresOk) : (s.enterRolled c).StoresOk := by
  unfold State.enterRolled
  extract_lets s1
  have hs1 : s1.StoresOk := h.restoreRand.foldl fun ht => ht.resetSequencer
  clear_value s1
  exact hs1.same

theorem State.StoresOk.resumeRun (h : s.StoresOk) : s.resumeRun.StoresOk := h.modSnap.ite h

theorem State.StoresOk.sendWard (h : s.StoresOk) : s.sendWard.StoresOk := h.ite (h.foldl fun ht => ht.sendGranule).sendManifest

theorem State.StoresOk.writeTakeover {value} (h : s.StoresOk) : (s.writeTakeover value).StoresOk := by
  unfold State.writeTakeover
  split
  · exact h
  · extract_lets s1
    have hs1 : s1.StoresOk := h.modSnap
    exact hs1.modSnap.ite hs1

/-! ## Barriers and epochs (Machine/Epochs) -/

theorem State.StoresOk.setBar {b} (h : s.StoresOk) : (s.setBar b).StoresOk := h.same

theorem State.StoresOk.epochBarrier {id} (h : s.StoresOk) : (s.epochBarrier id).StoresOk :=
  h.ite ((h.ite h.takeCut).ite (h.takeCommit.ite h))

theorem State.StoresOk.barrierDone {origin id} (h : s.StoresOk) : (s.barrierDone origin id).StoresOk := by
  unfold State.barrierDone
  extract_lets _ s1
  have hs1 : s1.StoresOk := by
    dsimp only [s1]
    split
    · exact h.same.deliverNotice
    · exact h
  exact hs1.epochBarrier

theorem State.StoresOk.settleBarrier {id} (h : s.StoresOk) : (s.settleBarrier id).StoresOk := by
  unfold State.settleBarrier
  split
  · exact h
  · split
    · exact h
    · split
      · exact h.setBar.sendOwn
      · exact h.sendOwn.barrierDone

theorem State.StoresOk.arriveBarrier {from' id} (h : s.StoresOk) : (s.arriveBarrier from' id).StoresOk := by
  unfold State.arriveBarrier
  split
  · exact h.setBar.settleBarrier.ite (h.same.ite h.setBar.settleBarrier)
  · split
    · exact h.same
    · exact h.setBar.settleBarrier

theorem State.StoresOk.takeHeldArrivals (h : s.StoresOk) : s.takeHeldArrivals.StoresOk := h.same.foldl fun ht => ht.arriveBarrier

theorem State.StoresOk.closeFlip (h : s.StoresOk) : s.closeFlip.StoresOk := h.same

theorem State.StoresOk.settleFlip (h : s.StoresOk) : s.settleFlip.StoresOk := by
  unfold State.settleFlip
  extract_lets t
  split
  · exact h
  · split
    · exact h.same.sendOwn
    · exact h.sendOwn.closeFlip.flipCompletes.ite h

theorem State.StoresOk.settleAll (h : s.StoresOk) : s.settleAll.StoresOk :=
  ((h.foldl fun ht => ht.settleBarrier).foldl fun ht => ht.settleReduce).settleFlip.takeHeldArrivals

theorem State.StoresOk.idle (h : s.StoresOk) : s.idle.StoresOk := (h.settleAll.ite h).tetherTick

end

/-! # Canonical stores through power, the host, the registers, the accesses of the cores and management. -/

section
variable {s : State}

/-! ## Power, start-up and resets (Machine/Power) -/

/-- Reset lists nothing in any store. -/
theorem State.StoresOk.reset : State.reset.StoresOk :=
  ⟨mwf_nil _, mwf_nil _, mwf_nil _, mwf_nil _, mwf_nil _, fun _ hx => absurd hx List.not_mem_nil⟩

/-- What stays on through a reset stands beside the stores of reset, whatever the state listed. -/
theorem State.StoresOk.alwaysOn (_ : s.StoresOk) : s.alwaysOn.StoresOk := State.StoresOk.reset.same

theorem State.StoresOk.powerDown {all} (h : s.StoresOk) : (s.powerDown all).StoresOk := h.alwaysOn.same

theorem State.StoresOk.unpowered (h : s.StoresOk) : s.unpowered.StoresOk := h.same.alwaysOn.same

theorem State.StoresOk.selectImage {shadow} (h : s.StoresOk) : (s.selectImage shadow).StoresOk := h.same.setSec

theorem State.StoresOk.retarget {d} (h : s.StoresOk) : (s.retarget d).StoresOk := (h.ite h.sampleDryOf).setCdPwr

theorem State.StoresOk.requestState {d p} (h : s.StoresOk) : (s.requestState d p).StoresOk := h.ite h.setCdPwr.retarget

theorem State.StoresOk.warn (h : s.StoresOk) : s.warn.StoresOk := h.same.injectStop.hicSource

theorem State.StoresOk.brownout (h : s.StoresOk) : s.brownout.StoresOk := by
  unfold State.brownout
  extract_lets s1
  have hs1 : s1.StoresOk := h.report
  clear_value s1
  exact (hs1.powerDown (all := true)).same

theorem State.StoresOk.setStep {n} (h : s.StoresOk) : (s.setStep n).StoresOk := h.same

theorem State.StoresOk.adapt {lo n} (h : s.StoresOk) : (s.adapt lo n).StoresOk := h.same

theorem State.StoresOk.ppr {b} (h : s.StoresOk) : (s.ppr b).StoresOk := h.foldl fun ht => ht.bump.logRepair.applyRepair.ite ht.bump

theorem State.StoresOk.retrainHbm (h : s.StoresOk) : s.retrainHbm.StoresOk := by
  unfold State.retrainHbm
  refine h.foldl fun ht => ?_
  split
  · extract_lets old
    exact ht.same.bump
  · exact ht

theorem State.StoresOk.setMaint {on} (h : s.StoresOk) : (s.setMaint on).StoresOk := h.same

theorem State.StoresOk.applyImage (h : s.StoresOk) : s.applyImage.StoresOk := by
  unfold State.applyImage
  extract_lets new _ s1 s2 s3 _ s4 s5 s6 s7
  have hs1 : s1.StoresOk := h.same.foldl fun ht => ht.setSec
  have hs2 : s2.StoresOk := hs1.foldl fun ht => ht.bindArray
  have hs3 : s3.StoresOk := hs2.zeroSram
  clear_value s3
  have hs4 : s4.StoresOk := hs3.same
  have hs5 : s5.StoresOk := hs4.foldl fun ht => ht.setTport
  have hs6 : s6.StoresOk := hs5.foldl fun ht => ht.retrainPort.ite ht
  have hs7 : s7.StoresOk := hs6.foldl fun ht => ht.retarget
  refine State.StoresOk.sendPairing ?_
  refine hs7.foldl fun ht => ?_
  extract_lets d cl
  exact ht.resetSequencer.releaseCore.ite ht

theorem State.StoresOk.activate (h : s.StoresOk) : s.activate.StoresOk := (h.same.applyImage.ite h.same.same).setStep

theorem State.StoresOk.moduleReset (h : s.StoresOk) : s.moduleReset.StoresOk := by
  unfold State.moduleReset
  split
  · exact h
  · extract_lets s1 _ _ _ _ _ s2
    have hs1 : s1.StoresOk := h.alwaysOn
    have hs2 : s2.StoresOk := hs1.same
    exact (hs2.ite hs2.validated.selectImage).driveFailstop.settleAll

theorem State.StoresOk.dropHazia (h : s.StoresOk) : s.dropHazia.StoresOk := by
  unfold State.dropHazia
  extract_lets hazia s' lost kept
  have hs' : s'.StoresOk := h.foldl fun ht => ht.settled
  clear_value s'
  have hkept : kept.StoresOk := by
    obtain ⟨hcores, hquads, hlines, hrest⟩ := hs'
    exact ⟨hcores, hquads, mwf_filter _ _ _ hlines, hrest⟩
  exact hkept.foldl fun ht => ht.tidy

theorem State.StoresOk.hostReset (h : s.StoresOk) : s.hostReset.StoresOk := by
  unfold State.hostReset
  extract_lets s0 _ _ _ _ _ s1 s2
  have hs0 : s0.StoresOk := h.dropHazia
  clear_value s0
  have hs1 : s1.StoresOk := by
    obtain ⟨hcores, hquads, hlines, hcre, -, htiles⟩ := hs0
    exact ⟨mwf_filter _ _ _ hcores, hquads, hlines, hcre, rfl, htiles⟩
  have hs2 : s2.StoresOk := hs1.validated
  clear_value s2
  exact hs2.same

/-! ## The host interface (Machine/Host) -/

theorem State.StoresOk.writeHirte {n w} (h : s.StoresOk) : (s.writeHirte n w).StoresOk := by
  unfold State.writeHirte
  extract_lets v
  split
  · exact h
  · exact h.setHirte.hicDeliver

theorem State.StoresOk.writeHipi {w} (h : s.StoresOk) : (s.writeHipi w).StoresOk := h.ite h.pendVector

theorem State.StoresOk.inboundFails (h : s.StoresOk) : s.inboundFails.StoresOk := h.same.report

theorem State.StoresOk.takeMsi {value} (h : s.StoresOk) : (s.takeMsi value).StoresOk := h.inboundFails.ite (h.modSnap.ite h.hicSource)

theorem State.StoresOk.inboundWrite {c va b} (h : s.StoresOk) : (s.inboundWrite c va b).StoresOk := by
  unfold State.inboundWrite
  split
  · exact h.takeMsi
  · split
    · exact (h.agentLocate.of_snd ‹_›).agentScatter
    · exact (h.agentLocate.of_snd ‹_›).inboundFails

theorem State.StoresOk.answerPcie {c ok data} (h : s.StoresOk) : (s.answerPcie c ok data).StoresOk := h.modCore

/-! ## Registers (Machine/Registers) -/

theorem State.StoresOk.readClear {m r} (h : s.StoresOk) : (s.readClear m r).StoresOk := by
  unfold State.readClear
  cases r with
  | modpwr | tstat | pciestat | comstat => exact h.same
  | mcstat => exact h.setMcq
  | cdpwr => exact h.setCdPwr
  | tnotq => exact h.ite h.popNotice
  | tpstat => exact h.setTport
  | cbwstat => exact h.modSnap
  | etustat | fbstat => exact h.setEtu
  | sealstat => exact h.setBlock
  | retq => exact h.ite h.popRetq
  | remapstat b =>
    cases b with
    | mb d => exact h.setStack
    | hd => exact h
  | therm => exact h.setStack
  | qfrz => exact h.setQuad.bump.bump
  | qrej => exact h.setQuad
  | erej => exact h.setEngine
  | fpstat => exact h.setPort.bump
  | fpdrop => exact h.setPort
  | _ => exact h

theorem State.StoresOk.writeSictl {v} (h : s.StoresOk) : (s.writeSictl v).StoresOk := by
  unfold State.writeSictl
  split
  · exact h.same
  · exact h.same
  · exact h.same
  · exact h.same
  · exact h

theorem State.StoresOk.writeSnapctl {v} (h : s.StoresOk) : (s.writeSnapctl v).StoresOk := by
  unfold State.writeSnapctl
  split
  · exact h.arriveCut
  · exact h.rollBack
  · exact h.askDrain
  · exact h.resumeRun
  · exact h.sendWard
  · exact h

theorem State.StoresOk.writeSeqrun {d cl v} (h : s.StoresOk) : (s.writeSeqrun d cl v).StoresOk := by
  unfold State.writeSeqrun
  split
  · exact h.releaseCore
  · exact h.requestHalt
  · exact h.resetSequencer
  · exact h

theorem State.StoresOk.writeMvctl {m v} (h : s.StoresOk) : (s.writeMvctl m v).StoresOk := by
  unfold State.writeMvctl
  split
  · exact h.kickMover
  · exact h.resumeMover
  · exact h.abortMover
  · exact h.resetMover
  · exact h

theorem State.StoresOk.writeSecmd {b v} (h : s.StoresOk) : (s.writeSecmd b v).StoresOk := by
  unfold State.writeSecmd
  split
  · exact h.readSeal
  · exact h.sealVerify
  · exact h.listPoison
  · exact h.reseal
  · exact h.startMove
  · exact h.ite h.seRefuse

theorem State.StoresOk.writeTctl {v} (h : s.StoresOk) : (s.writeTctl v).StoresOk :=
  (h.same.injectStop.ite h.same).raiseFault.ite (h.same.injectStop.ite h.same)

theorem State.StoresOk.writeFbbase {e v} (h : s.StoresOk) : (s.writeFbbase e v).StoresOk := h.ite h.setEtu

theorem State.StoresOk.writeFbctl {e v} (h : s.StoresOk) : (s.writeFbctl e v).StoresOk := h.ite h.setEtu.deliverIfDue

theorem State.StoresOk.writeSeg {e i f} (h : s.StoresOk) : (s.writeSeg e i f).StoresOk := h.setEtu.ite h

/-- A register either has an operation of its own or keeps a field that no store holds; a read-only one keeps the state. -/
theorem State.StoresOk.writeReg {who mask v raw r} (h : s.StoresOk) : (s.writeReg who mask v raw r).StoresOk := by
  unfold State.writeReg
  cases r with
  | modpwr | sistat | tbarstat | tred | tndeliv | ridctx | srseed => exact h.same
  | snapstat | rollepoch | xferctl | rovl => exact h.modSnap
  | etuctl | wdbase | wdlimit | wdstat => exact h.setEtu
  | sestart | secount | sebuf => exact h.setBlock
  | segbase | seglimit | segperm => exact h.writeSeg
  | mcstat => exact h.setMcq
  | mcack => exact h.mcAck.ite h
  | cdpwr => exact h.requestState
  | sictl => exact h.writeSictl.ite h
  | tctl => exact h.writeTctl.ite h
  | tbar => exact h.arriveBarrier.takeHeldArrivals.ite h
  | tredctl => exact h.contribute.ite h
  | tpstat => exact h.setTport
  | snapctl => exact h.writeSnapctl.ite h
  | takeover => exact h.writeTakeover
  | hirte => exact h.writeHirte.ite h
  | hipi => exact h.writeHipi.ite h
  | ctxtable => exact h.setEtu.ite h
  | fbbase => exact h.writeFbbase
  | fbctl => exact h.writeFbctl
  | fbdone => exact h.fbdone.ite h
  | withdraw => exact h.withdraw.ite h
  | mvring => exact h.setMover.ite h
  | mvctl => exact h.writeMvctl.ite h
  | remapctl b =>
    cases b with
    | mb d => exact h.setBlock
    | hd => exact h
  | secmd => exact h.writeSecmd.ite h
  | qctl => exact h.recoverPart.ite h
  | qpost => exact h.qpost.ite h
  | qcplbase => exact h.setRing
  | tilectl => exact h.clrTile.ite h
  | seqdb => exact h.ringDoorbell.ite h
  | seqrun => exact h.writeSeqrun.ite h
  | ectl => exact h.recoverEngine.ite h
  | ecplbase => exact h.setEngBase
  | epost =>
    dsimp only
    split
    · exact h
    · split
      · exact h.epostFrom
      · exact h.epostIgnored
  | epostx =>
    dsimp only
    split
    · exact h
    · split
      · exact h.epostIgnored
      · exact h.epostx
  | _ => exact h

theorem State.StoresOk.regRead {a size} (h : s.StoresOk) : (s.regRead a size).2.StoresOk := by
  unfold State.regRead
  split
  · exact h
  · extract_lets v lo m
    exact h.readClear

theorem State.StoresOk.regWrite {who a data} (h : s.StoresOk) : (s.regWrite who a data).StoresOk := by
  unfold State.regWrite
  extract_lets o sh mask raw
  split
  · exact h.loadWindow.ite h
  · exact h.writeReg

/-! ## Loads, stores and branches (Machine/MemAccess) -/

theorem State.StoresOk.rootWrite {off data} (h : s.StoresOk) : (s.rootWrite off data).StoresOk := h.foldl fun ht => ht.same

theorem State.StoresOk.deviceLoad {c k a n va} (h : s.StoresOk) : LoadedOk (s.deviceLoad c k a n va) := by
  have hread : (s.regRead a n).2.StoresOk := h.regRead
  unfold State.deviceLoad
  generalize s.regRead a n = r at hread ⊢
  generalize a - 0xE0000000000 = off
  generalize rootOffset a = ro
  split
  · exact h
  · exact h
  · split
    · exact h
    · generalize s.kindAt a = kind
      cases kind with
      | pcieMem => exact h.emit
      | ecam =>
        cases ro with
        | none => exact h.emit
        | some off => exact h
      | _ => exact hread

theorem State.StoresOk.cacheLoad {c l va nt} (h : s.StoresOk) : LoadedOk (s.cacheLoad c l va nt) := by
  unfold State.cacheLoad
  extract_lets lines
  split
  · exact h.startMiss
  · split
    · exact h
    · exact h.foldl fun ht => ht.touch

theorem State.StoresOk.loadAt {c k l va nt} (h : s.StoresOk) : LoadedOk (s.loadAt c k l va nt) := by
  unfold State.loadAt
  split
  · split
    · exact h.deviceLoad
    · exact h
  · split
    · exact h
    · exact h
    · split
      · exact h
      · exact h.cacheLoad

theorem State.StoresOk.coreLoad {c k va n nt} (h : s.StoresOk) : LoadedOk (s.coreLoad c k va n nt) := by
  unfold State.coreLoad
  split
  · exact (h.locate.of_snd ‹_›).accessRes
  · exact (h.locate.of_snd ‹_›).loadAt

theorem State.StoresOk.configStore {c k va a data} (h : s.StoresOk) : EitherOk ResOk (·.1.StoresOk) (s.configStore c k va a data) := by
  unfold State.configStore
  split
  · exact h
  · exact h
  · split
    · exact h
    · split
      · exact h.rootWrite
      · exact h.emit

theorem State.StoresOk.coreStore {c k va data nt} (h : s.StoresOk) : EitherOk ResOk (·.1.StoresOk) (s.coreStore c k va data nt) := by
  unfold State.coreStore
  split
  · exact (h.locate.of_snd ‹_›).accessRes
  · extract_lets pa
    split
    · exact (h.locate.of_snd ‹_›).configStore
    · split <;> exact h.locate.of_snd ‹_›

theorem State.StoresOk.atomicAccess {c k va size store align never nt reads need} (h : s.StoresOk) :
    EitherOk ResOk (·.1.StoresOk) (s.atomicAccess c k va size store align never nt reads need) := by
  unfold State.atomicAccess
  extract_lets waitOn
  split
  · exact (h.locate.of_snd ‹_›).accessRes
  · extract_lets a ln blocked
    split
    · exact h.locate.of_snd ‹_›
    · split
      · exact (h.locate.of_snd ‹_›).startMiss
      · split <;> exact h.locate.of_snd ‹_›

theorem State.StoresOk.performPiece {c a data} (h : s.StoresOk) : (s.performPiece c a data).StoresOk := by
  unfold State.performPiece
  split
  · exact h.emit
  · exact h.emit
  · exact h.sramWrite.ite (h.regWrite.ite h.ownedWrite)

theorem State.StoresOk.fillFromL2 {h0 line} (h : s.StoresOk) : (s.fillFromL2 h0 line).StoresOk := h.setLine.install.ite h

theorem State.StoresOk.runBranch {c p sh slot body} (h : s.StoresOk) (hbody : ∀ {t k nxt}, t.StoresOk → ResOk (body t k nxt)) :
    (s.runBranch c p sh slot body).StoresOk := by
  refine h.runInstr fun ht => ?_
  split
  · exact ht
  · exact hbody ht

theorem State.StoresOk.condBranch {c p sh slot disp cond} (h : s.StoresOk) : (condBranch c p sh slot disp cond s).StoresOk :=
  h.runBranch fun ht => ht

theorem State.StoresOk.callBody {c slot target k nxt} (h : s.StoresOk) : ResOk (callBody c slot target s k nxt) := by
  unfold Machine.callBody
  extract_lets b ret sp push
  split
  · exact h
  · split
    · exact h
    · split
      · exact (h.locateTwo.of_snd ‹_›).accessRes
      · split
        · exact h.locateTwo.of_snd ‹_›
        · extract_lets k1
          exact h.locateTwo.of_snd ‹_›

/-! ## Messages between caches and directories (Machine/Coherence) -/

theorem State.StoresOk.dropClean {cache line} (h : s.StoresOk) : (s.dropClean cache line).StoresOk := by
  unfold State.dropClean
  extract_lets n s1 s2
  have hs1 : s1.StoresOk := h.settled
  have hs2 : s2.StoresOk := hs1.cleanLine.ite hs1
  split
  · exact (hs2.foldl fun ht => ht.dropCopy).dropCopy
  · exact h.dropCopy

theorem State.StoresOk.parityError {line cache at'} (h : s.StoresOk) : (s.parityError line cache at').StoresOk := by
  unfold State.parityError
  extract_lets x
  split
  · exact h.ite (h.report.ite h.dropClean.report)
  · exact h.dropClean.report.ite h.report
  · exact h.report

theorem State.StoresOk.takeTurn {dir line r} (h : s.StoresOk) : (s.takeTurn dir line r).StoresOk := by
  unfold State.takeTurn
  split
  · exact h.noteSlot.putLine
  · exact h.noteSlot.touch.same
  · exact h.request

theorem State.StoresOk.arrive {dir line r more} (h : s.StoresOk) : (s.arrive dir line r more).StoresOk :=
  h.modDirEntry.ite (h.modDirEntry.foldl fun ht => ht.takeTurn).forwardSecond

theorem State.StoresOk.sendRequest {cache line r more} (h : s.StoresOk) : (s.sendRequest cache line r more).StoresOk := by
  unfold State.sendRequest
  split
  · exact h
  · split
    · exact h
    · extract_lets s1 tr
      have hs1 : s1.StoresOk := by
        dsimp only [s1]
        split
        · exact h
        · exact h.asks
      split
      · split
        · split
          · extract_lets s3
            have hs3 : s3.StoresOk := (hs1.takeUp.get ‹_›).arrive
            exact hs3.deliverMaint
          · exact hs1
        · exact hs1.requestFrom
        · exact hs1.requestFrom
        · exact hs1.arrive
      · exact h

theorem State.StoresOk.orderMaint {c line op} (h : s.StoresOk) : (s.orderMaint c line op).StoresOk := h.modCore.request.settleLine

theorem State.StoresOk.maintBody {c op m len k} (h : s.StoresOk) : ResOk (maintBody c op m len s k) := by
  unfold Machine.maintBody
  extract_lets va acc done uncached ordered
  have hdone : ∀ {t : State}, t.StoresOk → ResOk (done t) := fun ht => ht
  split
  · exact h
  · have huncached : MaybeOk uncached := by
      dsimp only [uncached]
      split
      · split
        · exact h.coreTranslate.of_snd ‹_›
        · trivial
      · trivial
    clear_value uncached
    split
    · exact huncached
    · split
      · exact (h.locate.of_snd ‹_›).accessRes
      · have hlocated := h.locate.of_snd ‹_›
        extract_lets ln s2
        have hs2 : s2.StoresOk := hlocated.orderMaint
        split
        · exact hlocated
        · split
          · exact hlocated
          · split
            · exact hdone hlocated
            · split
              · exact hdone hlocated.maintain.tidy
              · split
                · exact hs2
                · exact hdone hs2

/-! ## Integer instructions (Machine/Integer) -/

theorem State.StoresOk.alu3 {c p dd da db bytes op long} (h : s.StoresOk) : (alu3 c p dd da db bytes op s long).StoresOk := h.runLocal

theorem State.StoresOk.alu2 {c p dd da bytes op} (h : s.StoresOk) : (alu2 c p dd da bytes op s).StoresOk := h.runLocal

theorem State.StoresOk.aluImm {c p dd da i ext op} (h : s.StoresOk) : (aluImm c p dd da i ext op s).StoresOk := h.runLocal

theorem State.StoresOk.aluImm8 {c p dd da bytes op} (h : s.StoresOk) : (aluImm8 c p dd da bytes op s).StoresOk := h.runLocal

/-! ## The management protocol (Machine/Mgmt) -/

theorem State.StoresOk.emitVmp {l} (h : s.StoresOk) : (s.emitVmp l).StoresOk := h.same

theorem State.StoresOk.modSession {sid f} (h : s.StoresOk) : (s.modSession sid f).StoresOk := h.same

theorem State.StoresOk.endSessions {p} (h : s.StoresOk) : (s.endSessions p).StoresOk := h.same

theorem State.StoresOk.dropMsg (h : s.StoresOk) : s.dropMsg.StoresOk := h.same

theorem State.StoresOk.sendVmp {x type flags status echo data} (h : s.StoresOk) :
    (s.sendVmp x type flags status echo data).1.StoresOk := h.modSession.emitVmp

theorem State.StoresOk.keepAnswer {rq l} (h : s.StoresOk) : (s.keepAnswer rq l).StoresOk := h.modSession

theorem State.StoresOk.answer {x rq status data} (h : s.StoresOk) : (s.answer x rq status data).StoresOk := by
  unfold State.answer
  split
  exact (h.sendVmp.of_fst ‹_›).keepAnswer

theorem State.StoresOk.ack {x rq} (h : s.StoresOk) : (s.ack x rq).StoresOk := by
  unfold State.ack
  split
  exact (h.sendVmp.of_fst ‹_›).keepAnswer

theorem State.StoresOk.perform {type rq x body after} (h : s.StoresOk) (hbody : ∀ {x t}, t.StoresOk → (body x t).st.StoresOk)
    (hafter : ∀ {x} {t : State}, t.StoresOk → (after x t).StoresOk) : (s.perform type rq x body after).StoresOk := by
  unfold State.perform
  split
  · exact h.answer
  · extract_lets a s2
    have hs2 : s2.StoresOk := (hbody h).answer
    exact (hafter hs2).ite hs2

theorem State.StoresOk.queueSlow {sid op} (h : s.StoresOk) : (s.queueSlow sid op).StoresOk := h.same

theorem State.StoresOk.takeRequest {type rq self x body after} (h : s.StoresOk) (hbody : ∀ {x t}, t.StoresOk → (body x t).st.StoresOk)
    (hafter : ∀ {x} {t : State}, t.StoresOk → (after x t).StoresOk) : (s.takeRequest type rq self x body after).StoresOk := by
  unfold State.takeRequest
  extract_lets s1
  have hs1 : s1.StoresOk := h.modSession
  split
  · exact hs1.answer
  · split
    · exact hs1.answer
    · split
      · exact (hs1.perform hbody hafter).ite hs1.ack.queueSlow
      · exact hs1.perform hbody hafter

theorem State.StoresOk.unresumed (h : s.StoresOk) : s.unresumed.StoresOk := h.same

theorem State.StoresOk.vmp {type rq self body after} (h : s.StoresOk) (hbody : ∀ {x t}, t.StoresOk → (body x t).st.StoresOk)
    (hafter : ∀ {x} {t : State}, t.StoresOk → (after x t).StoresOk) : (s.vmp type rq self body after).StoresOk := by
  unfold State.vmp
  extract_lets s'
  have hs' : s'.StoresOk := h.unresumed
  split
  · exact hs'
  · split
    · exact hs'.ite hs'.dropMsg
    · split
      · exact hs'.perform hbody hafter
      · split
        · exact hs'.dropMsg
        · split
          · exact hs'.emitVmp
          · exact hs'.dropMsg.ite (hs'.takeRequest hbody hafter)

theorem State.StoresOk.vmpPlain {type rq self body} (h : s.StoresOk) (hbody : ∀ {t}, t.StoresOk → (body t).st.StoresOk) :
    (s.vmpPlain type rq self body).StoresOk :=
  h.vmp hbody fun ht => ht

theorem State.StoresOk.accept {slot role init} (h : s.StoresOk) : (s.accept slot role init).StoresOk := h.bump.same.emitVmp

theorem State.StoresOk.refuseInit {status} (h : s.StoresOk) : (s.refuseInit status).StoresOk := h.emitVmp

theorem State.StoresOk.openSession {claim slot msg sig1 sig2} (h : s.StoresOk) : (s.openSession claim slot msg sig1 sig2).StoresOk :=
  h.refuseInit.ite (h.refuseInit.ite ((h.refuseInit.ite (h.refuseInit.ite h.same.accept)).ite (h.refuseInit.ite h.accept)))

theorem State.StoresOk.bist {t} (h : s.StoresOk) : (s.bist t).StoresOk := by
  unfold State.bist
  split
  · extract_lets hit
    exact h.bump.same

theorem State.StoresOk.repairStack {t op u b} (hop : ∀ {x}, (op x).1.StoresOk) (e : s.repairStack t op = some (u, b)) : u.StoresOk := by
  unfold State.repairStack at e
  split at e
  · exact hop.of_fst (Option.some.inj e)
  · cases e

theorem State.StoresOk.repairWith {op u b} (h : s.StoresOk) (e : s.repairWith op = some (u, b)) : u.StoresOk := by
  unfold State.repairWith at e
  cases op with
  | readCam t row => exact State.StoresOk.repairStack h e
  | writeCam t row spare => exact State.StoresOk.repairStack h.setStack e
  | readSpare t bank i => exact State.StoresOk.repairStack h e
  | markSpare t bank i bad => exact State.StoresOk.repairStack h.setStack e
  | readColumn t i => cases e; exact h
  | writeColumn t i v => cases e; exact h.setStack
  | readFuse t i => cases e; exact h
  | writeFuse t i v => cases e; exact h.same
  | bist t => cases e; exact h.bist

theorem State.StoresOk.askHostReset (h : s.StoresOk) : s.askHostReset.st.StoresOk := by
  unfold State.askHostReset
  split <;> exact h

theorem State.StoresOk.askReset {kind} (h : s.StoresOk) : (s.askReset kind).st.StoresOk := by
  unfold State.askReset
  split
  · split <;> exact h
  · split
    · exact h.askHostReset
    · exact h

theorem State.StoresOk.setFirmware {host f} (h : s.StoresOk) : (s.setFirmware host f).StoresOk := h.same

end

/-! # Canonical stores after the commands of the cores, the arrays, the vector unit and the engines. A command that is one operation of
the blocks above has no lemma of its own: `State.StoresOk.exec` names that operation. -/

section
variable {s : State}

/-! ## Array queues (Machine/ArrayQueue) -/

theorem State.StoresOk.execAcmd {c p vs dq} (h : s.StoresOk) : OutcomeOk (execAcmd c p vs dq s) := by
  unfold Machine.execAcmd
  refine h.runInstr fun ht => ?_
  split
  · exact ht.acmdBody
  · exact ht

/-! ## Scalar floating point (Machine/Float) -/

theorem State.StoresOk.execFcvt {c p dd da i} (h : s.StoresOk) : OutcomeOk (execFcvt c p dd da i s) := by
  unfold Machine.execFcvt
  refine h.runInstr fun ht => ?_
  split
  · exact ht
  · extract_lets raw
    split
    exact ht

/-! ## Array commands (Machine/Arrays) -/

theorem State.StoresOk.execLoadb {part bad} (h : s.StoresOk) : OutcomeOk (execLoadb part bad s) := by
  unfold Machine.execLoadb
  split
  · refine h.runCmd fun ht => ?_
    exact ht.loadRow
  · exact h

theorem State.StoresOk.execDrain {part bad} (h : s.StoresOk) : OutcomeOk (execDrain part bad s) := by
  unfold Machine.execDrain
  split
  · split
    · exact h.setQuad
    · refine h.runCmd fun ht => ?_
      exact ht.drainStep
  · exact h

theorem State.StoresOk.execTileclr {part} (h : s.StoresOk) : OutcomeOk (execTileclr part s) := by
  unfold Machine.execTileclr
  split
  · exact (h.setTile rfl).setQuad
  · exact h

theorem State.StoresOk.execFence {part} (h : s.StoresOk) : OutcomeOk (execFence part s) := by
  unfold Machine.execFence
  split
  · exact h.retire
  · exact h

theorem State.StoresOk.execDrainInstruction {c p vd t dr} (h : s.StoresOk) : OutcomeOk (execDrainInstruction c p vd t dr s) := by
  unfold Machine.execDrainInstruction
  refine h.runInstr fun ht => ?_
  refine ht.tileInstrBody ?_
  intros
  split <;> exact ht

theorem State.StoresOk.execTileRd {c p vd t dr} (h : s.StoresOk) : OutcomeOk (execTileRd c p vd t dr s) := by
  unfold Machine.execTileRd
  refine h.runInstr fun ht => ?_
  refine ht.tileInstrBody ?_
  intros
  split <;> exact ht

theorem State.StoresOk.execTileWr {c p t dr vs} (h : s.StoresOk) : OutcomeOk (execTileWr c p t dr vs s) := by
  unfold Machine.execTileWr
  refine h.runInstr fun ht => ?_
  refine ht.tileInstrBody ?_
  intros
  split
  · exact ht
  · exact ht.setTile (foldl_keeps (fun x : Tile => mwf 0 x.entries = true) _ (fun _ _ hx => Tile.put_entries hx) _ _ ht.tile)

/-! ## Control, traps and interrupts (Machine/System) -/

theorem State.StoresOk.execMfc {c p x num} (h : s.StoresOk) : OutcomeOk (execMfc c p x num s) := by
  unfold Machine.execMfc
  refine h.runInstr fun ht => ?_
  split
  · exact ht
  · split
    · split
      exact ht.sampleCycles.of_fst ‹_›
    · exact ht

theorem State.StoresOk.execMtc {c p num x} (h : s.StoresOk) : OutcomeOk (execMtc c p num x s) := by
  unfold Machine.execMtc
  refine h.runInstr fun ht => ?_
  split <;> exact ht

theorem State.StoresOk.execMfb {c p x b16} (h : s.StoresOk) : OutcomeOk (execMfb c p x b16 s) := by
  unfold Machine.execMfb
  refine h.runInstr fun ht => ?_
  split
  · exact ht
  · split
    · exact ht
    · extract_lets w
      exact ht

theorem State.StoresOk.execMtb {c p b16 x} (h : s.StoresOk) : OutcomeOk (execMtb c p b16 x s) := by
  unfold Machine.execMtb
  refine h.runInstr fun ht => ?_
  split
  · exact ht
  · split
    · exact ht
    · extract_lets w k1
      exact ht

theorem State.StoresOk.execHalt {c p} (h : s.StoresOk) : OutcomeOk (execHalt c p s) := by
  unfold Machine.execHalt
  refine h.runInstr fun ht => ?_
  split <;> exact ht

theorem State.StoresOk.execMode {c p m} (h : s.StoresOk) : OutcomeOk (execMode c p m s) := by
  unfold Machine.execMode
  refine h.runInstr fun ht => ?_
  split
  · exact ht
  · split
    · exact ht
    · split <;> exact ht

theorem State.StoresOk.execRte {c p} (h : s.StoresOk) : OutcomeOk (execRte c p s) := by
  unfold Machine.execRte
  refine h.runInstr fun ht => ?_
  extract_lets t _ k1
  split
  · exact ht
  · split
    · exact ht
    · split <;> exact ht

theorem State.StoresOk.execWait {c p} (h : s.StoresOk) : OutcomeOk (execWait c p s) := by
  unfold Machine.execWait
  extract_lets k
  split
  · exact h.endWait
  · exact h.runInstr fun ht => ht

theorem State.StoresOk.execWaitWake {c} (h : s.StoresOk) : OutcomeOk (execWaitWake c s) := by
  unfold Machine.execWaitWake
  extract_lets k
  split
  · exact h.endWait
  · exact h

theorem State.StoresOk.execIfence {c p} (h : s.StoresOk) : OutcomeOk (execIfence c p s) := by
  unfold Machine.execIfence
  refine h.runInstr fun ht => ?_
  split <;> exact ht

theorem State.StoresOk.execMfence {c p} (h : s.StoresOk) : OutcomeOk (execMfence c p s) := by
  unfold Machine.execMfence
  refine h.runInstr fun ht => ?_
  split
  · exact ht
  · split <;> exact ht

/-! ## The vector unit (Machine/Vector) -/

theorem State.StoresOk.execVsel {c p vd va vb pc} (h : s.StoresOk) : OutcomeOk (execVsel c p vd va vb pc s) := by
  unfold Machine.execVsel
  refine h.runVector fun ht => ?_
  extract_lets w es
  exact ht

theorem State.StoresOk.execVredsum {c p dd va} (h : s.StoresOk) : OutcomeOk (execVredsum c p dd va s) := by
  unfold Machine.execVredsum
  refine h.runInstr fun ht => ?_
  extract_lets code w op
  split
  exact ht

theorem State.StoresOk.execVcvt {c p vd va i} (h : s.StoresOk) : OutcomeOk (execVcvt c p vd va i s) := by
  unfold Machine.execVcvt
  refine h.runVector fun ht => ?_
  extract_lets dst src wd ws n x
  split
  · exact ht
  · split
    exact ht

theorem State.StoresOk.execVperm {c p vd va vb} (h : s.StoresOk) : OutcomeOk (execVperm c p vd va vb s) := by
  unfold Machine.execVperm
  refine h.runVector fun ht => ?_
  extract_lets w n a b
  split
  exact ht

theorem State.StoresOk.execVld {c p vd m} (h : s.StoresOk) : OutcomeOk (execVld c p vd m s) := by
  unfold Machine.execVld
  refine h.runInstr fun ht => ?_
  extract_lets w unit va es old
  split
  · exact (ht.vecLocate.of_snd ‹_›).accessRes
  · split
    · exact ht.vecLocate.of_snd ‹_›
    · split
      · exact ht.vecLocate.of_snd ‹_›
      · extract_lets at' need
        split
        · exact (ht.vecLocate.of_snd ‹_›).startMiss
        · split
          · exact ht.vecLocate.of_snd ‹_›
          · split
            exact (ht.vecLocate.of_snd ‹_›).foldl fun ht => ht.touch

theorem State.StoresOk.execVst {c p vs m} (h : s.StoresOk) : OutcomeOk (execVst c p vs m s) := by
  unfold Machine.execVst
  refine h.runInstr fun ht => ?_
  extract_lets w unit va es v
  split
  · exact (ht.vecLocate.of_snd ‹_›).accessRes
  · split
    · exact ht.vecLocate.of_snd ‹_›
    · extract_lets at' need s2
      have hs2 : s2.StoresOk := (ht.vecLocate.of_snd ‹_›).foldl fun ht => ht.sramWrite.ite ht.ownedWrite
      split
      · exact (ht.vecLocate.of_snd ‹_›).startMiss
      · exact hs2

/-! ## The engines (Machine/Engines) -/

theorem State.StoresOk.execFunc {e bad} (h : s.StoresOk) : OutcomeOk (execFunc e bad s) := by
  unfold Machine.execFunc
  refine h.runHead fun ht => ?_
  refine ht.withDescs fun ht => ?_
  refine ht.engUnits fun ht => ?_
  exact ht.txeRow

theorem State.StoresOk.execSetstream {e bad} (h : s.StoresOk) : OutcomeOk (execSetstream e bad s) := by
  unfold Machine.execSetstream
  refine h.runHead fun ht => ?_
  refine ht.unlessStruck ?_
  extract_lets
  split
  · exact ht
  · exact ht.setRand

theorem State.StoresOk.execGetstream {e bad} (h : s.StoresOk) : OutcomeOk (execGetstream e bad s) := by
  unfold Machine.execGetstream
  refine h.runHead fun ht => ?_
  refine ht.unlessStruck (ht.ownedStream ?_)
  exact ht.engWrite fun hu => hu

theorem State.StoresOk.execFreestream {e bad} (h : s.StoresOk) : OutcomeOk (execFreestream e bad s) := by
  unfold Machine.execFreestream
  refine h.runHead fun ht => ?_
  refine ht.unlessStruck (ht.ownedStream ?_)
  exact ht.setRand

theorem State.StoresOk.execFill {e bad} (h : s.StoresOk) : OutcomeOk (execFill e bad s) := by
  unfold Machine.execFill
  refine h.runHead fun ht => ?_
  refine ht.ownedStream ?_
  refine ht.withDescs fun hu => ?_
  exact (hu.engUnits fun hv => hv.fillRow).bind fun hv => hv.setRand

theorem State.StoresOk.execCombine {e bad} (h : s.StoresOk) : OutcomeOk (execCombine e bad s) := by
  unfold Machine.execCombine
  refine h.runHead fun ht => ?_
  dsimp only
  split
  · refine ht.engUnits fun ht => ?_
    exact ht.foldRow
  · refine ht.engRead fun ht => ?_
    refine ht.withDescs fun ht => ?_
    refine ht.engUnits fun ht => ?_
    exact ht.foldRow

theorem State.StoresOk.execTranspose {e bad} (h : s.StoresOk) : OutcomeOk (execTranspose e bad s) := by
  unfold Machine.execTranspose
  refine h.runHead fun ht => ?_
  refine ht.withDescs fun ht => ?_
  refine ht.engUnits fun ht => ?_
  exact ht.transposeRow

theorem State.StoresOk.execCompress {e bad} (h : s.StoresOk) : OutcomeOk (execCompress e bad s) := by
  unfold Machine.execCompress
  refine h.runHead fun ht => ?_
  extract_lets n
  refine ht.engUnits fun ht => ?_
  exact ht.compressUnit

theorem State.StoresOk.execScrub {d store offset outcome} (h : s.StoresOk) : OutcomeOk (execScrub d store offset outcome s) := by
  unfold Machine.execScrub
  split
  · exact h
  · extract_lets pa cs unit r found cs1 s1
    have hs1 : s1.StoresOk := h.same
    split
    · exact h
    · exact h.same.report
    · exact hs1.ite hs1.report

/-! ## Customer instructions (Machine/Microcode) -/

theorem State.StoresOk.execCustomerInstruction {c p entry ops i} (h : s.StoresOk) :
    OutcomeOk (execCustomerInstruction c p entry ops i s) := by
  unfold Machine.execCustomerInstruction
  extract_lets e valid sh imm
  refine h.runInstr fun ht => ?_
  split
  · exact ht
  · split
    · exact ht
    · split
      · split
        · exact (ht.sampleCycles.of_fst ‹_›).bump
        · exact ht.sampleCycles.of_fst ‹_›

end

/-! # Canonical stores after the commands of the fabric, the Tether, memory, power, the host and management. -/

section
variable {s : State}

/-! ## The receiving side of the fabric (Machine/Fabric) -/

theorem State.StoresOk.execFlitReceive {port data} (h : s.StoresOk) : OutcomeOk (execFlitReceive port data s) := by
  unfold Machine.execFlitReceive
  split
  · exact (h.arriving ‹_›).receiveFlit
  · exact h

theorem State.StoresOk.execLinkctlNack {port failed} (h : s.StoresOk) : OutcomeOk (execLinkctlNack port failed s) := by
  unfold Machine.execLinkctlNack
  split
  · exact (h.takeFlit.of_snd ‹_›).replayFrom.ite (h.takeFlit.of_snd ‹_›)
  · exact h.takeFlit.of_snd ‹_›

/-! ## Collectives (Machine/Collectives) -/

theorem State.StoresOk.execCollsend {e bad} (h : s.StoresOk) : OutcomeOk (execCollsend e bad s) := by
  unfold Machine.execCollsend
  refine h.runHead fun ht => ?_
  refine ht.withDescs fun ht => ?_
  extract_lets n
  refine ht.engUnits fun ht => ?_
  exact ht.sendUnit

theorem State.StoresOk.execCollrecv {e bad} (h : s.StoresOk) : OutcomeOk (execCollrecv e bad s) := by
  unfold Machine.execCollrecv
  refine h.runHead fun ht => ?_
  refine ht.withDescs fun hu => ?_
  refine hu.openRanks fun hv => ?_
  refine hv.takeHeld.bind fun hw => ?_
  split
  · exact hw.engUnits fun hx => hx.foldRow
  · exact hw

theorem State.StoresOk.execCollFlit {cd port} (h : s.StoresOk) : OutcomeOk (execCollFlit cd port s) := by
  unfold Machine.execCollFlit
  split
  · exact h
  · split
    · extract_lets x
      split
      · exact h
      · split
        · split
          · extract_lets y
            exact (h.deliverColl.of_snd ‹_›).setPort.returnCredit
          · exact h.deliverColl.of_snd ‹_›
    · split
      · exact h
      · split
        · split
          · extract_lets st
            exact (h.deliverColl.of_snd ‹_›).setCreState
          · exact h.deliverColl.of_snd ‹_›

theorem State.StoresOk.execNomatchTimeout {cd} (h : s.StoresOk) : OutcomeOk (execNomatchTimeout cd s) := by
  unfold Machine.execNomatchTimeout
  extract_lets st matched
  split
  · exact h
  · extract_lets s1 p y
    have hs1 : s1.StoresOk := h.setCreState
    exact hs1.setPort

/-! ## The Tether (Machine/Tether) -/

theorem State.StoresOk.execStop {src cause} (h : s.StoresOk) : OutcomeOk (execStop src cause s) := by
  unfold Machine.execStop
  split
  · exact h.injectStop
  · refine h.receiveToken fun ht => ?_
    split
    · exact ht
    · extract_lets _ s1
      have hs1 : s1.StoresOk := ht.same
      exact hs1.floodStop.stopHere

theorem State.StoresOk.execTnotqRead (h : s.StoresOk) : OutcomeOk (execTnotqRead s) := by
  unfold Machine.execTnotqRead
  split
  exact (h.popNotice.of_snd ‹_›).same

theorem State.StoresOk.execCollectiveTimeout {e} (h : s.StoresOk) : OutcomeOk (execCollectiveTimeout e s) := by
  unfold Machine.execCollectiveTimeout
  extract_lets st
  split
  · exact h
  · dsimp only
    split
    · exact h
    · split
      · exact h
      · exact h.setCreState.raiseFault

theorem State.StoresOk.execHeartbeat {t} (h : s.StoresOk) : OutcomeOk (execHeartbeat t s) := by
  unfold Machine.execHeartbeat
  refine h.receiveToken fun ht => ?_
  extract_lets x wrong s1
  have hs1 : s1.StoresOk := ht.setTport
  exact hs1.report.ite hs1

theorem State.StoresOk.execTetherHeartbeatTimer (h : s.StoresOk) : OutcomeOk (execTetherHeartbeatTimer s) := by
  unfold Machine.execTetherHeartbeatTimer
  split
  · exact h
  · exact h.sendOwn

theorem State.StoresOk.execTetherBlockLock {p} (h : s.StoresOk) : OutcomeOk (execTetherBlockLock p s) := by
  unfold Machine.execTetherBlockLock
  split
  · exact h.setTport
  · exact h

theorem State.StoresOk.execReduceResult {t slot op id x} (h : s.StoresOk) : OutcomeOk (execReduceResult t slot op id x s) := by
  unfold Machine.execReduceResult
  refine h.receiveDown fun ht => ?_
  extract_lets r
  exact ht.passOn.redResult

/-! ## Memory tiers (Machine/Tiers) -/

theorem State.StoresOk.execRetqRead {b} (h : s.StoresOk) : OutcomeOk (execRetqRead b s) := by
  unfold Machine.execRetqRead
  split
  exact (h.popRetq.of_snd ‹_›).same

theorem State.StoresOk.execDramRead {addr outcome} (h : s.StoresOk) : OutcomeOk (execDramRead addr outcome s) := by
  unfold Machine.execDramRead
  split
  · exact h.dramOutcome
  · exact h

theorem State.StoresOk.execDramLineWrite {addr data} (h : s.StoresOk) : OutcomeOk (execDramLineWrite addr data s) := by
  unfold Machine.execDramLineWrite
  extract_lets line
  split
  · exact h.dramWrite
  · exact h

theorem State.StoresOk.execSealCacheEvict {b tile} (h : s.StoresOk) : OutcomeOk (execSealCacheEvict b tile s) := h.setBlock

theorem State.StoresOk.execSealVerifyingRead {addr who cmp} (h : s.StoresOk) : OutcomeOk (execSealVerifyingRead addr who cmp s) := by
  unfold Machine.execSealVerifyingRead
  extract_lets a
  split
  · exact h
  · split
    · exact h
    · extract_lets s1
      have hs1 : s1.StoresOk := h.cleanTile.bump.sealOutcome
      exact hs1.sealFails.ite hs1

theorem State.StoresOk.execPatrol {b line outcome cmp} (h : s.StoresOk) : OutcomeOk (execPatrol b line outcome cmp s) := by
  unfold Machine.execPatrol
  extract_lets t s1 s2 t' _ s3
  have hs1 : s1.StoresOk := h.dramOutcome
  have hs2 : s2.StoresOk := hs1.ite hs1.sealOutcome
  have hs3 : s3.StoresOk := hs2.setBlock
  split
  · refine hs3.foldl fun ht => ?_
    extract_lets n
    exact ht.setStack
  · exact hs3

theorem State.StoresOk.execSealEngineCommandComplete {b} (h : s.StoresOk) : OutcomeOk (execSealEngineCommandComplete b s) := by
  unfold Machine.execSealEngineCommandComplete
  extract_lets k
  split
  · exact h
  · extract_lets s1
    have hs1 : s1.StoresOk := h.setBlock
    exact hs1.hicSource.ite hs1

theorem State.StoresOk.execPageMoveComplete {b} (h : s.StoresOk) : OutcomeOk (execPageMoveComplete b s) := by
  unfold Machine.execPageMoveComplete
  extract_lets k
  split
  · exact h
  · extract_lets s1
    have hs1 : s1.StoresOk := h.setBlock.logRepair
    exact hs1.hicSource.ite hs1

theorem State.StoresOk.execDieLinkFlitReceive {l fwd crcOk} (h : s.StoresOk) : OutcomeOk (execDieLinkFlitReceive l fwd crcOk s) := by
  unfold Machine.execDieLinkFlitReceive
  extract_lets n x failed count
  split
  · split
    · exact h
    · split
      · exact h.same
      · split <;> exact h.same.report

/-! ## Snapshots and recovery (Machine/Snapshot) -/

/-- The end of a capture, over any state to which its record was written. -/
theorem State.StoresOk.captured {d : Fin 4} (h : s.StoresOk) :
    OutcomeOk (Machine.next
      ({ s with randLate := addNew d.val s.randLate }.modSnap fun x => { x with captureDue := without d.val x.captureDue })) :=
  h.same.modSnap

theorem State.StoresOk.execRandCapture {d} (h : s.StoresOk) : OutcomeOk (execRandCapture d s) := by
  unfold Machine.execRandCapture
  extract_lets
  split
  · exact h
  · exact State.StoresOk.captured h.putManifest

theorem State.StoresOk.execBackgroundCopy (h : s.StoresOk) : OutcomeOk (execBackgroundCopy s) := by
  unfold Machine.execBackgroundCopy
  split
  · exact h
  · split
    · exact h.granuleCopied
    · split
      · exact h.streamPlaced
      · exact h.streamPlaced.finishManifest

theorem State.StoresOk.execCabinetDrainComplete (h : s.StoresOk) : OutcomeOk (execCabinetDrainComplete s) := by
  unfold Machine.execCabinetDrainComplete
  split
  · exact h
  · extract_lets n l
    exact h.modSnap

theorem State.StoresOk.execBridlePairing {port} (h : s.StoresOk) : OutcomeOk (execBridlePairing port s) := by
  unfold Machine.execBridlePairing
  split
  · exact h.takeBridle.of_snd ‹_›
  · split
    · exact h.takeBridle.of_snd ‹_›
    · exact (h.takeBridle.of_snd ‹_›).modSnap.tryPair

theorem State.StoresOk.execBridleSlotData {port} (h : s.StoresOk) : OutcomeOk (execBridleSlotData port s) := by
  unfold Machine.execBridleSlotData
  split
  · exact h.takeBridle.of_snd ‹_›
  · extract_lets count
    have hcount : ∀ {t : State}, t.StoresOk → (count t).StoresOk := fun ht => ht.modSnap
    split
    · exact h
    · exact h.takeBridle.of_snd ‹_›
    · exact hcount (h.takeBridle.of_snd ‹_›).dramPut
    · split
      · exact hcount (h.takeBridle.of_snd ‹_›).dramPut
      · exact hcount (h.takeBridle.of_snd ‹_›)

theorem State.StoresOk.execBridleManifest {port} (h : s.StoresOk) : OutcomeOk (execBridleManifest port s) := by
  unfold Machine.execBridleManifest
  split
  · exact h.takeBridle.of_snd ‹_›
  · extract_lets count n
    have hcount : ∀ {t : State}, t.StoresOk → (count t).StoresOk := fun ht => ht.modSnap
    split
    · exact h
    · exact h.takeBridle.of_snd ‹_›
    · exact hcount (h.takeBridle.of_snd ‹_›).putManifest
    · exact hcount (h.takeBridle.of_snd ‹_›).modSnap.putManifest

theorem State.StoresOk.execBridleEndOfStream {port answer} (h : s.StoresOk) : OutcomeOk (execBridleEndOfStream port answer s) := by
  unfold Machine.execBridleEndOfStream
  split
  · exact h.takeBridle.of_snd ‹_›
  · extract_lets n reply
    have hreply : ∀ {t : State}, t.StoresOk → (reply t).StoresOk := fun ht => ht.sendBridle
    split
    · exact (h.takeBridle.of_snd ‹_›).modSnap.ite (h.takeBridle.of_snd ‹_›)
    · split
      · exact h
      · exact h.takeBridle.of_snd ‹_›
      · split
        · exact h
        · split
          · exact hreply (h.takeBridle.of_snd ‹_›).modSnap
          · exact (h.takeBridle.of_snd ‹_›).raiseFault
      · split
        · exact h
        · exact (hreply (h.takeBridle.of_snd ‹_›)).modSnap

theorem State.StoresOk.execRollbackComplete (h : s.StoresOk) : OutcomeOk (execRollbackComplete s) := by
  unfold Machine.execRollbackComplete
  extract_lets c
  split
  · exact h
  · split
    · exact h.enterRolled
    · exact h.modSnap

theorem State.StoresOk.execRestoreComplete (h : s.StoresOk) : OutcomeOk (execRestoreComplete s) := by
  unfold Machine.execRestoreComplete
  split
  · exact h
  · extract_lets c m rs ok
    exact h.enterRolled.ite h.modSnap

/-! ## Barriers and epochs (Machine/Epochs) -/

theorem State.StoresOk.execSnapshotCleanComplete (h : s.StoresOk) : OutcomeOk (execSnapshotCleanComplete s) := by
  unfold Machine.execSnapshotCleanComplete
  split
  · exact h
  · extract_lets s1
    have hs1 : s1.StoresOk := h.cleanSet.modSnap
    exact hs1.arriveBarrier.takeHeldArrivals

theorem State.StoresOk.execCommitArrive (h : s.StoresOk) : OutcomeOk (execCommitArrive s) := by
  unfold Machine.execCommitArrive
  split
  · exact h
  · extract_lets s1
    have hs1 : s1.StoresOk := h.modSnap
    exact hs1.arriveBarrier.takeHeldArrivals

theorem State.StoresOk.execFlipQuiescent (h : s.StoresOk) : OutcomeOk (execFlipQuiescent s) := by
  unfold Machine.execFlipQuiescent
  split
  · exact h
  · exact h.same.settleFlip

theorem State.StoresOk.execFlipOpen {src} (h : s.StoresOk) : OutcomeOk (execFlipOpen src s) := by
  unfold Machine.execFlipOpen
  split
  · split
    · exact h
    · exact h.same.sendOwn.settleFlip
  · exact h.receiveDown fun ht => ht.same.passOn.settleFlip

theorem State.StoresOk.execFlipAbandonTimeout (h : s.StoresOk) : OutcomeOk (execFlipAbandonTimeout s) := by
  unfold Machine.execFlipAbandonTimeout
  split
  · exact h
  · exact h.sendOwn.closeFlip.flipAbandoned

theorem State.StoresOk.execHeartbeatLost {p} (h : s.StoresOk) : OutcomeOk (execHeartbeatLost p s) := by
  unfold Machine.execHeartbeatLost
  split
  · exact h
  · exact h.neighbourLost.settleAll

/-! ## Power, start-up and resets (Machine/Power) -/

theorem State.StoresOk.execPstepComplete {d} (h : s.StoresOk) : OutcomeOk (execPstepComplete d s) := by
  unfold Machine.execPstepComplete
  extract_lets x
  split
  · exact h.setCdPwr.ite h
  · exact h

theorem State.StoresOk.execCdThermalSample {d sample} (h : s.StoresOk) : OutcomeOk (execCdThermalSample d sample s) := by
  unfold Machine.execCdThermalSample
  extract_lets x s1
  have hs1 : s1.StoresOk := h.setCdPwr
  split
  · exact h
  · split
    · split
      · exact h
      · exact hs1.retarget.report
    · extract_lets n y s1'
      have hs1' : s1'.StoresOk := h.setCdPwr.retarget
      exact hs1'.report.ite hs1'

theorem State.StoresOk.execCdIdleEntry {d} (h : s.StoresOk) : OutcomeOk (execCdIdleEntry d s) := h.setCdPwr.ite h

theorem State.StoresOk.execPowerWindow {watts} (h : s.StoresOk) : OutcomeOk (execPowerWindow watts s) := by
  unfold Machine.execPowerWindow
  extract_lets _ s1 each
  have hs1 : s1.StoresOk := h.same
  clear_value s1
  have heach : ∀ {f} {t : State}, t.StoresOk → (each f t).StoresOk :=
    fun ht => ht.foldl fun hu => hu.setCdPwr.retarget.ite hu
  clear_value each
  split
  · exact h
  · split
    · exact heach hs1.same
    · split
      · split
        · exact heach hs1.same
        · exact State.StoresOk.same hs1
      · exact State.StoresOk.same hs1

theorem State.StoresOk.execStackThermalSample {t sample} (h : s.StoresOk) : OutcomeOk (execStackThermalSample t sample s) := by
  unfold Machine.execStackThermalSample
  split
  · extract_lets n x level level' y s1 s2 s3
    have hs1 : s1.StoresOk := h.setStack
    have hs2 : s2.StoresOk := hs1.report.ite hs1
    have hs3 : s3.StoresOk := hs2.report.ite hs2
    split
    · exact h
    · exact hs3.ite hs3.sendSlow

theorem State.StoresOk.execInputVoltageSample {vin header} (h : s.StoresOk) : OutcomeOk (execInputVoltageSample vin header s) := by
  unfold Machine.execInputVoltageSample
  split
  · exact h
  · extract_lets p v p1 s1 s2 s3
    have hs1 : s1.StoresOk := h.same
    have hs2 : s2.StoresOk := hs1.warn.ite (hs1.same.ite hs1)
    have hs3 : s3.StoresOk := hs2.brownout.ite hs2
    exact hs3.same.ite hs3

theorem State.StoresOk.execRefClockCheck {ok156 ok100} (h : s.StoresOk) : OutcomeOk (execRefClockCheck ok156 ok100 s) := by
  unfold Machine.execRefClockCheck
  split
  · exact h
  · extract_lets _ s1
    have hs1 : s1.StoresOk := h.ite h.same.report
    exact hs1.ite hs1.same.pcieDown.report

theorem State.StoresOk.execStartUpStep1 (h : s.StoresOk) : OutcomeOk (execStartUpStep1 s) := by
  unfold Machine.execStartUpStep1
  split
  · exact h
  · extract_lets _ _ s1
    have hs1 : s1.StoresOk := h.same
    exact hs1.emit.driveFailstop

theorem State.StoresOk.execStartUpStep2 {locked} (h : s.StoresOk) : OutcomeOk (execStartUpStep2 locked s) := by
  unfold Machine.execStartUpStep2
  split
  · exact h
  · split
    · exact h.same
    · extract_lets _ _ s1 s2
      have hs1 : s1.StoresOk := h.same.driveFailstop
      have hs2 : s2.StoresOk := hs1.same.adapt.validated.selectImage
      exact (hs2.foldl fun ht => ht.setTport.ite ht).setStep

theorem State.StoresOk.execStartUpStep3 {lanes} (h : s.StoresOk) : OutcomeOk (execStartUpStep3 lanes s) := by
  unfold Machine.execStartUpStep3
  extract_lets s' on _ s1 blocks s2 _ s3 _ s4 _ s5
  have hs' : s'.StoresOk := h.same
  have hs1 : s1.StoresOk := hs'.same
  have hs2 : s2.StoresOk := hs1.foldl fun ht => ht.reloadRepairs.ppr.ite ht.reloadRepairs
  have hs3 : s3.StoresOk := hs2.same.retrainHbm
  clear_value s3
  have hs4 : s4.StoresOk := hs3.same
  have hs5 : s5.StoresOk := hs4.foldl fun ht => ht.setCdPwr
  split
  · exact h
  · split
    · exact hs'.report
    · split
      · exact hs1.report
      · exact (hs5.adapt.adapt.foldl fun ht => ht.retrainPort).setStep

theorem State.StoresOk.execStartUpStep4 {sris} (h : s.StoresOk) : OutcomeOk (execStartUpStep4 sris s) := by
  unfold Machine.execStartUpStep4
  split
  · exact h
  · split
    · exact h
    · extract_lets _ cores
      have hcores : mwf Core.reset cores = true :=
        foldl_keeps (fun m => mwf Core.reset m = true) _ (fun _ _ hm => mwf_mset _ _ _ _ hm) _ _ h.1
      clear_value cores
      refine State.StoresOk.setMaint ?_
      exact ⟨hcores, h.2⟩

/-! ## The host interface (Machine/Host) -/

theorem State.StoresOk.execPcieInboundRequest {rid va size data} (h : s.StoresOk) :
    OutcomeOk (execPcieInboundRequest rid va size data s) := by
  unfold Machine.execPcieInboundRequest
  split
  · exact h
  · split
    · exact h.inboundFails.emit
    · split
      · exact (h.agentRead.of_snd ‹_›).emit
      · exact (h.agentRead.of_snd ‹_›).inboundFails.emit
    · exact h.inboundWrite

theorem State.StoresOk.execPcieLinkEvent {ev} (h : s.StoresOk) : OutcomeOk (execPcieLinkEvent ev s) := by
  unfold Machine.execPcieLinkEvent
  dsimp only
  split
  · exact h
  · split
    · exact h.same.hicSource
    · exact h.same.hicSource
    · exact h.pcieDown
    · exact h.report
    · exact h.report

/-! ## Registers (Machine/Registers) -/

theorem State.StoresOk.execRegisterReadClear {addr size} (h : s.StoresOk) : OutcomeOk (execRegisterReadClear addr size s) := by
  unfold Machine.execRegisterReadClear
  split
  · split
    exact (h.regRead.of_snd ‹_›).same
  · exact h

/-! ## Loads, stores and branches (Machine/MemAccess) -/

theorem State.StoresOk.execLd {c p mw x m} (h : s.StoresOk) : OutcomeOk (execLd c p mw x m s) := by
  unfold Machine.execLd
  refine h.runInstr fun ht => ?_
  split
  · exact ht
  · split
    · exact ht.coreLoad.of_ok ‹_›
    · exact ht.coreLoad.of_stop ‹_›

theorem State.StoresOk.execLds {c p mw dd m} (h : s.StoresOk) : OutcomeOk (execLds c p mw dd m s) := by
  unfold Machine.execLds
  refine h.runInstr fun ht => ?_
  split
  · exact ht
  · split
    · exact ht.coreLoad.of_ok ‹_›
    · exact ht.coreLoad.of_stop ‹_›

theorem State.StoresOk.execSt {c p mw x m} (h : s.StoresOk) : OutcomeOk (execSt c p mw x m s) := by
  unfold Machine.execSt
  refine h.runInstr fun ht => ?_
  split
  · exact ht
  · split
    · exact ht.coreStore.of_ok ‹_›
    · exact ht.coreStore.of_error ‹_›

theorem State.StoresOk.execLr {c p wide dd m} (h : s.StoresOk) : OutcomeOk (execLr c p wide dd m s) := by
  unfold Machine.execLr
  extract_lets size
  refine h.runInstr fun ht => ?_
  split
  · exact ht.atomicAccess.of_error ‹_›
  · extract_lets w
    exact (ht.atomicAccess.of_ok ‹_›).touch.rehold

theorem State.StoresOk.execSc {c p wide dstat dval m} (h : s.StoresOk) : OutcomeOk (execSc c p wide dstat dval m s) := by
  unfold Machine.execSc
  extract_lets size
  refine h.runInstr fun ht => ?_
  extract_lets holds
  split
  · exact ht.atomicAccess.of_error ‹_›
  · extract_lets ok s2
    have hs2 : s2.StoresOk := (ht.atomicAccess.of_ok ‹_›).ownedWrite.ite (ht.atomicAccess.of_ok ‹_›)
    exact hs2

theorem State.StoresOk.execTas {c p dd m} (h : s.StoresOk) : OutcomeOk (execTas c p dd m s) := by
  unfold Machine.execTas
  refine h.runInstr fun ht => ?_
  split
  · exact ht.atomicAccess.of_error ‹_›
  · extract_lets old
    exact (ht.atomicAccess.of_ok ‹_›).ownedWrite.rehold

theorem State.StoresOk.execStoreBufferDrain {c} (h : s.StoresOk) : OutcomeOk (execStoreBufferDrain c s) := by
  unfold Machine.execStoreBufferDrain
  split
  · exact h
  · split
    · exact h
    · split
      · exact h.startMiss
      · extract_lets s1 s2
        have hs1 : s1.StoresOk := h.modCore
        have hs2 : s2.StoresOk := hs1.foldl fun ht => ht.performPiece
        exact hs2.flushL1.ite hs2

theorem State.StoresOk.execL1dFillComplete {c} (h : s.StoresOk) : OutcomeOk (execL1dFillComplete c s) := by
  unfold Machine.execL1dFillComplete
  extract_lets s1
  have hs1 : s1.StoresOk := by
    dsimp only [s1]
    split
    · exact h.foldl fun ht => ht.install
    · exact h.foldl fun ht => ht.install.fillFromL2
  exact hs1.modCore

theorem State.StoresOk.execLoop {c p lv n endDisp} (h : s.StoresOk) : OutcomeOk (execLoop c p lv n endDisp s) := by
  unfold Machine.execLoop
  extract_lets sh
  refine h.runInstr fun ht => ?_
  extract_lets b nxt e cnt b1
  split
  · exact ht
  · split <;> exact ht

theorem State.StoresOk.execBr {c p disp slot} (h : s.StoresOk) : OutcomeOk (execBr c p disp slot s) := by
  unfold Machine.execBr
  split
  exact h.runBranch fun ht => ht

theorem State.StoresOk.execCall {c p disp slot} (h : s.StoresOk) : OutcomeOk (execCall c p disp slot s) := by
  unfold Machine.execCall
  refine h.runBranch fun ht => ?_
  exact ht.callBody

theorem State.StoresOk.execCallr {c p an slot} (h : s.StoresOk) : OutcomeOk (execCallr c p an slot s) := by
  unfold Machine.execCallr
  refine h.runBranch fun ht => ?_
  exact ht.callBody

theorem State.StoresOk.execRet {c p slot} (h : s.StoresOk) : OutcomeOk (execRet c p slot s) := by
  unfold Machine.execRet
  refine h.runBranch fun ht => ?_
  extract_lets b k1
  split
  · exact ht
  · split
    · exact ht
    · split
      · exact (ht.locateTwo.of_snd ‹_›).accessRes
      · split
        · exact (ht.locateTwo.of_snd ‹_›).loadAt.of_stop ‹_›
        · split
          · exact ((ht.locateTwo.of_snd ‹_›).loadAt.of_ok ‹_›).loadAt.of_stop ‹_›
          · split <;> exact ((ht.locateTwo.of_snd ‹_›).loadAt.of_ok ‹_›).loadAt.of_ok ‹_›

/-! ## Messages between caches and directories (Machine/Coherence) -/

theorem State.StoresOk.execReadRequest {cache line more par} (h : s.StoresOk) : OutcomeOk (execReadRequest cache line more par s) := by
  unfold Machine.execReadRequest
  extract_lets s1
  have hs1 : s1.StoresOk := by
    dsimp only [s1]
    split
    · exact h.parityError
    · exact h
  split
  · exact hs1.sendRequest
  · exact hs1

theorem State.StoresOk.execOwnershipRequest {cache line more} (h : s.StoresOk) : OutcomeOk (execOwnershipRequest cache line more s) := by
  unfold Machine.execOwnershipRequest
  split
  · exact h.sendRequest
  · exact h

theorem State.StoresOk.execUpgradeRequest {cache line more} (h : s.StoresOk) : OutcomeOk (execUpgradeRequest cache line more s) := by
  unfold Machine.execUpgradeRequest
  extract_lets x
  split
  · exact h.sendRequest
  · exact h

theorem State.StoresOk.execSnoop {cache line more} (h : s.StoresOk) : OutcomeOk (execSnoop cache line more s) := by
  unfold Machine.execSnoop
  extract_lets x
  split
  · split
    · split
      · exact (h.takeDown ‹_›).arrive
      · exact h
    · exact h
  · split
    · exact h
    · exact h.takeSnoop.pump

theorem State.StoresOk.execHoldWindowEnd {cache line} (h : s.StoresOk) : OutcomeOk (execHoldWindowEnd cache line s) := by
  unfold Machine.execHoldWindowEnd
  split
  · exact h.endHold.letGo
  · exact h

theorem State.StoresOk.execFillRetry {cache line} (h : s.StoresOk) : OutcomeOk (execFillRetry cache line s) := by
  unfold Machine.execFillRetry
  split
  · exact h.retryL3.seekWay.getD h.retryL3
  · exact h.install

theorem State.StoresOk.execWriteback {cache line more} (h : s.StoresOk) : OutcomeOk (execWriteback cache line more s) := by
  unfold Machine.execWriteback
  extract_lets tr
  split
  · exact h.arrive
  · exact h

theorem State.StoresOk.execCleanEvictionNotice {cache line more} (h : s.StoresOk) :
    OutcomeOk (execCleanEvictionNotice cache line more s) := by
  unfold Machine.execCleanEvictionNotice
  split
  · exact h.arrive
  · exact h

theorem State.StoresOk.execUncachedRead {src addr size more} (h : s.StoresOk) : OutcomeOk (execUncachedRead src addr size more s) := by
  unfold Machine.execUncachedRead
  extract_lets a ls
  split
  · split
    · exact h
    · split
      · exact h.arrive
      · exact (h.foldl fun ht => ht.touch).same
  · exact h.same

theorem State.StoresOk.execUncachedWrite {src cls addr data more} (h : s.StoresOk) :
    OutcomeOk (execUncachedWrite src cls addr data more s) := by
  unfold Machine.execUncachedWrite
  extract_lets a dir
  split
  · split
    · exact h.foldl fun ht => ht.arrive
    · split
      · exact h
      · exact h.writeMem.foldl fun ht => ht.noteSlot
  · exact h

theorem State.StoresOk.execClean {c p m} (h : s.StoresOk) : OutcomeOk (execClean c p m s) := by
  unfold Machine.execClean
  refine h.runInstr fun ht => ?_
  exact ht.maintBody

theorem State.StoresOk.execInval {c p m} (h : s.StoresOk) : OutcomeOk (execInval c p m s) := by
  unfold Machine.execInval
  refine h.runInstr fun ht => ?_
  exact ht.maintBody

theorem State.StoresOk.execCleaninval {c p m} (h : s.StoresOk) : OutcomeOk (execCleaninval c p m s) := by
  unfold Machine.execCleaninval
  refine h.runInstr fun ht => ?_
  exact ht.maintBody

theorem State.StoresOk.execPrefetch {c p m} (h : s.StoresOk) : OutcomeOk (execPrefetch c p m s) := by
  unfold Machine.execPrefetch
  refine h.runInstr fun ht => ?_
  split
  · exact ht.startMiss
  · exact ht

/-! ## Integer instructions (Machine/Integer) -/

theorem State.StoresOk.execExt {c p dd da i} (h : s.StoresOk) : OutcomeOk (execExt c p dd da i s) := by
  unfold Machine.execExt
  refine h.runInstr fun ht => ?_
  extract_lets w
  split <;> exact ht

/-! ## The management protocol (Machine/Mgmt) -/

theorem State.StoresOk.execSessionInit {claim slot msg sig1 sig2} (h : s.StoresOk) :
    OutcomeOk (execSessionInit claim slot msg sig1 sig2 s) := by
  unfold Machine.execSessionInit
  extract_lets s'
  have hs' : s'.StoresOk := h.unresumed
  split
  · exact hs'
  · split
    · exact hs'.emitVmp
    · exact hs'.openSession.ite hs'.emitVmp.queueSlow

theorem State.StoresOk.execReadStatus {rq block} (h : s.StoresOk) : OutcomeOk (execReadStatus rq block s) := by
  unfold Machine.execReadStatus
  refine h.vmpPlain fun ht => ?_
  split
  · exact ht.sampleCounter
  · split
    · exact ht.same
    · exact ht

theorem State.StoresOk.execSubscribe {rq} (h : s.StoresOk) : OutcomeOk (execSubscribe rq s) := by
  unfold Machine.execSubscribe
  refine h.vmp (fun ht => ?_) fun ht => ht
  split
  · exact ht
  · exact ht.modSession

theorem State.StoresOk.execMgmtHeartbeatTimer (h : s.StoresOk) : OutcomeOk (execMgmtHeartbeatTimer s) := by
  unfold Machine.execMgmtHeartbeatTimer
  split
  · exact h
  · extract_lets s0 _ s1
    have hs0 : s0.StoresOk := h.sampleCounter
    have hs1 : s1.StoresOk := hs0.same
    exact hs1.foldl fun ht => ht.sendVmp

theorem State.StoresOk.execReadReg {rq addr size} (h : s.StoresOk) : OutcomeOk (execReadReg rq addr size s) := by
  unfold Machine.execReadReg
  refine h.vmpPlain fun ht => ?_
  split
  · exact ht
  · split
    · exact ht
    · split
      exact ht.regRead.of_snd ‹_›

theorem State.StoresOk.execWriteReg {rq addr data} (h : s.StoresOk) : OutcomeOk (execWriteReg rq addr data s) := by
  unfold Machine.execWriteReg
  refine h.vmpPlain fun ht => ?_
  split
  · exact ht.same
  · split
    · exact ht
    · exact ht.regWrite

theorem State.StoresOk.execImageWrite {rq offset data} (h : s.StoresOk) : OutcomeOk (execImageWrite rq offset data s) := by
  unfold Machine.execImageWrite
  refine h.vmpPlain fun ht => ?_
  split
  · exact ht
  · split
    · exact ht.same
    · exact ht

theorem State.StoresOk.execImageRead {rq shadow offset size} (h : s.StoresOk) : OutcomeOk (execImageRead rq shadow offset size s) := by
  unfold Machine.execImageRead
  refine h.vmpPlain fun ht => ?_
  split <;> exact ht

theorem State.StoresOk.execImageCtl {rq action} (h : s.StoresOk) : OutcomeOk (execImageCtl rq action s) := by
  unfold Machine.execImageCtl
  refine h.vmpPlain fun ht => ?_
  split
  · exact ht.same
  · exact ht.same
  · exact ht.same
  · exact ht.same
  · exact ht

theorem State.StoresOk.execKeyslotSet {rq slot ed ml} (h : s.StoresOk) : OutcomeOk (execKeyslotSet rq slot ed ml s) := by
  unfold Machine.execKeyslotSet
  refine h.vmpPlain fun ht => ?_
  split
  · exact ht
  · exact ht.same

theorem State.StoresOk.execMgmtkeySet {rq slot role ed ml} (h : s.StoresOk) : OutcomeOk (execMgmtkeySet rq slot role ed ml s) := by
  unfold Machine.execMgmtkeySet
  refine h.vmp (fun ht => ?_) fun ht => ht.endSessions
  split
  · exact ht
  · exact ht.same

theorem State.StoresOk.execCalRead {rq entry} (h : s.StoresOk) : OutcomeOk (execCalRead rq entry s) := by
  unfold Machine.execCalRead
  refine h.vmpPlain fun ht => ?_
  split
  · split <;> exact ht
  · exact ht

theorem State.StoresOk.execCalWrite {rq type inst stamp data} (h : s.StoresOk) : OutcomeOk (execCalWrite rq type inst stamp data s) := by
  unfold Machine.execCalWrite
  refine h.vmpPlain fun ht => ?_
  extract_lets old
  split
  · exact ht
  · exact ht.same

theorem State.StoresOk.execCabinetRead {rq epoch offset size} (h : s.StoresOk) : OutcomeOk (execCabinetRead rq epoch offset size s) := by
  unfold Machine.execCabinetRead
  refine h.vmpPlain fun ht => ?_
  split
  · exact ht
  · split
    · exact ht
    · split
      · split <;> exact ht
      · exact ht

theorem State.StoresOk.execTestHold {rq} (h : s.StoresOk) : OutcomeOk (execTestHold rq s) := by
  unfold Machine.execTestHold
  refine h.vmpPlain fun ht => ?_
  split
  · exact ht.same.setMaint
  · exact ht

theorem State.StoresOk.execTestRelease {rq} (h : s.StoresOk) : OutcomeOk (execTestRelease rq s) := by
  unfold Machine.execTestRelease
  refine h.vmp (fun ht => ?_) fun ht => ht.moduleReset
  split
  · exact ht
  · split <;> exact ht

theorem State.StoresOk.execRepair {rq op} (h : s.StoresOk) : OutcomeOk (execRepair rq op s) := by
  unfold Machine.execRepair
  refine h.vmpPlain fun ht => ?_
  split
  · exact ht
  · split
    · exact ht.repairWith ‹_›
    · exact ht

theorem State.StoresOk.execPprCommit {rq die} (h : s.StoresOk) : OutcomeOk (execPprCommit rq die s) := by
  unfold Machine.execPprCommit
  refine h.vmpPlain fun ht => ?_
  split
  · exact ht
  · exact ht.same

theorem State.StoresOk.execFwStage {rq host offset data} (h : s.StoresOk) : OutcomeOk (execFwStage rq host offset data s) := by
  unfold Machine.execFwStage
  refine h.vmpPlain fun ht => ?_
  split
  · exact ht
  · exact ht.setFirmware

theorem State.StoresOk.execFwActivate {rq host} (h : s.StoresOk) : OutcomeOk (execFwActivate rq host s) := by
  unfold Machine.execFwActivate
  refine h.vmpPlain fun ht => ?_
  extract_lets f
  split
  · exact ht.setFirmware
  · exact ht

theorem State.StoresOk.execFwCommit {rq host} (h : s.StoresOk) : OutcomeOk (execFwCommit rq host s) := by
  unfold Machine.execFwCommit
  refine h.vmpPlain fun ht => ?_
  extract_lets f
  split
  · exact ht.same
  · exact ht

theorem State.StoresOk.execAttest {rq nonce} (h : s.StoresOk) : OutcomeOk (execAttest rq nonce s) := by
  unfold Machine.execAttest
  refine h.vmpPlain fun ht => ?_
  split <;> exact ht

end

/-! # Canonical stores after every command and every step. -/

theorem State.StoresOk.runSlow {op} {s : State} (h : s.StoresOk) : OutcomeOk (State.runSlow op s) := by
  cases op with
  | sessionInit => exact h.execSessionInit
  | sessionClose => exact h.vmp (fun ht => ht) fun ht => ht.endSessions
  | subscribe => exact h.execSubscribe
  | writeReg => exact h.execWriteReg
  | imageWrite => exact h.execImageWrite
  | imageCtl => exact h.execImageCtl
  | keyslotSet => exact h.execKeyslotSet
  | mgmtkeySet => exact h.execMgmtkeySet
  | calWrite => exact h.execCalWrite
  | testHold => exact h.execTestHold
  | testRelease => exact h.execTestRelease
  | repair => exact h.execRepair
  | pprCommit => exact h.execPprCommit
  | moduleReset => exact h.vmp (fun ht => ht.askReset) fun ht => ht.hostReset.ite ht.moduleReset
  | hostReset => exact h.vmp (fun ht => ht.askHostReset) fun ht => ht.hostReset
  | fwStage => exact h.execFwStage
  | fwActivate => exact h.execFwActivate
  | fwCommit => exact h.execFwCommit
  | attest => exact h.execAttest
  | identity => exact h.vmpPlain fun ht => ht

/-- Each command with the operation that it calls; only a command that combines several has a lemma of its own. -/
theorem State.StoresOk.exec {i} {s : State} (h : s.StoresOk) : OutcomeOk (exec i s) := by
  cases i with
  | powerOn => exact h.ite h.same
  | powerLoss => exact (h.unpowered.emit.ite h.unpowered).ite h
  | inputVoltageSample => exact h.execInputVoltageSample
  | mrstN => exact h.moduleReset
  | powerWindow => exact h.execPowerWindow
  | cdThermalSample => exact h.execCdThermalSample
  | stackThermalSample => exact h.execStackThermalSample
  | pstepComplete => exact h.execPstepComplete
  | cdIdleEntry => exact h.execCdIdleEntry
  | refClockCheck => exact h.execRefClockCheck
  | startUpStep1 => exact h.execStartUpStep1
  | startUpStep2 => exact h.execStartUpStep2
  | startUpStep3 => exact h.execStartUpStep3
  | startUpStep4 => exact h.execStartUpStep4
  | activation => exact h.activate.ite h
  | moduleReset => exact h.vmp (fun ht => ht.askReset) fun ht => ht.hostReset.ite ht.moduleReset
  | hostReset => exact h.vmp (fun ht => ht.askHostReset) fun ht => ht.hostReset
  | failStopPowerDown => exact h.powerDown.ite h
  | loadWindowWrite => exact h.loadWindow
  | sictlValidate | sictlArm | sictlDisarm | sictlClear => exact h.same
  | imageValidationComplete => exact h.validated
  | flipQuiescent => exact h.execFlipQuiescent
  | flipApplyDone => exact h.flipApplied
  | flipAbandonTimeout => exact h.execFlipAbandonTimeout
  | calWrite => exact h.execCalWrite
  | acmd => exact h.execAcmd
  | qpostWrite => exact h.qpost
  | qpostFetchComplete => exact h.qpostFetched
  | loadb => exact h.execLoadb
  | mxa | mxz => exact h.runVectors
  | drain => exact h.execDrain
  | tileclr => exact h.execTileclr
  | fence => exact h.execFence
  | commandRetire => exact h.retireSeq
  | qctlRecover => exact h.recoverPart
  | qcplbaseWrite => exact h.setRing
  | tctlClrflags => exact h.clrTile
  | nop | adda | suba | shla | shra | cmpeqa | cmpltua | mova | movda | lea | movi | plen | pcnt => exact h.runLocal
  | halt => exact h.execHalt
  | mode => exact h.execMode
  | rte => exact h.execRte
  | ifence => exact h.execIfence
  | mfence => exact h.execMfence
  | mfc => exact h.execMfc
  | mtc => exact h.execMtc
  | mfb => exact h.execMfb
  | mtb => exact h.execMtb
  | trap | breakI => exact h.runInstr fun ht => ht
  | wait => exact h.execWait
  | waitWake => exact h.execWaitWake
  | interruptAccept | haziaInterruptAccept => exact h.acceptInterrupt
  | l1dFillComplete => exact h.execL1dFillComplete
  | storeBufferDrain => exact h.execStoreBufferDrain
  | loop => exact h.execLoop
  | br => exact h.execBr
  | call => exact h.execCall
  | callr => exact h.execCallr
  | jmp => exact h.runBranch fun ht => ht
  | ret => exact h.execRet
  | bz | bnz | beq | bne | blt | bge | bltu | bgeu | beqa | bltua => exact h.condBranch
  | add | sub | mul | mulh | mulhu | div | divu | rem | remu | and | or | xor | shl | shr | sar | cmpeq | cmplt | cmpltu
  | min | max | rol | ror | bext | bdep => exact h.alu3
  | addi | andi | ori | xori => exact h.aluImm
  | shli | shri | sari | roli => exact h.aluImm8
  | mov | clz | popc | bswap => exact h.alu2
  | ext => exact h.execExt
  | fadd | fsub | fmul | fma | fdiv | fsqrt | fmin | fmax | fabs | fneg => exact h.floatOp
  | fcmpeq | fcmplt | fcmple => exact h.floatCmp
  | fcvt => exact h.execFcvt
  | ld => exact h.execLd
  | lds => exact h.execLds
  | st => exact h.execSt
  | lr => exact h.execLr
  | sc => exact h.execSc
  | tas => exact h.execTas
  | vadd | vsub | vmul | vfms | vfma | vdiv | vsqrt | vmin | vmax | vand | vor | vxor | vshl | vshr | vsar | vmov => exact h.vecOp
  | vbcst | vaddi | vmuli | vmaxi | vmini => exact h.vecImm
  | vcmpeq | vcmplt | vcmple => exact h.vecCmp
  | vsel => exact h.execVsel
  | vld => exact h.execVld
  | vst => exact h.execVst
  | pand | por | pxor | pnot | pset | pclr => exact h.predOp
  | vredsum => exact h.execVredsum
  | vredmax | vredmin => exact h.vecReduce
  | vcvt => exact h.execVcvt
  | vperm => exact h.execVperm
  | vslideup | vslidedn => exact h.vecSlide
  | vaddT | vsubT | vmulT | vmaxT | vminT | vfmaT | vcvtT | vscaleT | vfmaiT | vcopyT => exact h.tensorForm
  | drainInstruction => exact h.execDrainInstruction
  | tileRd => exact h.execTileRd
  | tileWr => exact h.execTileWr
  | clean => exact h.execClean
  | inval => exact h.execInval
  | cleaninval => exact h.execCleaninval
  | prefetch => exact h.execPrefetch
  | customerInstruction => exact h.execCustomerInstruction
  | seqdbRing => exact h.ringDoorbell
  | seqrunRelease => exact h.releaseCore
  | seqrunHaltreq => exact h.requestHalt
  | sequencerHalt => exact h.halt
  | seqrunReset => exact h.resetSequencer
  | epostWrite => exact h.epostFrom
  | epostxWrite => exact h.epostx
  | engineWordFetchComplete => exact h.engineFetched
  | func => exact h.execFunc
  | sort | topk => exact h.select
  | gather | scatter | scatteradd => exact h.gatherScatter
  | setstream => exact h.execSetstream
  | getstream => exact h.execGetstream
  | freestream => exact h.execFreestream
  | fill => exact h.execFill
  | combine => exact h.execCombine
  | collsend => exact h.execCollsend
  | collrecv => exact h.execCollrecv
  | collectiveTimeout => exact h.execCollectiveTimeout
  | transpose => exact h.execTranspose
  | compress => exact h.execCompress
  | decompress => exact h.runHead fun ht => ht.decompressUnits
  | engineCommandRetire => exact h.engineRetire
  | ectlRecover => exact h.recoverEngine
  | ecplbaseWrite => exact h.setEngBase
  | randCapture => exact h.execRandCapture
  | scrub => exact h.execScrub
  | mvctlKick => exact h.kickMover
  | mvctlResume => exact h.resumeMover
  | mvctlAbort => exact h.abortMover
  | mvctlReset => exact h.resetMover
  | moverCopy | moverConvert | moverCompress | moverDecompress => exact h.moverRun
  | translation => exact h.translation
  | translationPrefetch => exact h.prefetchTranslation
  | faultBatchTimer => exact h.deliverBatch.ite h
  | fbdone => exact h.fbdone
  | withdraw => exact h.withdraw
  | withdrawAck => exact h.withdrawAck
  | withdrawTimeout => exact h.withdrawTimeout
  | readRequest => exact h.execReadRequest
  | ownershipRequest => exact h.execOwnershipRequest
  | upgradeRequest => exact h.execUpgradeRequest
  | writeback => exact h.execWriteback
  | cleanEvictionNotice => exact h.execCleanEvictionNotice
  | snoop => exact h.execSnoop
  | fillAck => exact h.fillAck.letGo
  | uncachedRead => exact h.execUncachedRead
  | uncachedWrite => exact h.execUncachedWrite
  | holdWindowEnd => exact h.execHoldWindowEnd
  | fillRetry => exact h.execFillRetry
  | dieLinkFlitReceive => exact h.execDieLinkFlitReceive
  | dramRead => exact h.execDramRead
  | dramLineWrite => exact h.execDramLineWrite
  | sealCacheEvict => exact h.execSealCacheEvict
  | sealVerifyingRead => exact h.execSealVerifyingRead
  | patrol => exact h.execPatrol
  | rowRemap => exact h.remapRow
  | readseal => exact h.readSeal
  | verify => exact h.sealVerify
  | listpoison => exact h.listPoison
  | reseal => exact h.reseal
  | move => exact h.startMove
  | pageMoveComplete => exact h.execPageMoveComplete
  | retqRead => exact h.execRetqRead
  | mcack => exact h.mcAck
  | flitReceive => exact h.execFlitReceive
  | collFlit => exact h.execCollFlit
  | linkctlNack => exact h.execLinkctlNack
  | fecAlignmentLoss | retrainTimeout => exact h.portDown.ite h
  | portTrainingComplete => exact h.trained
  | nomatchTimeout => exact h.execNomatchTimeout
  | bridlePairing => exact h.execBridlePairing
  | bridlePairingTimer => exact h.sendPairing.pairFails.ite h.sendPairing.tryPair
  | bridleSlotData => exact h.execBridleSlotData
  | bridleManifest => exact h.execBridleManifest
  | bridleEndOfStream => exact h.execBridleEndOfStream
  | stop => exact h.execStop
  | tctlStop => exact h.injectStop
  | tctlNote => exact h.raiseFault
  | flipArrive => exact h.receiveUp fun ht => ht.same.ite ht.same.settleFlip
  | flipOpen => exact h.execFlipOpen
  | flipComplete => exact h.receiveDown fun ht => ht.passOn.closeFlip.flipCompletes
  | flipAbandon => exact h.receiveDown fun ht => ht.passOn.closeFlip.flipAbandoned
  | tbar => exact h.arriveBarrier.takeHeldArrivals.ite h
  | barrierArrive => exact h.receiveUp fun ht => ht.arriveBarrier.takeHeldArrivals
  | barrierComplete => exact h.receiveDown fun ht => ht.passOn.barrierDone.takeHeldArrivals
  | tredctl => exact h.contribute.ite h
  | reduceUp => exact h.receiveUp fun ht => ht.contribute
  | reduceResult => exact h.execReduceResult
  | noticeFault => exact h.receiveUp fun ht => ht.faultUp
  | noticeThermalSlow | noticeClear => exact h.receiveToken fun ht => ht.passOn.setSlow.deliverNotice
  | heartbeat => exact h.execHeartbeat
  | tetherHeartbeatTimer => exact h.execTetherHeartbeatTimer
  | heartbeatLost => exact h.execHeartbeatLost
  | tnotqRead => exact h.execTnotqRead
  | snapctlArrive => exact h.arriveCut
  | snapshotCleanComplete => exact h.execSnapshotCleanComplete
  | demandCopyComplete => exact h.granuleCopied.ite h
  | backgroundCopy => exact h.execBackgroundCopy
  | commitArrive => exact h.execCommitArrive
  | snapctlDrain => exact h.askDrain
  | cabinetDrainTimer => exact h.modSnap.ite h
  | cabinetDrainComplete => exact h.execCabinetDrainComplete
  | snapctlRollback => exact h.rollBack
  | rollbackComplete => exact h.execRollbackComplete
  | snapctlResume => exact h.resumeRun
  | snapctlSendward => exact h.sendWard
  | takeover => exact h.writeTakeover
  | restoreComplete => exact h.execRestoreComplete
  | hicSourceEvent => exact h.ite h.hicSource
  | hirteWrite => exact h.writeHirte
  | hipi => exact h.writeHipi
  | pcieInboundRequest => exact h.execPcieInboundRequest
  | pcieMsi => exact h.ite (h.inboundFails.emit.ite h.takeMsi)
  | pcieCompletion => exact h.answerPcie
  | pcieCompletionTimeout => exact h.same.answerPcie.ite h
  | pcieLinkEvent => exact h.execPcieLinkEvent
  | sessionInit => exact h.execSessionInit
  | sessionClose => exact h.vmp (fun ht => ht) fun ht => ht.endSessions
  | sessionIdleTimeout => exact h.endSessions
  | readStatus => exact h.execReadStatus
  | readReg => exact h.execReadReg
  | writeReg => exact h.execWriteReg
  | imageWrite => exact h.execImageWrite
  | imageRead => exact h.execImageRead
  | keyslotSet => exact h.execKeyslotSet
  | mgmtkeySet => exact h.execMgmtkeySet
  | calRead => exact h.execCalRead
  | cabinetRead => exact h.execCabinetRead
  | testHold => exact h.execTestHold
  | testRelease => exact h.execTestRelease
  | repair => exact h.execRepair
  | pprCommit => exact h.execPprCommit
  | fwStage => exact h.execFwStage
  | fwActivate => exact h.execFwActivate
  | fwCommit => exact h.execFwCommit
  | attest => exact h.execAttest
  | identity => exact h.vmpPlain fun ht => ht
  | subscribe => exact h.execSubscribe
  | mgmtHeartbeatTimer => exact h.execMgmtHeartbeatTimer
  | registerWrite => exact h.regWrite.ite h
  | imageCtl => exact h.execImageCtl
  | registerReadClear => exact h.execRegisterReadClear
  | reservedOpcode | instructionFetchFault => exact h.trapHere.ite h
  | tetherBlockLock => exact h.execTetherBlockLock
  | regulatorFault => exact h.report.ite h
  | sealEngineCommandComplete => exact h.execSealEngineCommandComplete

/-- A step takes the front of a queue off, which no store sees, and executes it; with nothing queued it lets the Tether go on. -/
theorem State.StoresOk.step {s : State} (h : s.StoresOk) : OutcomeOk (step s) := by
  unfold Machine.step
  split
  · split
    · exact h.same.runSlow
    · exact h.idle
  · exact h.same.exec

/-- Settles O56: the invariant goes through every operation that a step is made of, one lemma for each. -/
theorem stepKeepsStores : Obligations.StepKeepsStores :=
  fun _ _ h e => h.step.of_next e

end Sys2Proof.Machine
end

section
/-! PROOFS. Array commands (05_array_commands): how a command is carried on, how it ends (O40). -/

namespace Sys2Proof.Machine

section
variable {s t : State} {part p : PartId} {c : Cmd}

/-! ## Steps in order -/

theorem countFrom_eq_range' (a n : Nat) : countFrom a n = List.range' a n := by
  induction n generalizing a with
  | zero => rfl
  | succ n ih => rw [countFrom, ih, List.range'_succ]

/-- The steps from `a` on to the end `b`, cut at `n`: those before it, it, and those behind it. -/
theorem countFrom_cut {a n b : Nat} (han : a ≤ n) (hnb : n < b) :
    countFrom a (b - a) = countFrom a (n - a) ++ n :: countFrom (n + 1) (b - (n + 1)) := by
  simp only [countFrom_eq_range', ← List.range'_succ]
  rw [← Nat.add_sub_of_le han, Nat.add_sub_cancel_left, List.range'_append_1]
  congr 1
  omega

section
variable {f g : State → Nat → Except (CmdStop × State) State} {is js : List Nat}

/-- Steps that all succeed, and then others. -/
theorem carry_append (h : carry f is s = (t, none)) : carry f (is ++ js) s = carry f js t := by
  induction is generalizing s with
  | nil => cases h; rfl
  | cons i is ih =>
    rw [carry] at h
    rw [List.cons_append, carry]
    cases hi : f s i with
    | ok u => simp only [hi] at h ⊢; exact ih h
    | error x => simp [hi] at h

/-- Only what a step does at the places carried on counts. -/
theorem carry_congr (h : ∀ i ∈ is, ∀ u, f u i = g u i) (s : State) : carry f is s = carry g is s := by
  induction is generalizing s with
  | nil => rfl
  | cons i is ih =>
    rw [carry, carry, h i List.mem_cons_self]
    cases g s i with
    | ok u => exact ih (fun j hj => h j (List.mem_cons_of_mem _ hj)) u
    | error x => rfl

/-- Steps that all succeed before `n`, with an error at `n`: they stop there, and the error changes no state. -/
theorem carry_error_at {a b n : Nat} {why : CmdStop} (han : a ≤ n) (hnb : n < b) (h : carry f (countFrom a (n - a)) s = (t, none)) :
    carry (fun u i => if n = i then .error (why, u) else f u i) (countFrom a (b - a)) s = (t, some (n, why)) := by
  have hbefore : carry (fun u i => if n = i then .error (why, u) else f u i) (countFrom a (n - a)) s = (t, none) := by
    rw [← h]
    refine carry_congr (fun i hi u => if_neg ?_) s
    rw [countFrom_eq_range', List.mem_range'_1] at hi
    omega
  rw [countFrom_cut han hnb, carry_append hbefore, carry, if_pos rfl]

/-! ## Carrying a command on (05 R137 to R139) -/

/-- A command whose steps all succeed has issued. -/
theorem State.runCmd_issued {total : Nat} (h : carry f (countFrom c.count (total - c.count)) s = (t, none)) :
    s.runCmd p c total none f
      = t.setQuad p ((t.quad p).modCmd c.order (fun x => { x with phase := .issued, count := total })) := by
  simp only [State.runCmd, h]

/-- An error of the hardware at a step that the command reaches stops it there and its partition with it. -/
theorem State.runCmd_error {total n : Nat} {e : ArrayError} (hfrom : c.count ≤ n) (hto : n < total)
    (h : carry f (countFrom c.count (n - c.count)) s = (t, none)) :
    s.runCmd p c total (some (n, e)) f
      = (t.setQuad p ((t.quad p).modCmd c.order (fun x => { x with phase := .started, count := n }))).partFails p (arrayCause e) none := by
  simp only [State.runCmd, carry_error_at hfrom hto h]

/-- The claim on a command that is carried on, from what its instruction does where it is ready. -/
theorem arrayRuns_of_runCmd {ins : Option (Nat × ArrayError) → Instr} {op total : Nat} {counted : State → State}
    (h : s.ready part op = some c → ∀ bad, exec (ins bad) s = .next (counted (s.runCmd part c total bad f))) :
    ArrayRuns s part c ins op total f counted := by
  unfold ArrayRuns
  intro stands hready _ t
  constructor
  · intro hall
    rw [h hready, State.runCmd_issued hall]
    rfl
  · intro n e hfrom hto hbefore
    rw [h hready, State.runCmd_error hfrom hto hbefore]
    rfl

end

section
variable (bad : Option (Nat × ArrayError))

theorem exec_loadb_ready (h : s.ready part 1 = some c) :
    exec (.loadb part bad) s = .next (s.runCmd part c (fld c.words 2 32 7) bad (State.loadRow part c.words)) := by
  change execLoadb part bad s = _
  simp only [execLoadb, h, next]

/-- A vector command that is ready is carried on, and its freezes are counted. -/
theorem State.runVectors_ready {op : Nat} (h : s.ready part op = some c) :
    s.runVectors part op bad
      = (s.runCmd part c (fld c.words 2 32 7) bad (State.vecStep part c.words)).countFreezes part (fld c.words 2 32 7) c.order := by
  rw [State.runVectors, h]

theorem exec_mxa (s : State) : exec (.mxa part bad) s = .next (s.runVectors part 2 bad) := rfl
theorem exec_mxz (s : State) : exec (.mxz part bad) s = .next (s.runVectors part 3 bad) := rfl

theorem exec_drain_ready (h : s.ready part 4 = some c) (hstatus : c.status = 0) :
    exec (.drain part bad) s = .next (s.runCmd part c (dMcnt c.words) bad (State.drainStep part c.words)) := by
  change execDrain part bad s = _
  simp [execDrain, h, hstatus, next]

end

/-! ## Commands that end at once, and retirement (05 R140, R145, R146) -/

theorem exec_tileclr_ready (h : s.ready part 5 = some c) :
    exec (.tileclr part) s = .next
      ((s.setTile (clusterTile part (cTile c.words 0)) { Tile.reset with fmt := BitVec.ofNat 8 (cFmt c.words) }).setQuad part
        ((s.quad part).modCmd c.order (fun x => { x with phase := .issued }))) := by
  change execTileclr part s = _
  rw [execTileclr, h]
  rfl

theorem exec_fence_ready (h : s.ready part 6 = some c) : exec (.fence part) s = .next (s.retire part c) := by
  change execFence part s = _
  simp only [execFence, h, next]

theorem exec_commandRetire (s : State) (n : BitVec 16) : exec (.commandRetire part n) s = .next (s.retireSeq part n) := rfl

/-- A command that has issued retires where every command before it in the queue has ended. -/
theorem State.retireSeq_issued {before after : List Cmd} (hruns : s.partRuns part = true) (hphase : c.phase = .issued)
    (hqueue : (s.quad part).queue = before ++ c :: after)
    (hbefore : ∀ x ∈ before, x.phase = .ended ∧ x.seq ≠ c.seq ∧ x.order ≠ c.order) :
    s.retireSeq part c.seq = s.retire part c := by
  have hfind : (s.quad part).queue.find? (fun x => decide (x.seq = c.seq) && decide (x.phase = .issued)) = some c := by
    have hnone : before.find? (fun x => decide (x.seq = c.seq) && decide (x.phase = .issued)) = none := by
      rw [List.find?_eq_none]
      intro x hx
      obtain ⟨-, hseq, -⟩ := hbefore x hx
      simp [hseq]
    rw [hqueue, List.find?_append, hnone]
    simp [hphase]
  have hahead : (s.quad part).queue.takeWhile (fun x => decide (x.order ≠ c.order)) = before := by
    have hother : ∀ x ∈ before, decide (x.order ≠ c.order) = true := by
      intro x hx
      obtain ⟨-, -, horder⟩ := hbefore x hx
      exact decide_eq_true horder
    rw [hqueue, List.takeWhile_append_of_pos hother]
    simp
  have hended : before.any (fun x => decide (x.phase ≠ .ended) && (retireClass (cOp c.words)).contains (cOp x.words)) = false := by
    rw [List.any_eq_false]
    intro x hx
    obtain ⟨hend, -, -⟩ := hbefore x hx
    simp [hend]
  simp only [State.retireSeq, hruns, hfind, hahead, hended, Bool.not_true, Bool.false_eq_true, if_false]

end

/-- Settles O40: a command that is ready is carried on by `runCmd`, which ends it or stops it at the step that an error names; the
other clauses are the branches of TILECLR, FENCE and retirement. -/
theorem arrayCommandsIssue : Obligations.ArrayCommandsIssue := by
  unfold Obligations.ArrayCommandsIssue
  intro s part c runs
  refine ⟨?loadb, ?mxa, ?mxz, ?drain, ?tileclr, exec_fence_ready, ?retire⟩
  case loadb => exact arrayRuns_of_runCmd fun h bad => exec_loadb_ready bad h
  case mxa =>
    refine arrayRuns_of_runCmd fun h bad => ?_
    rw [exec_mxa, State.runVectors_ready bad h]
  case mxz =>
    refine arrayRuns_of_runCmd fun h bad => ?_
    rw [exec_mxz, State.runVectors_ready bad h]
  case drain => exact fun hstatus => arrayRuns_of_runCmd fun h bad => exec_drain_ready bad h hstatus
  case tileclr => exact exec_tileclr_ready
  case retire =>
    intro before after hruns hphase hqueue hbefore
    rw [exec_commandRetire, State.retireSeq_issued hruns hphase hqueue hbefore]

end Sys2Proof.Machine
end

section
/-! PROOFS. Posting array commands, the completion ring, tile flags and recovery (O39). -/

namespace Sys2Proof.Machine

section
variable {s : State} {p : PartId} {ws : List Nat}

@[simp] theorem State.setQuad_acc_quad_same (s : State) (p : PartId) (q : Quad) : (s.setQuad p q).quad p = q := mget_mset_same _ _ _ _

/-! ## Offering a word (05 R127, R134) -/

theorem State.offer_accepted {ctx : Option (BitVec 6)} {badEntry : Bool} (h : s.acceptCheck p ctx badEntry ws = none) :
    s.offer p ctx badEntry ws = (0, (s.quad p).nextSeq, s.enqueue p ws) := by
  rw [State.offer, h]

theorem State.offer_refused {ctx : Option (BitVec 6)} {badEntry : Bool} {code : Byte} (h : s.acceptCheck p ctx badEntry ws = some code) :
    s.offer p ctx badEntry ws = (code, 0, s.rejectAt p code (BitVec.ofNat 8 (cOp ws)) (BitVec.ofNat 16 (cTag ws))) := by
  rw [State.offer, h]

/-- The port that the data register of `ACMD` names. -/
def acmdPort (d : Fin 4) (cl : Fin 24) (x : Nat) : PartId := { cd := d, cl := cl, arr := Fin.ofNat 4 (x / 4), q := Fin.ofNat 4 x }

theorem acmdPort_eq (d : Fin 4) (cl : Fin 24) (x : Nat) :
    acmdPort d cl x = { cd := d, cl := cl, arr := Fin.ofNat 4 (bits x 2 2), q := Fin.ofNat 4 (bits x 0 2) } := by
  simp [acmdPort, bits, PartId.mk.injEq, Fin.ext_iff]

/-- With an empty store buffer `ACMD` completes with what the port answers. -/
theorem acmdBody_offered {d : Fin 4} {cl : Fin 24} {vs dq : Fin 32} {k : Core} {code : Byte} {n : BitVec 16} {t : State}
    (hbuf : k.sbuf = [])
    (h : (s.wakeCd d).offer (acmdPort d cl (k.getD dq).toNat) (some (s.cctx (clusterKey d cl))) (decide ((k.getD dq).toNat / 16 ≠ 0))
      (wordsOf (k.getV vs).toNat) = (code, n, t)) :
    acmdBody d cl vs dq s k = .done t (k.setD dq (BitVec.ofNat 64 (code.toNat + 256 * n.toNat))) .seq := by
  rw [acmdPort_eq] at h
  simp only [acmdBody, hbuf, ne_eq, not_true_eq_false, if_false, h]

/-- `ACMD` on a sequencer that runs it. -/
theorem exec_acmd_offered {d : Fin 4} {cl : Fin 24} {pfx : Pfx} {vs dq : Fin 32} {code : Byte} {n : BitVec 16} {w : Nat} {t : State}
    (hruns : Runs s (.sycen d cl) pfx { bytes := 3, d := [dq], sycenOnly := true }) (hbuf : (s.seen (.sycen d cl)).sbuf = [])
    (h : (s.wakeCd d).offer (acmdPort d cl ((s.seen (.sycen d cl)).getD dq).toNat) (some (s.cctx (clusterKey d cl)))
      (decide (((s.seen (.sycen d cl)).getD dq).toNat / 16 ≠ 0)) (wordsOf ((s.seen (.sycen d cl)).getV vs).toNat) = (code, n, t))
    (hw : code.toNat + 256 * n.toNat = w) :
    exec (.acmd (.sycen d cl) pfx vs dq) s = .next (s.ended t (.sycen d cl) pfx { bytes := 3, d := [dq], sycenOnly := true }
      ((s.seen (.sycen d cl)).setD dq (BitVec.ofNat 64 w)) .seq) :=
  hw ▸ congrArg Host.Outcome.next (runInstr_done hruns (acmdBody_offered hbuf h))

/-! ## Posts by reference (05 R128) -/

theorem exec_qpostWrite (s : State) (value : Word) : exec (.qpostWrite p value) s = .next (s.qpost p value) := rfl

theorem exec_qpostFetchComplete (s : State) : exec (.qpostFetchComplete p) s = .next (s.qpostFetched p) := rfl

/-- With fewer than four words being fetched no write waits on the register path. -/
theorem State.promotePost_unchanged (h : (s.quad p).fetching.length < 4) (fuel : Nat) : s.promotePost p fuel = s := by
  cases fuel with
  | zero => rfl
  | succ n => exact if_pos h

section
variable {va : Word} {rest : List Word} {s2 : State}

theorem State.qpostFetched_failed (hf : (s.quad p).fetching = va :: rest) (hlen : rest.length < 4)
    (hfetch : (s.setQuad p { s.quad p with fetching := rest }).fetchCommand p.cd (s.quad p).ctx va.toNat = (none, s2))
    (hrest : (s2.quad p).fetching = rest) : s.qpostFetched p = s2.rejectAt p 0x07 0 0 := by
  simp only [State.qpostFetched, hf, hfetch]
  refine State.promotePost_unchanged ?_ _
  rw [State.rejectAt, State.setQuad_acc_quad_same]
  rwa [hrest]

theorem State.qpostFetched_accepted (hf : (s.quad p).fetching = va :: rest) (hlen : rest.length < 4)
    (hfetch : (s.setQuad p { s.quad p with fetching := rest }).fetchCommand p.cd (s.quad p).ctx va.toNat = (some ws, s2))
    (hchk : s2.acceptCheck p none false ws = none) (hrest : (s2.quad p).fetching = rest) :
    s.qpostFetched p = s2.enqueue p ws := by
  simp only [State.qpostFetched, hf, hfetch, State.offer_accepted hchk]
  refine State.promotePost_unchanged ?_ _
  rw [if_pos trivial, State.enqueue, State.bump_acc_quad, State.setQuad_acc_quad_same]
  rwa [hrest]

end

/-! ## The ring, the tile flags and recovery (05 R133, R148 to R150; 03 R96) -/

theorem exec_qcplbaseWrite (s : State) (value : Word) : exec (.qcplbaseWrite p value) s = .next (s.setRing p value) := rfl

theorem exec_tctlClrflags (s : State) (id : TileId) : exec (.tctlClrflags id) s = .next (s.clrTile id) := rfl

theorem exec_qctlRecover (s : State) : exec (.qctlRecover p) s = .next (s.recoverPart p) := rfl

/-- Bits 63:56 of a word are all that is above bit 55. -/
theorem bits_word_top (w : Word) : bits w.toNat 56 8 = w.toNat / 2 ^ 56 :=
  Nat.mod_eq_of_lt (by have := w.isLt; omega)

theorem State.setRing_eq (s : State) (p : PartId) (w : Word) :
    s.setRing p w = if s.lead p = p ∧ (s.quad p).queue = [] ∧ (w.toNat / 2 ^ 56 = 0 ∨ w.toNat / 2 ^ 56 = 255) then
      s.setQuad p { s.quad p with ring := ringWritten (s.quad p) w (w.getLsbD 0 && !(s.quad p).ring.enable) } else s := by
  have hrefused : s.lead p ≠ p ∨ (s.quad p).queue ≠ [] ∨ (w.toNat / 2 ^ 56 ≠ 0 ∧ w.toNat / 2 ^ 56 ≠ 255)
      ↔ ¬(s.lead p = p ∧ (s.quad p).queue = [] ∧ (w.toNat / 2 ^ 56 = 0 ∨ w.toNat / 2 ^ 56 = 255)) := by
    simp only [Classical.not_and_iff_not_or_not, not_or, ne_eq]
  simp only [State.setRing, bits_word_top, hrefused, ite_not]
  rfl

/-- A partition that is not in FAULT, or whose records are not acknowledged, ignores RECOVER. -/
theorem State.recoverPart_ignored
    (h : ¬((s.quad (s.lead p)).bound = true ∧ (s.quad (s.lead p)).fault = true ∧ s.frozen = false ∧ s.partAcked (s.lead p) = true)) :
    s.recoverPart p = s := by
  refine if_pos (Classical.byContradiction fun hdue => h ?_)
  simpa only [Bool.not_eq_true, Bool.or_eq_false_iff, Bool.not_eq_false', and_assoc] using hdue

/-- RECOVER where it is due: the lead is emptied, the tiles of its commands not retired are poisoned, and the reports come in order:
those still due, then the commands that had issued, then the others. -/
theorem State.recoverPart_recovers
    (h : (s.quad (s.lead p)).bound = true ∧ (s.quad (s.lead p)).fault = true ∧ s.frozen = false ∧ s.partAcked (s.lead p) = true) :
    s.recoverPart p =
      let l := s.lead p
      let live := (s.quad l).queue.filter (fun c => decide (c.phase ≠ .ended))
      let emptied := (s.setQuad l (recoveredQuad (s.quad l))).unparkPart l
      let poisoned := (live.flatMap (fun c => cTiles c.words)).foldl (fun t n => t.poisonTile l n) emptied
      (live.filter (fun c => decide (c.phase = .waiting))).foldl (fun t c => t.reportCmd l { c with status := 0x10 })
        ((live.filter (fun c => decide (c.phase ≠ .waiting))).foldl (fun t c => t.reportCmd l { c with status := 0x11 })
          (poisoned.flushRecords l)) := by
  obtain ⟨hbound, hfault, hfrozen, hacked⟩ := h
  refine (if_neg (by simp [hbound, hfault, hfrozen, hacked])).trans ?_
  simp only [List.foldl_append, List.foldl_map]
  rfl

end

/-- Settles O39, a case for each command: what `ACMD` and a post do by the checks at acceptance, the fetch by what it brings, and
`QCPLBASE`, CLRFLAGS and RECOVER by their conditions. -/
theorem arrayPartitions : Obligations.ArrayPartitions := by
  unfold Obligations.ArrayPartitions
  refine ⟨fun s => ⟨?acmd, ?post, ?fetch⟩, fun s part value id => ⟨?ring, ?clear, ?recover⟩⟩
  case acmd =>
    intro d cl pfx vs dq c sh k x part ws s1 q chk fin hruns hbuf
    constructor
    · exact fun hchk => exec_acmd_offered hruns hbuf (State.offer_accepted hchk) (Nat.zero_add _)
    · exact fun code hchk => exec_acmd_offered hruns hbuf (State.offer_refused hchk) (Nat.add_zero _)
  case post =>
    intro part value s1 q
    simp only [exec_qpostWrite, State.qpost, q, s1]
    by_cases hfull : 4 ≤ ((s.wakeCd part.cd).quad part).fetching.length
    · simp only [if_pos hfull]
    · simp only [if_neg hfull]
      cases (s.wakeCd part.cd).check1 part none <;> rfl
  case fetch =>
    intro part va rest hf hlen s1
    constructor
    · intro s2 hfetch hrest
      rw [exec_qpostFetchComplete, State.qpostFetched_failed hf hlen hfetch hrest]
      rfl
    · intro s2 ws hfetch hchk hrest
      rw [exec_qpostFetchComplete, State.qpostFetched_accepted hf hlen hfetch hchk hrest]
  case ring =>
    rw [exec_qcplbaseWrite, State.setRing_eq]
  case clear => exact exec_tctlClrflags s id
  case recover =>
    rw [exec_qctlRecover]
    split
    next h => rw [State.recoverPart_recovers h]
    next h => rw [State.recoverPart_ignored h]

end Sys2Proof.Machine
end

section
/-! PROOFS. The registers of a core around a waiting load write, and how a load of located pieces is answered (06 R162, R163; 08 R206,
R216; O58). -/

namespace Sys2Proof.Machine

section
variable (k : Core) (l : Level)

/-! ## Registers by bank, and the load write that waits (06 R159, R162) -/

@[simp] theorem Core.bank_setBank_same (b : Bank) : (k.setBank l b).bank l = b := by cases l <;> rfl

@[simp] theorem Core.getDL_setDL_same (n : Nat) (w : Word) : (k.setDL l n w).getDL l n = w := by
  simp only [Core.getDL, Core.setDL, Core.bank_setBank_same, mget_mset_same]

theorem Core.getDL_setDL_other {n j : Nat} (w : Word) (h : j ≠ n) : (k.setDL l n w).getDL l j = k.getDL l j := by
  simp only [Core.getDL, Core.setDL, Core.bank_setBank_same, mget_mset_other 0 _ n j w h]

/-- A native instruction sees every register as it is. -/
@[simp] theorem Core.view_native_getDL (j : Nat) : (k.view false).getDL l j = k.getDL l j := by cases l <;> rfl

/-- An interlocked instruction sees the registers with the waiting load write performed. -/
theorem Core.view_interlocked_getDL (j : Nat) : (k.view true).getDL l j = k.settle.getDL l j := by cases l <;> rfl

/-- What an instruction sees holds no waiting load write: it has been performed, or lands with the results of the instruction. -/
theorem Core.view_pend (interlocked : Bool) : (k.view interlocked).pend = none := by
  cases interlocked
  case false => rfl
  case true =>
    change k.settle.pend = none
    unfold Core.settle
    split
    next => rfl
    next h => exact h

variable {k l} {n : Nat} {w : Word}

/-- With the waiting write of a D register performed, the registers are those of the write. -/
theorem Core.settle_getDL (h : k.pend = some (.d l n w)) (l' : Level) (j : Nat) :
    k.settle.getDL l' j = (k.setDL l n w).getDL l' j := by
  rw [Core.settle, h]
  cases l' <;> rfl

end

/-! ## The kinds of memory (06 R171) -/

theorem PKind.device_of_normal {x : PKind} (h : x.normal = true) : x.device = false := by
  revert h
  cases x <;> simp [PKind.normal, PKind.device]

theorem PKind.sram_of_normal {x : PKind} (h : x.normal = true) : x.sram = false := by
  revert h
  cases x <;> simp [PKind.normal, PKind.sram]

section
variable {s s1 : State} {c : CoreId} {k : Core} {va : Word} {n : AccessNeeds} {nt : Bool} {l : List (Nat × Nat)} {a m : Nat} {e : StoreEntry}

theorem State.isDevice_of_isNormal (h : s.isNormal l = true) : s.isDevice l = false := by
  rw [State.isNormal, List.all_eq_true] at h
  rw [State.isDevice, List.any_eq_false]
  intro x hx
  simp [PKind.device_of_normal (h x hx)]

theorem State.isNormal_singleton (h : (s.kindAt a).normal = true) : s.isNormal [(a, m)] = true := by
  simp [State.isNormal, h]

/-! ## What the store buffer says to a load (08 R216) -/

theorem forwardFrom_untouched {sbuf : List StoreEntry} (h : ∀ e ∈ sbuf, l.any (fun x => e.touches x.1 x.2) = false) :
    forwardFrom sbuf l = .none := by
  have hhit : sbuf.filter (fun e => l.any (fun x => e.touches x.1 x.2)) = [] := by
    rw [List.filter_eq_nil_iff]
    intro e he
    simp [h e he]
  simp only [forwardFrom, hhit, List.getLast?_nil]

theorem forwardFrom_touched (h : l.any (fun x => e.touches x.1 x.2) = true) :
    forwardFrom [e] l
      = if l.all (fun x => e.covers x.1 x.2) = true then .data (l.flatMap (fun x => e.slice x.1 x.2)) else .wait := by
  have hhit : [e].filter (fun e => l.any (fun x => e.touches x.1 x.2)) = [e] := by simp [h]
  simp only [forwardFrom, hhit, List.getLast?_singleton, List.all_cons, List.all_nil, Bool.and_true]

/-! ## A load of located pieces (08 R206) -/

/-- With no miss being served, lines that the cache holds stand in the way of no load. -/
theorem State.missFor_held {lines : List Nat} (hserved : s.missServed c = false) (hheld : ∀ ln ∈ lines, s.holdsLine c ln = true) :
    s.missFor c lines false = none := by
  have hline : s.servedLine c = none := by simpa [State.missServed] using hserved
  have hfind : lines.find? (fun ln => !(s.line (.l1d c) ln).allows false) = none := by
    rw [List.find?_eq_none]
    intro ln hln
    have hst : (s.line (.l1d c) ln).st ≠ .i := by simpa [State.holdsLine] using hheld ln hln
    simp [CacheLine.allows, hst]
  rw [State.missFor, hline]
  split
  · rfl
  · exact hfind

/-- A load that hits in the L1 D reads memory and uses its lines. -/
theorem State.cacheLoad_hit (hkind : (s.kindAt a).normal = true) (hheld : ∀ ln ∈ linesOf a m, s.holdsLine c ln = true)
    (hserved : s.missServed c = false) (hpoison : s.readPoison a m = false) :
    s.cacheLoad c [(a, m)] va nt
      = .ok ((linesOf a m).foldl (fun (t : State) ln => t.touch (.l1d c) ln) s) (s.readMem a m) := by
  have hlines : s.normalLines [(a, m)] = linesOf a m := by simp [State.normalLines, hkind]
  simp only [State.cacheLoad, hlines, State.missFor_held hserved hheld, badPiece, hpoison, State.readPieces, List.flatMap_cons,
    List.flatMap_nil, List.append_nil, Bool.not_false, if_true]

theorem State.loadAt_untouched (hnormal : s.isNormal l = true) (h : forwardFrom k.sbuf l = .none) :
    s.loadAt c k l va nt = s.cacheLoad c l va nt := by
  have hsram : s.windowBusy k.sbuf l = false := by
    rw [State.isNormal, List.all_eq_true] at hnormal
    rw [State.windowBusy, Bool.and_eq_false_iff]
    left
    rw [List.any_eq_false]
    intro x hx
    simp [PKind.sram_of_normal (hnormal x hx)]
  simp only [State.loadAt, State.isDevice_of_isNormal hnormal, h, hsram, Bool.false_eq_true, if_false]

theorem State.loadAt_forwarded {bytes : List Byte} (hnormal : s.isNormal l = true) (h : forwardFrom k.sbuf l = .data bytes) :
    s.loadAt c k l va nt = .ok s bytes := by
  simp only [State.loadAt, State.isDevice_of_isNormal hnormal, h, Bool.false_eq_true, if_false]

theorem State.loadAt_waits (hnormal : s.isNormal l = true) (h : forwardFrom k.sbuf l = .wait) :
    s.loadAt c k l va nt = .stop (.waits s .storeBuffer) := by
  simp only [State.loadAt, State.isDevice_of_isNormal hnormal, h, Bool.false_eq_true, if_false]

theorem State.coreLoad_located (h : s.locate c k va n = (.ok l, s1)) : s.coreLoad c k va n nt = s1.loadAt c k l va nt := by
  rw [State.coreLoad, h]

end

/-- Settles O58: the load delay by what an instruction sees of a waiting write, the source of a load by what the store buffer says to
it. -/
theorem loadDelayAndSource : Obligations.LoadDelayAndSource := by
  unfold Obligations.LoadDelayAndSource
  constructor
  · intro k l n w v hpend
    refine ⟨?interlocked, k.view_native_getDL l n.val, ?others, ?lands, k.view_pend true, k.view_pend false⟩
    case interlocked => rw [Core.view_interlocked_getDL, Core.settle_getDL hpend, Core.getDL_setDL_same]
    case others =>
      intro j hj
      rw [Core.view_interlocked_getDL, Core.settle_getDL hpend, Core.getDL_setDL_other k l w hj]
    case lands =>
      have hold : k.oldLoad false = some (.d l n.val w) := hpend
      rw [hold]
      exact Core.getDL_setDL_same _ l n.val w
  · intro c k va n s s1 a m l e nt
    constructor
    · intro hloc hkind hbuf hheld hserved hpoison
      have hnone : forwardFrom k.sbuf [(a, m)] = .none := forwardFrom_untouched fun x hx => by simp [hbuf x hx]
      rw [State.coreLoad_located hloc, State.loadAt_untouched (State.isNormal_singleton hkind) hnone,
        State.cacheLoad_hit hkind hheld hserved hpoison]
    · intro hloc hnormal hbuf htouch
      have hfwd := forwardFrom_touched htouch
      rw [← hbuf] at hfwd
      rw [State.coreLoad_located hloc]
      constructor
      · intro hcover
        rw [if_pos hcover] at hfwd
        exact State.loadAt_forwarded hnormal hfwd
      · intro hpart
        rw [if_neg (by simp [hpart])] at hfwd
        exact State.loadAt_waits hnormal hfwd

end Sys2Proof.Machine
end

section
/-! PROOFS. Scalar floating point (06 R452; O18) and the plain system instructions (06 R161, R165, R179; 08 R217, R219; O19). -/

namespace Sys2Proof.Machine

section
variable {i : Instr} {s : State} {c : CoreId} {p : Pfx} {sh : Shape}

/-! ## Instructions that change their own core alone -/

theorem completes_of_runLocal {f : Core → Core} {spec : Core → Core → Prop} (h : ∀ s, exec i s = next (s.runLocal c p sh f))
    (hf : ∀ k, spec k (f k)) : Completes i c p sh spec :=
  fun s hr => ⟨f (s.seen c), hf _, (h s).trans (congrArg next (runLocal_completed hr))⟩

theorem givesD_of_runLocal {dd : Fin 32} {w : Core → Word} {spec : Core → Word → Prop}
    (h : ∀ s, exec i s = next (s.runLocal c p sh (fun k => k.setD dd (w k)))) (hw : ∀ k, spec k (w k)) : GivesD i c p sh dd spec :=
  completes_of_runLocal h fun k => ⟨w k, hw k, rfl⟩

/-! ## Scalar floating point -/

/-- Collecting no flag changes nothing. -/
@[simp] theorem Core.flag_none (k : Core) : k.flag .none = k := by simp [Core.flag, Flg.none]

/-- What a scalar floating-point operation of the values `xs` leaves in its core: its flags collected, its encoding in the destination. -/
def floatResult (p : Pfx) (dd : Fin 32) (k : Core) (x : FVal × Flg) : Core := (k.flag x.2).setD dd ((scalarFmt p).toD x.1)

section
variable {bytes : Nat} {dd : Fin 32} {srcs : List (Fin 32)} {op : FFmt → Rnd → List FVal → FVal × Flg} {long : Bool}

theorem completes_of_floatOp {x : Core → FVal × Flg} (h : ∀ s, exec i s = next (floatOp c p bytes dd srcs op s long))
    (hx : ∀ k, op (scalarFmt p) k.rnd (srcs.map (fun r => (scalarFmt p).ofD (k.getD r))) = x k) :
    Completes i c p { bytes := bytes, d := dd :: srcs, types := scalarTypes, unpaired := long }
      (fun k k1 => k1 = floatResult p dd k (x k)) :=
  completes_of_runLocal h fun k => congrArg (floatResult p dd k) (hx k)

/-- An operation that raises no flag. -/
theorem completes_of_floatOp_quiet {v : Core → FVal} (h : ∀ s, exec i s = next (floatOp c p bytes dd srcs op s long))
    (hv : ∀ k, op (scalarFmt p) k.rnd (srcs.map (fun r => (scalarFmt p).ofD (k.getD r))) = (v k, .none)) :
    Completes i c p { bytes := bytes, d := dd :: srcs, types := scalarTypes, unpaired := long }
      (fun k k1 => k1 = k.setD dd ((scalarFmt p).toD (v k))) := by
  refine completes_of_runLocal h fun k => (congrArg (floatResult p dd k) (hv k)).trans ?_
  rw [floatResult, Core.flag_none]

end

theorem FVal.eqB_iff (a b : FVal) : a.eqB b = true ↔ a.eq b = some true := by cases h : a.eq b <;> simp [FVal.eqB, h]

theorem FVal.ltB_iff (a b : FVal) : a.ltB b = true ↔ a.lt b = some true := by cases h : a.lt b <;> simp [FVal.ltB, h]

theorem FVal.leB_iff (a b : FVal) : a.leB b = true ↔ a.lt b = some true ∨ a.eq b = some true := by
  rw [FVal.leB, Bool.or_eq_true, FVal.ltB_iff, FVal.eqB_iff]

/-- A compare gives 1 where its relation holds and else 0. -/
theorem givesD_of_floatCmp {dd da db : Fin 32} {op : FVal → FVal → Bool} {R : FVal → FVal → Prop} [∀ a b, Decidable (R a b)]
    (h : ∀ s, exec i s = next (floatCmp c p dd da db op s)) (hR : ∀ a b, op a b = true ↔ R a b) :
    GivesD i c p { bytes := 4, d := [dd, da, db], types := scalarTypes } dd
      (fun k w => w = if R ((scalarFmt p).ofD (k.getD da)) ((scalarFmt p).ofD (k.getD db)) then 1 else 0) :=
  givesD_of_runLocal h fun _ => ite_congr (propext (hR _ _)) (fun _ => rfl) (fun _ => rfl)

/-- `FCVT` from a listed source code. -/
theorem completes_fcvt {dd da : Fin 32} {src : Byte} (hsrc : fcvtCodes.contains src.toNat = true) :
    Completes (.fcvt c p dd da src) c p { bytes := 4, d := [dd, da], types := fcvtCodes } (fun k k1 =>
      let x := fcvtAny src.toNat (typeCode p) k.rnd ((k.getD da).toNat % 2 ^ fmtWidth src.toNat)
      k1 = (k.flag x.2).setD dd (scalarToD (typeCode p) x.1)) := by
  intro s hr
  refine ⟨_, rfl, congrArg next (runInstr_completed hr ?_)⟩
  simp only [hsrc, Bool.not_true, Bool.false_eq_true, if_false]

end

/-- Settles O18: arithmetic by its rounded value and flags, minimum, maximum and the sign operations without a flag, compares by the
relation that each decides. -/
theorem scalarFloatResults : Obligations.ScalarFloatResults := by
  unfold Obligations.ScalarFloatResults
  intro c p dd da db dc i f sh long v gives
  refine ⟨?fadd, ?fsub, ?fmul, ?fma, ?fdiv, ?fsqrt, ?fmin, ?fmax, ?fabs, ?fneg, ?fcmpeq, ?fcmplt, ?fcmple, completes_fcvt⟩
  case fadd | fsub | fmul | fma | fdiv | fsqrt => exact completes_of_floatOp (fun _ => rfl) (fun _ => rfl)
  case fmin | fmax | fabs | fneg => exact completes_of_floatOp_quiet (fun _ => rfl) (fun _ => rfl)
  case fcmpeq => exact givesD_of_floatCmp (fun _ => rfl) FVal.eqB_iff
  case fcmplt => exact givesD_of_floatCmp (fun _ => rfl) FVal.ltB_iff
  case fcmple => exact givesD_of_floatCmp (fun _ => rfl) FVal.leB_iff

/-! ## What an instruction sees of its core -/

@[simp] theorem Core.setBank_status (k : Core) (l : Level) (b : Bank) : (k.setBank l b).status = k.status := by cases l <;> rfl

@[simp] theorem PendWrite.apply_status (k : Core) (w : PendWrite) : (w.apply k).status = k.status := by
  cases w with
  | a l => exact k.setBank_status l _
  | d l => exact k.setBank_status l _
  | v => rfl

@[simp] theorem Core.settle_status (k : Core) : k.settle.status = k.status := by
  unfold Core.settle
  split
  · exact PendWrite.apply_status k _
  · rfl

@[simp] theorem Core.view_status (k : Core) (interlocked : Bool) : (k.view interlocked).status = k.status := by
  cases interlocked
  · rfl
  · exact k.settle_status

@[simp] theorem State.seen_status (s : State) (c : CoreId) : (s.seen c).status = (s.core c).status := Core.view_status _ _

section
variable {s : State} {c : CoreId} {p : Pfx}

/-! ## The plain instructions and the fences -/

theorem exec_nop (h : Runs s c p { bytes := 1 }) : exec (.nop c p) s = .next (s.completed c p { bytes := 1 } (s.seen c) .seq) :=
  congrArg next (runLocal_completed h)

theorem exec_halt_allowed (h : Runs s c p { bytes := 1 }) (hpl : (s.core c).status.pl ≠ .user) :
    exec (.halt c p) s
      = .next (s.completed c p { bytes := 1 } { s.seen c with st := .halted, pair := none, haltReq := false } .seq) :=
  congrArg next (runInstr_completed h (if_neg (by rwa [State.seen_status])))

theorem exec_ifence (h : Runs s c p { bytes := 1 }) :
    exec (.ifence c p) s = if (s.seen c).sbuf = [] then .next (s.completed c p { bytes := 1 } (s.seen c) .seq)
      else .next (s.modCore c (fun k => { k with wait := some .storeBuffer })) := by
  split
  next hbuf => exact congrArg next (runInstr_completed h (if_pos hbuf))
  next hbuf => exact congrArg next (runInstr_waits h (if_neg hbuf))

theorem exec_mfence_buffered (h : Runs s c p { bytes := 1 }) (hbuf : (s.seen c).sbuf ≠ []) :
    exec (.mfence c p) s = .next (s.modCore c (fun k => { k with wait := some .storeBuffer })) :=
  congrArg next (runInstr_waits h (if_pos hbuf))

/-- With an empty store buffer `MFENCE` waits for a miss that is being served and for maintenance of the core. -/
theorem exec_mfence_drained (h : Runs s c p { bytes := 1 }) (hbuf : (s.seen c).sbuf = []) :
    exec (.mfence c p) s = if (s.missServed c || (s.seen c).maint) = true then .next (s.modCore c (fun k => { k with wait := some .fence }))
      else .next (s.completed c p { bytes := 1 } (s.seen c) .seq) := by
  split
  next hbusy => exact congrArg next (runInstr_waits h ((if_neg (not_not_intro hbuf)).trans (if_pos hbusy)))
  next hidle => exact congrArg next (runInstr_completed h ((if_neg (not_not_intro hbuf)).trans (if_neg hidle)))

/-! ## MODE (06 R165) -/

/-- What `MODE` makes of the core that it sees: a sequencer takes the new mode behind a shadow of two instructions, a Hazia core
nothing. -/
def modeSet (c : CoreId) (m : Byte) (mode : Bool) (k : Core) : Core :=
  match c with
  | .hazia _ => k
  | .sycen _ _ => { k with status := { k.status with mode := m.getLsbD 0 }, shCnt := 2, shMode := mode }

theorem exec_mode_allowed {m : Byte} (h : Runs s c p { bytes := 2, noSlot := true }) (hm : m.toNat < 2) (hsh : (s.core c).shCnt = 0) :
    exec (.mode c p m) s = .next (s.completed c p { bytes := 2, noSlot := true } (modeSet c m (s.core c).status.mode (s.seen c)) .seq) := by
  refine congrArg next (runInstr_completed h ((if_neg (Nat.not_le.2 hm)).trans ?_))
  cases c with
  | hazia n => rfl
  | sycen d nn =>
    refine (if_neg (not_not_intro hsh)).trans ?_
    rw [modeSet, State.seen_status]

end

/-- Settles O19, a case for each instruction and each thing that a fence can wait for. -/
theorem systemInstructions : Obligations.SystemInstructions := by
  unfold Obligations.SystemInstructions
  intro c p m s
  constructor
  · intro h
    refine ⟨exec_nop h, fun hpl => ⟨_, rfl, exec_halt_allowed h hpl⟩, exec_ifence h, exec_mfence_buffered h, ?served, ?unserved⟩
    case served =>
      intro hbuf hserved
      rw [exec_mfence_drained h hbuf, hserved, Bool.true_or, if_pos rfl]
    case unserved =>
      intro hbuf hserved
      rw [exec_mfence_drained h hbuf, hserved, Bool.false_or]
  · intro h hm hsh
    rw [exec_mode_allowed h hm hsh]
    cases c <;> rfl

end Sys2Proof.Machine
end

section
/-! PROOFS. Branches, jumps and the hardware loops (06 R166, R167, R169; O24). -/

namespace Sys2Proof.Machine

section
variable {i : Instr} {s : State} {c : CoreId} {p : Pfx} {sh : Shape} {slot : Fin 17} {cond : Prop} {target : Word → Word}

/-! ## Branches -/

/-- The claim on a branch, from how its meaning ends where the condition holds and where it fails. -/
theorem branchClaim_of_runBranch {body : State → Core → Word → Res} (h : exec i s = next (s.runBranch c p sh slot body))
    (htaken : cond → ∀ nxt, body s (s.seen c) nxt = .done s (s.seen c) (.taken (target nxt) true))
    (huntaken : ¬cond → ∀ nxt, body s (s.seen c) nxt = .done s (s.seen c) .untaken) :
    BranchClaim c p s (s.seen c) slot i sh cond target := by
  intro hr
  rw [h]
  refine ⟨fun hplace => ?placed, fun hplace => congrArg next (runInstr_trap hr (if_pos hplace))⟩
  have hmeaning : misplaced (s.seen c) (sh.len p) slot ≠ true := ne_true_of_eq_false hplace
  exact ⟨fun hc => congrArg next (runInstr_completed hr ((if_neg hmeaning).trans (htaken hc _))),
    fun hc => congrArg next (runInstr_completed hr ((if_neg hmeaning).trans (huntaken hc _)))⟩

/-- A jump is always taken. -/
theorem branchClaim_of_jump {t : Core → Word → Word}
    (h : exec i s = next (s.runBranch c p sh slot (fun s k nxt => .done s k (.taken (t k nxt) true)))) :
    BranchClaim c p s (s.seen c) slot i sh True (t (s.seen c)) :=
  branchClaim_of_runBranch h (fun _ _ => rfl) (fun hfalse => absurd trivial hfalse)

/-- A conditional branch goes by its displacement where its test holds. -/
theorem branchClaim_of_condBranch {disp : BitVec 16} {test : Core → Bool} (h : exec i s = next (condBranch c p sh slot disp test s))
    (htest : test (s.seen c) = true ↔ cond) :
    BranchClaim c p s (s.seen c) slot i sh cond (fun n => n + disp.signExtend 64) :=
  branchClaim_of_runBranch h
    (fun hc _ => congrArg (Res.done s (s.seen c)) (if_pos (htest.2 hc)))
    (fun hc _ => congrArg (Res.done s (s.seen c)) (if_neg (mt htest.1 hc)))

theorem not_slt_iff_toInt_le (a b : Word) : (!a.slt b) = true ↔ b.toInt ≤ a.toInt := by
  rw [← BitVec.sle_eq_not_slt, BitVec.sle_iff_toInt_le]

theorem not_ult_iff_toNat_le (a b : Word) : (!a.ult b) = true ↔ b.toNat ≤ a.toNat := by
  rw [← BitVec.ule_eq_not_ult, BitVec.ule_iff_toNat_le]

end

/-- Settles O24: each branch by its test, which the compares of R453 decide; `LOOP` by what stands against it and by its count. -/
theorem branchAndLoopResults : Obligations.BranchAndLoopResults := by
  unfold Obligations.BranchAndLoopResults
  constructor
  · intro c p s dn da db an aa ab x y slot k branch
    refine ⟨?br16, ?br32, ?jmp, ?bz, ?bnz, ?beq, ?bne, ?blt, ?bge, ?bltu, ?bgeu, ?beqa, ?bltua⟩
    case br16 => exact branchClaim_of_jump (t := fun _ nxt => nxt + x.signExtend 64) rfl
    case br32 => exact branchClaim_of_jump (t := fun _ nxt => nxt + y.signExtend 64) rfl
    case jmp => exact branchClaim_of_jump (t := fun k _ => k.getA an) rfl
    case bz | beq | beqa => exact branchClaim_of_condBranch rfl beq_iff_eq
    case bnz | bne => exact branchClaim_of_condBranch rfl bne_iff_ne
    case blt => exact branchClaim_of_condBranch rfl BitVec.slt_iff_toInt_lt
    case bge => exact branchClaim_of_condBranch rfl (not_slt_iff_toInt_le _ _)
    case bltu | bltua => exact branchClaim_of_condBranch rfl BitVec.ult_iff_toNat_lt
    case bgeu => exact branchClaim_of_condBranch rfl (not_ult_iff_toNat_le _ _)
  · intro c p lv n e16 s sh hr k b cnt nxt e bad b1
    refine ⟨fun hbad => congrArg next (runInstr_trap hr (if_pos hbad)), fun hgood hzero => ?empty, fun hgood hcount => ?enters⟩
    case empty => exact congrArg next (runInstr_completed hr ((if_neg hgood).trans (if_pos hzero)))
    case enters => exact congrArg next (runInstr_completed hr ((if_neg hgood).trans (if_neg hcount)))

end Sys2Proof.Machine
end

section
/-! PROOFS. Scalar loads (06 R162, R163; O27), and `LR`, `SC` and `TAS` (06 R175 to R178; O30). -/

namespace Sys2Proof.Machine

/-! ## LD and LDS (06 R162, R163; 07 R192) -/

/-- The shape of an instruction that accesses memory at `m`, with `d` as its other D operands. -/
def accessShape (bytes : Nat) (d : List (Fin 32)) (m : MemOp) (exclusive : Bool) : Shape :=
  { bytes := bytes + m.bytes, d := d ++ m.dregs, nt := true, ar := true, exclusive := exclusive }

/-- The core once a load has left its destination write waiting behind it. -/
def loadedCore (s : State) (c : CoreId) (w : PendWrite) : Core :=
  { s.seen c with pend := some w, closed := !tagMode c (s.core c) }

section
variable {s s1 : State} {c : CoreId} {p : Pfx} {m : MemOp} {dd : Fin 32} {mw : MemWidth} {x : XReg} {data : List Byte}

theorem exec_ld_loaded (hr : Runs s c p (accessShape 2 x.dregs m false)) (hw : widthOk mw x = true)
    (hload : s.coreLoad c (s.seen c) (eaOf m (s.seen c)) { acc := .read, size := mw.size } p.nt = .ok s1 data) :
    exec (.ld c p mw x m) s = .next (s.ended s1 c p (accessShape 2 x.dregs m false)
      (loadedCore s c (pendX (s.seen c) x (BitVec.ofNat 64 (leNat data)))) .seq) := by
  refine congrArg next (runInstr_done hr ?_)
  simp only [hw, hload, Bool.not_true, Bool.false_eq_true, if_false]
  rfl

theorem exec_ld_refused (hr : Runs s c p (accessShape 2 x.dregs m false)) (hw : widthOk mw x = false) :
    exec (.ld c p mw x m) s = .next (s.trapHere c (s.core c) 0x01 0 none) :=
  congrArg next (runInstr_trap hr (if_pos (by rw [hw, Bool.not_false])))

theorem exec_lds_loaded (hr : Runs s c p (accessShape 2 [dd] m false)) (hw : mw ≠ .d)
    (hload : s.coreLoad c (s.seen c) (eaOf m (s.seen c)) { acc := .read, size := mw.size } p.nt = .ok s1 data) :
    exec (.lds c p mw dd m) s = .next (s.ended s1 c p (accessShape 2 [dd] m false)
      (loadedCore s c (.d (s.seen c).status.pl dd.val (BitVec.ofInt 64 (toSigned (8 * mw.size) (leNat data))))) .seq) := by
  refine congrArg next (runInstr_done hr ?_)
  simp only [hw, hload, if_false]
  rfl

end

/-- Settles O27, a case for each instruction, and for `LD` for each kind of register it may name. -/
theorem loadResults : Obligations.LoadResults := by
  unfold Obligations.LoadResults
  intro c p mw x dd m s s1 data k sh ends hload
  refine ⟨fun hr hw => ?ld, fun hr hw => exec_lds_loaded hr hw hload, exec_ld_refused⟩
  rw [exec_ld_loaded hr hw hload]
  cases x <;> rfl

/-! ## LR, SC and TAS (06 R175 to R178) -/

/-- The core once an atomic primitive has left its destination write waiting, with the reservation and the pair that it leaves. -/
def atomicCore (s : State) (c : CoreId) (dd : Fin 32) (w : Word) (resv pair : Option Nat) : Core :=
  { loadedCore s c (.d (s.seen c).status.pl dd.val w) with resv := resv, pair := pair }

/-- Whether the reservation that a core holds is for a line, and the line still in its cache. -/
def State.reserved (s : State) (c : CoreId) (ln : Nat) : Bool := decide ((s.seen c).resv = some ln) && s.holdsLine c ln

section
variable {s s1 : State} {c : CoreId} {p : Pfx} {m : MemOp} {wide : Bool} {dd dv : Fin 32} {size a : Nat}

theorem exec_lr_located (hsize : size = if wide then 8 else 4) (hr : Runs s c p (accessShape 2 [dd] m true))
    (hloc : s.atomicAccess c (s.seen c) (eaOf m (s.seen c)) size false true false p.nt true (fun _ => true) = .ok (s1, a)) :
    exec (.lr c p wide dd m) s = .next (s.ended ((s1.touch (.l1d c) (lineOf a)).rehold c (lineOf a)) c p (accessShape 2 [dd] m true)
      (atomicCore s c dd (BitVec.ofNat 64 (s1.readNat a size)) (some (lineOf a)) (some 0)) .seq) := by
  subst hsize
  refine congrArg next (runInstr_done hr ?_)
  simp only [hloc]
  rfl

/-- `SC` whose reservation still holds stores and reports 0. -/
theorem exec_sc_stores (hsize : size = if wide then 8 else 4) (hr : Runs s c p (accessShape 3 [dd, dv] m true))
    (hloc : s.atomicAccess c (s.seen c) (eaOf m (s.seen c)) size true true true p.nt false (s.reserved c) = .ok (s1, a))
    (hresv : s.reserved c (lineOf a) = true) :
    exec (.sc c p wide dd dv m) s
      = .next (s.ended (s1.ownedWrite c a (leBytes size ((s.seen c).getD dv).toNat)) c p (accessShape 3 [dd, dv] m true)
          (atomicCore s c dd 0 none none) .seq) := by
  subst hsize
  unfold State.reserved at hloc hresv
  refine congrArg next (runInstr_done hr ?_)
  simp only [hloc, hresv, if_true]
  rfl

/-- `SC` whose reservation is gone stores nothing and reports 1. -/
theorem exec_sc_fails (hsize : size = if wide then 8 else 4) (hr : Runs s c p (accessShape 3 [dd, dv] m true))
    (hloc : s.atomicAccess c (s.seen c) (eaOf m (s.seen c)) size true true true p.nt false (s.reserved c) = .ok (s1, a))
    (hresv : s.reserved c (lineOf a) = false) :
    exec (.sc c p wide dd dv m) s
      = .next (s.ended s1 c p (accessShape 3 [dd, dv] m true) (atomicCore s c dd 1 none none) .seq) := by
  subst hsize
  unfold State.reserved at hloc hresv
  refine congrArg next (runInstr_done hr ?_)
  simp only [hloc, hresv, Bool.false_eq_true, if_false]
  rfl

theorem exec_tas_located (hr : Runs s c p (accessShape 2 [dd] m false))
    (hloc : s.atomicAccess c (s.seen c) (eaOf m (s.seen c)) 1 true false true p.nt true (fun _ => true) = .ok (s1, a)) :
    exec (.tas c p dd m) s
      = .next (s.ended ((s1.ownedWrite c a [1]).rehold c (lineOf a)) c p
          (accessShape 2 [dd] m false)
          (atomicCore s c dd (BitVec.ofNat 64 (s1.readNat a 1)) (s.seen c).resv (s.seen c).pair) .seq) := by
  refine congrArg next (runInstr_done hr ?_)
  simp only [hloc]
  rfl

/-! ## Constrained pairs (06 R177) -/

/-- A core that stands in a constrained pair pins the line that it has reserved. -/
theorem State.pinned_of_pair {ln : Nat} : (s.core c).resv = some ln → (s.core c).pair.isSome = true → s.pinned ln = true := by
  refine mget_induction (P := fun k : Core => k.resv = some ln → k.pair.isSome = true → s.pinned ln = true) ?unlisted ?listed
  case unlisted =>
    intro hresv
    exact absurd hresv (Option.some_ne_none ln).symm
  case listed =>
    intro x hx hresv hpair
    rw [State.pinned, List.any_eq_true]
    exact ⟨x, hx, by simp [hresv, hpair]⟩

variable {ln : Nat}

theorem exec_holdWindowEnd_pinned (cache : CacheId) (h : s.pinned ln = true) : exec (.holdWindowEnd cache ln) s = .next s :=
  if_neg (by simp [h])

theorem State.putLine_pinned (h : s.pinned ln = true) (e : EtuId) (cls : FillClass) (off : Nat) (data : List Byte) :
    s.putLine e cls ln off data = s.modSnap (fun x => { x with heldWrites := x.heldWrites ++ [(e, cls, ln, off, data)] }) :=
  if_pos (by rw [State.writeHeld, h, Bool.or_true])

end

/-- Settles O30: each primitive from its located access, and the pair by the line that it pins. -/
theorem atomicResults : Obligations.AtomicResults := by
  unfold Obligations.AtomicResults
  intro c p wide dd dv m s s1 a k size sh1 sh2 sh3 holds ends
  refine ⟨fun hr hloc => exec_lr_located rfl hr hloc, fun hr hloc => ⟨exec_sc_stores rfl hr hloc, exec_sc_fails rfl hr hloc⟩,
    fun hr hloc => exec_tas_located hr hloc, fun ln hresv hpair => ?pair⟩
  have hpin := State.pinned_of_pair hresv hpair
  exact ⟨fun cache => exec_holdWindowEnd_pinned cache hpin, State.putLine_pinned hpin⟩

end Sys2Proof.Machine
end

section
/-! PROOFS. The state after power-on (O55). -/

namespace Sys2Proof.Machine

/-- Nothing is listed in a sparse store at reset. -/
theorem State.reset_storesOk : State.reset.StoresOk :=
  ⟨mwf_nil _, mwf_nil _, mwf_nil _, mwf_nil _, mwf_nil _, fun _ hx => absurd hx List.not_mem_nil⟩

/-- Settles O55: the fields by their values, the units by what an unlisted one reads as. -/
theorem resetState : Obligations.ResetState := by
  unfold Obligations.ResetState
  refine ⟨⟨rfl, rfl, rfl, rfl, rfl, rfl, rfl, rfl, rfl, rfl, ?cores, ?quads, ?engines, ?memory⟩, State.reset_memOk, State.reset_storesOk⟩
  case cores => exact State.reset_core
  case quads => exact fun _ => rfl
  case engines => exact fun _ => rfl
  case memory => exact fun _ => rfl

end Sys2Proof.Machine
end

section
/-! PROOFS. The functions of R453 on values, and the results of the address class, of addition, subtraction and multiplication, and of
division (07 R453; O12 to O14). -/

namespace Sys2Proof.Machine

section
variable {a b : Word}

/-! ## Truth values, sums and products -/

/-- A test that decides a relation writes 1 where the relation holds and else 0. -/
theorem flagWord_of_iff {t : Bool} {P : Prop} [Decidable P] (h : t = true ↔ P) : flagWord t = if P then 1 else 0 :=
  ite_congr (propext h) (fun _ => rfl) (fun _ => rfl)

theorem toNat_sub_add_mod (a b : Word) : ((a - b).toNat + b.toNat) % 2 ^ 64 = a.toNat := by
  rw [← BitVec.toNat_add, BitVec.sub_add_cancel]

theorem toInt_mulHigh (a b : Word) : (mulHigh a b).toInt = a.toInt * b.toInt / 2 ^ 64 := by
  have hlo : -2 ^ 126 ≤ a.toInt * b.toInt := BitVec.le_toInt_mul_toInt
  have hhi : a.toInt * b.toInt ≤ 2 ^ 126 := BitVec.toInt_mul_toInt_le
  exact BitVec.toInt_ofInt_eq_self (by decide) (by omega) (by omega)

theorem toNat_mulHighU (a b : Word) : (mulHighU a b).toNat = a.toNat * b.toNat / 2 ^ 64 := by
  have hlt : a.toNat * b.toNat < 2 ^ 64 * 2 ^ 64 := Nat.mul_lt_mul'' a.isLt b.isLt
  rw [mulHighU, BitVec.toNat_ofNat, Nat.mod_eq_of_lt (Nat.div_lt_of_lt_mul hlt)]

/-! ## Shifts -/

theorem toNat_countOf (n : Byte) : (countOf n).toNat = n.toNat := BitVec.toNat_setWidth_of_le (by decide)

theorem toNat_shiftL (a b : Word) : (shiftL a b).toNat = a.toNat * 2 ^ (b.toNat % 64) % 2 ^ 64 := by
  rw [shiftL, count64, BitVec.toNat_shiftLeft, Nat.shiftLeft_eq]

theorem toNat_shiftR (a b : Word) : (shiftR a b).toNat = a.toNat / 2 ^ (b.toNat % 64) := by
  rw [shiftR, count64, BitVec.toNat_ushiftRight, Nat.shiftRight_eq_div_pow]

theorem toInt_shiftRA (a b : Word) : (shiftRA a b).toInt = a.toInt / 2 ^ (b.toNat % 64) := by
  have hpow : ((2 ^ (b.toNat % 64) : Nat) : Int) = 2 ^ (b.toNat % 64) := Int.natCast_pow 2 _
  rw [shiftRA, count64, BitVec.toInt_sshiftRight, Int.shiftRight_eq_div_pow, hpow]

/-! ## Division -/

theorem divSigned_zero (a : Word) : divSigned a 0 = BitVec.allOnes 64 := if_pos rfl

theorem remSigned_zero (a : Word) : remSigned a 0 = a := if_pos rfl

theorem divUnsigned_zero (a : Word) : divUnsigned a 0 = BitVec.allOnes 64 := if_pos rfl

theorem remUnsigned_zero (a : Word) : remUnsigned a 0 = a := if_pos rfl

theorem divSigned_eq_sdiv (hb : b ≠ 0) : divSigned a b = a.sdiv b := by
  rw [divSigned, if_neg hb, ← BitVec.toInt_inj, BitVec.toInt_ofInt, BitVec.toInt_sdiv]

theorem remSigned_eq_srem (hb : b ≠ 0) : remSigned a b = a.srem b := by
  rw [remSigned, if_neg hb, ← BitVec.toInt_srem, BitVec.ofInt_toInt]

theorem toInt_eq_min_iff : a.toInt = -(2 ^ 63) ↔ a = BitVec.intMin 64 := by
  rw [← BitVec.toInt_inj, BitVec.toInt_intMin]
  rfl

theorem toInt_eq_neg_one_iff : b.toInt = -1 ↔ b = -1 := by
  rw [← BitVec.toInt_inj]
  rfl

/-- The quotient that does not fit: −2^63 by −1. -/
theorem divSigned_min_neg_one : divSigned (BitVec.intMin 64) (-1) = BitVec.intMin 64 :=
  (divSigned_eq_sdiv (by decide)).trans BitVec.intMin_sdiv_neg_one

theorem toInt_divSigned (hb : b ≠ 0) (hfits : ¬(a.toInt = -(2 ^ 63) ∧ b.toInt = -1)) :
    (divSigned a b).toInt = Int.tdiv a.toInt b.toInt := by
  rw [toInt_eq_min_iff, toInt_eq_neg_one_iff, Classical.not_and_iff_not_or_not] at hfits
  rw [divSigned_eq_sdiv hb, BitVec.toInt_sdiv_of_ne_or_ne a b hfits]

theorem toInt_remSigned (hb : b ≠ 0) : (remSigned a b).toInt = Int.tmod a.toInt b.toInt := by
  rw [remSigned_eq_srem hb, BitVec.toInt_srem]

theorem remSigned_min_neg_one : remSigned (BitVec.intMin 64) (-1) = 0 := by decide

theorem toNat_divUnsigned (hb : b ≠ 0) : (divUnsigned a b).toNat = a.toNat / b.toNat := by
  rw [divUnsigned, if_neg hb, BitVec.toNat_udiv]

theorem toNat_remUnsigned (hb : b ≠ 0) : (remUnsigned a b).toNat = a.toNat % b.toNat := by
  rw [remUnsigned, if_neg hb, BitVec.toNat_umod]

end

/-! ## Instructions with one A destination -/

theorem givesA_of_runLocal {i : Instr} {c : CoreId} {p : Pfx} {sh : Shape} {ad : Fin 16} {w : Core → Word} {spec : Core → Word → Prop}
    (h : ∀ s, exec i s = next (s.runLocal c p sh (fun k => k.setA ad (w k)))) (hw : ∀ k, spec k (w k)) : GivesA i c p sh ad spec :=
  completes_of_runLocal h fun k => ⟨w k, hw k, rfl⟩

/-- Settles O12: sums, shifts and compares by their functions of R453; moves and `LEA` write the value itself. -/
theorem addressClassResults : Obligations.AddressClassResults := by
  unfold Obligations.AddressClassResults
  intro c p ad aa ab dd src x n m
  refine ⟨?adda, ?suba, ?shla, ?shra, ?cmpeqa, ?cmpltua, ?mova, ?movda, ?lea⟩
  case adda => exact givesA_of_runLocal (fun _ => rfl) fun _ => BitVec.toNat_add _ _
  case suba => exact givesA_of_runLocal (fun _ => rfl) fun _ => toNat_sub_add_mod _ _
  case shla => exact givesA_of_runLocal (fun _ => rfl) fun _ => toNat_shiftL _ _
  case shra => exact givesA_of_runLocal (fun _ => rfl) fun _ => toNat_shiftR _ _
  case cmpeqa => exact givesD_of_runLocal (fun _ => rfl) fun _ => flagWord_of_iff beq_iff_eq
  case cmpltua => exact givesD_of_runLocal (fun _ => rfl) fun _ => flagWord_of_iff BitVec.ult_iff_toNat_lt
  case movda => exact givesD_of_runLocal (fun _ => rfl) fun _ => rfl
  case mova | lea => exact givesA_of_runLocal (fun _ => rfl) fun _ => rfl

/-- Settles O13: the low halves by the arithmetic of bit vectors, the high halves because the whole product fits twice the width. -/
theorem addSubMulResults : Obligations.AddSubMulResults := by
  unfold Obligations.AddSubMulResults
  intro c p dd da db i
  refine ⟨?add, ?sub, ?addi, ?mul, ?mulh, ?mulhu⟩
  case add | addi => exact givesD_of_runLocal (fun _ => rfl) fun _ => BitVec.toNat_add _ _
  case sub => exact givesD_of_runLocal (fun _ => rfl) fun _ => toNat_sub_add_mod _ _
  case mul => exact givesD_of_runLocal (fun _ => rfl) fun _ => BitVec.toNat_mul _ _
  case mulh => exact givesD_of_runLocal (fun _ => rfl) fun _ => toInt_mulHigh _ _
  case mulhu => exact givesD_of_runLocal (fun _ => rfl) fun _ => toNat_mulHighU _ _

/-- Settles O14: the division of bit vectors where the divisor is not 0, and the corners one by one. -/
theorem divisionResults : Obligations.DivisionResults := by
  unfold Obligations.DivisionResults
  intro c p dd da db
  refine ⟨?div, ?rem, ?divu, ?remu⟩
  case div =>
    refine givesD_of_runLocal (fun _ => rfl) fun k => ⟨fun hzero => ?_, fun hmin hneg => ?_, toInt_divSigned⟩
    · rw [hzero, divSigned_zero, BitVec.toInt_allOnes, if_pos (by decide)]
    · rw [toInt_eq_min_iff.1 hmin, toInt_eq_neg_one_iff.1 hneg, divSigned_min_neg_one, toInt_eq_min_iff]
  case rem =>
    refine givesD_of_runLocal (fun _ => rfl) fun k => ⟨fun hzero => ?_, fun hmin hneg => ?_, toInt_remSigned⟩
    · rw [hzero, remSigned_zero]
    · rw [toInt_eq_min_iff.1 hmin, toInt_eq_neg_one_iff.1 hneg, remSigned_min_neg_one]
  case divu =>
    refine givesD_of_runLocal (fun _ => rfl) fun k => ⟨fun hzero => ?_, toNat_divUnsigned⟩
    rw [hzero, divUnsigned_zero, BitVec.toNat_allOnes]
  case remu =>
    refine givesD_of_runLocal (fun _ => rfl) fun k => ⟨fun hzero => ?_, toNat_remUnsigned⟩
    rw [hzero, remUnsigned_zero]

end Sys2Proof.Machine
end

section
/-! PROOFS. Results of logic and shifts, and of compares, moves and bit counts (07 R183, R453; O15, O16). -/

namespace Sys2Proof.Machine

section
variable {n x : Nat}

/-! ## Immediates (07 R183) -/

theorem immSize_of_two (p : Pfx) : p.immSize 2 = 2 ∨ p.immSize 2 = 4 ∨ p.immSize 2 = 8 := by
  unfold Pfx.immSize
  split
  · exact .inl rfl
  · exact .inr (.inl rfl)
  · exact .inr (.inr rfl)

theorem getLsbD_immZero (p : Pfx) (i : Word) (j : Nat) :
    (immZero p 2 i).getLsbD j = (decide (j < 8 * p.immSize 2) && i.getLsbD j) := by
  rw [immZero, BitVec.getLsbD_ofNat, Nat.testBit_mod_two_pow, BitVec.testBit_toNat]
  by_cases hj : j < 64
  · rw [decide_eq_true hj, Bool.true_and]
  · rw [i.getLsbD_of_ge j (Nat.le_of_not_lt hj), Bool.and_false, Bool.and_false]

/-- Two's complement of the low bits is the value of the bit vector that they are. -/
theorem toSigned_mod_eq_toInt (hn : 0 < n) (x : Nat) : toSigned n (x % 2 ^ n) = (BitVec.ofNat n x).toInt := by
  have hhalf : 2 ^ n = 2 * 2 ^ (n - 1) := by rw [← Nat.pow_succ', Nat.succ_eq_add_one, Nat.sub_add_cancel hn]
  rw [toSigned, BitVec.toInt_eq_toNat_cond, BitVec.toNat_ofNat]
  exact ite_congr (propext (by omega)) (fun _ => rfl) (fun _ => rfl)

/-- A register holds every number of at most 64 bits in two's complement. -/
theorem toInt_ofInt_toSigned (hn : 0 < n) (h64 : n ≤ 64) (x : Nat) :
    (BitVec.ofInt 64 (toSigned n (x % 2 ^ n))).toInt = toSigned n (x % 2 ^ n) := by
  rw [toSigned_mod_eq_toInt hn]
  exact BitVec.toInt_signExtend_of_le h64

theorem toInt_immSigned (p : Pfx) (i : Word) :
    (immSigned p 2 i).toInt = toSigned (8 * p.immSize 2) (i.toNat % 2 ^ (8 * p.immSize 2)) := by
  have hsize := immSize_of_two p
  exact toInt_ofInt_toSigned (by omega) (by omega) _

end

/-- Settles O15: logic bit by bit, shifts by their functions of R453. -/
theorem logicShiftResults : Obligations.LogicShiftResults := by
  unfold Obligations.LogicShiftResults
  intro c p dd da db i n
  refine ⟨?and, ?or, ?xor, ?andi, ?ori, ?xori, ?shl, ?shr, ?sar, ?shli, ?shri, ?sari⟩
  case and => exact givesD_of_runLocal (fun _ => rfl) fun _ _ => BitVec.getLsbD_and
  case or => exact givesD_of_runLocal (fun _ => rfl) fun _ _ => BitVec.getLsbD_or
  case xor => exact givesD_of_runLocal (fun _ => rfl) fun _ _ => BitVec.getLsbD_xor
  case andi => exact givesD_of_runLocal (fun _ => rfl) fun _ j => by rw [BitVec.getLsbD_and, getLsbD_immZero]
  case ori => exact givesD_of_runLocal (fun _ => rfl) fun _ j => by rw [BitVec.getLsbD_or, getLsbD_immZero]
  case xori => exact givesD_of_runLocal (fun _ => rfl) fun _ j => by rw [BitVec.getLsbD_xor, getLsbD_immZero]
  case shl => exact givesD_of_runLocal (fun _ => rfl) fun _ => toNat_shiftL _ _
  case shr => exact givesD_of_runLocal (fun _ => rfl) fun _ => toNat_shiftR _ _
  case sar => exact givesD_of_runLocal (fun _ => rfl) fun _ => toInt_shiftRA _ _
  case shli => exact givesD_of_runLocal (fun _ => rfl) fun _ => by rw [toNat_shiftL, toNat_countOf]
  case shri => exact givesD_of_runLocal (fun _ => rfl) fun _ => by rw [toNat_shiftR, toNat_countOf]
  case sari => exact givesD_of_runLocal (fun _ => rfl) fun _ => by rw [toInt_shiftRA, toNat_countOf]

section
variable {a : Word}

/-! ## Minimum and maximum -/

theorem toInt_minSigned (a b : Word) : (minSigned a b).toInt = min a.toInt b.toInt := by
  rw [minSigned, apply_ite BitVec.toInt]
  exact (Int.min_def _ _).symm

theorem toInt_maxSigned (a b : Word) : (maxSigned a b).toInt = max a.toInt b.toInt := by
  rw [maxSigned, apply_ite BitVec.toInt]
  exact (Int.max_def _ _).symm

/-! ## EXT -/

theorem toNat_extendLow_zero (n : Nat) (a : Word) : (extendLow n true a).toNat = a.toNat % 2 ^ n :=
  Nat.mod_eq_of_lt (Nat.lt_of_le_of_lt (Nat.mod_le _ _) a.isLt)

theorem toInt_extendLow_sign {n : Nat} (hn : 0 < n) (h64 : n ≤ 64) (a : Word) :
    (extendLow n false a).toInt = toSigned n (a.toNat % 2 ^ n) := toInt_ofInt_toSigned hn h64 _

/-- The width that `EXT` names, in bits. -/
theorem ext_width_bounds {w : Nat} (hw : w < 4) : 0 < 8 * 2 ^ w ∧ 8 * 2 ^ w ≤ 64 :=
  (by decide : ∀ v < 4, 0 < 8 * 2 ^ v ∧ 8 * 2 ^ v ≤ 64) w hw

/-- `EXT` of an operand that is not reserved completes. -/
theorem givesD_ext {c : CoreId} {p : Pfx} {dd da : Fin 32} {n : Byte} {spec : Core → Word → Prop} (hreserved : n.toNat < 8)
    (hwidth : n.toNat % 4 ≠ 3) (hw : ∀ k, spec k (extendLow (8 * 2 ^ (n.toNat % 4)) (n.getLsbD 2) (k.getD da))) :
    GivesD (.ext c p dd da n) c p (dShape 4 [dd, da]) dd spec :=
  fun _ hr => ⟨_, ⟨_, hw _, rfl⟩, congrArg next (runInstr_completed hr (if_neg (by omega)))⟩

/-! ## CLZ -/

theorem toNat_leadingZeros_of_ne (ha : a ≠ 0) : (leadingZeros a).toNat = 63 - a.toNat.log2 := by
  rw [leadingZeros, if_neg ha, BitVec.toNat_ofNat]
  omega

theorem toNat_ne_zero_of_ne (ha : a ≠ 0) : a.toNat ≠ 0 := fun h => ha (BitVec.eq_of_toNat_eq h)

theorem log2_toNat_lt (ha : a ≠ 0) : a.toNat.log2 < 64 := (Nat.log2_lt (toNat_ne_zero_of_ne ha)).2 a.isLt

theorem toNat_leadingZeros_le (a : Word) : (leadingZeros a).toNat ≤ 64 := by
  by_cases ha : a = 0
  · subst ha
    decide
  · rw [toNat_leadingZeros_of_ne ha]
    omega

theorem getLsbD_above_leadingZeros {j : Nat} (hj : 64 - (leadingZeros a).toNat ≤ j) : a.getLsbD j = false := by
  by_cases ha : a = 0
  · rw [ha]
    exact BitVec.getLsbD_zero
  · have hlog := log2_toNat_lt ha
    rw [toNat_leadingZeros_of_ne ha] at hj
    rw [← BitVec.testBit_toNat]
    exact Nat.testBit_lt_two_pow (Nat.lt_of_lt_of_le Nat.lt_log2_self (Nat.pow_le_pow_right (by decide) (by omega)))

theorem getLsbD_at_leadingZeros (h : (leadingZeros a).toNat < 64) : a.getLsbD (63 - (leadingZeros a).toNat) = true := by
  have ha : a ≠ 0 := by
    rintro rfl
    exact absurd h (by decide)
  rw [toNat_leadingZeros_of_ne ha, Nat.sub_sub_self (Nat.le_of_lt_succ (log2_toNat_lt ha)), ← BitVec.testBit_toNat]
  exact Nat.testBit_log2 (toNat_ne_zero_of_ne ha)

/-! ## POPC -/

theorem countFrom_zero_eq_range (n : Nat) : countFrom 0 n = List.range n := by rw [countFrom_eq_range', List.range_eq_range']

theorem maskPositions_eq (m : Word) : maskPositions m = (List.range 64).filter (fun j => m.getLsbD j) := by
  rw [maskPositions, countFrom_zero_eq_range]

theorem toNat_popCount (a : Word) : (popCount a).toNat = ((List.range 64).filter (fun j => a.getLsbD j)).length := by
  have hle : (maskPositions a).length ≤ 64 := List.length_filter_le _ _
  rw [← maskPositions_eq]
  exact Nat.mod_eq_of_lt (Nat.lt_of_le_of_lt hle (by decide))

end

/-- Settles O16: compares by the relation that each decides, the others by their functions of R453. -/
theorem compareMoveResults : Obligations.CompareMoveResults := by
  unfold Obligations.CompareMoveResults
  intro c p dd da db i n
  refine ⟨?cmpeq, ?cmplt, ?cmpltu, ?min, ?max, ?mov, ?movi, fun hreserved hwidth => ?ext, ?clz, ?popc⟩
  case cmpeq => exact givesD_of_runLocal (fun _ => rfl) fun _ => flagWord_of_iff beq_iff_eq
  case cmplt => exact givesD_of_runLocal (fun _ => rfl) fun _ => flagWord_of_iff BitVec.slt_iff_toInt_lt
  case cmpltu => exact givesD_of_runLocal (fun _ => rfl) fun _ => flagWord_of_iff BitVec.ult_iff_toNat_lt
  case min => exact givesD_of_runLocal (fun _ => rfl) fun _ => toInt_minSigned _ _
  case max => exact givesD_of_runLocal (fun _ => rfl) fun _ => toInt_maxSigned _ _
  case mov => exact givesD_of_runLocal (fun _ => rfl) fun _ => rfl
  case movi => exact givesD_of_runLocal (fun _ => rfl) fun _ => toInt_immSigned p i
  case ext =>
    obtain ⟨hpos, h64⟩ := ext_width_bounds (Nat.mod_lt n.toNat (by decide : 4 > 0))
    refine givesD_ext hreserved hwidth fun _ => ?_
    dsimp only
    split
    next hzero => rw [hzero, toNat_extendLow_zero]
    next hsign => rw [Bool.eq_false_iff.2 hsign, toInt_extendLow_sign hpos h64]
  case clz =>
    exact givesD_of_runLocal (fun _ => rfl) fun _ =>
      ⟨toNat_leadingZeros_le _, fun _ => getLsbD_above_leadingZeros, getLsbD_at_leadingZeros⟩
  case popc => exact givesD_of_runLocal (fun _ => rfl) fun _ => toNat_popCount _

end Sys2Proof.Machine
end

section
/-! PROOFS. Results of BSWAP, rotates, BEXT and BDEP (07 R453; O17). -/

namespace Sys2Proof.Machine

/-! ## Bytes of a number -/

theorem getElem?_leBytes (n x i : Nat) : (leBytes n x)[i]? = if i < n then some (BitVec.ofNat 8 (x / 256 ^ i)) else none := by
  induction n generalizing x i with
  | zero => rfl
  | succ n ih =>
    cases i with
    | zero => simp [leBytes]
    | succ i => simp [leBytes, ih, Nat.div_div_eq_div_mul, Nat.pow_succ']

theorem length_leBytes (n x : Nat) : (leBytes n x).length = n := by
  induction n generalizing x with
  | zero => rfl
  | succ n ih => rw [leBytes, List.length_cons, ih]

/-- Bit `j` of the number that bytes spell is bit `j` mod 8 of byte `j` / 8. -/
theorem testBit_leNat (bs : List Byte) (j : Nat) : (leNat bs).testBit j = (bs[j / 8]?.any (fun b => b.getLsbD (j % 8))) := by
  induction bs generalizing j with
  | nil => simp [leNat]
  | cons b bs ih =>
    rw [leNat, Nat.add_comm, show (256 : Nat) = 2 ^ 8 from rfl, Nat.testBit_two_pow_mul_add _ b.isLt]
    split
    next hlow => rw [Nat.div_eq_of_lt hlow, Nat.mod_eq_of_lt hlow, BitVec.testBit_toNat, List.getElem?_cons_zero, Option.any_some]
    next hhigh =>
      obtain ⟨i, rfl⟩ := Nat.exists_eq_add_of_le' (Nat.le_of_not_lt hhigh)
      rw [Nat.add_sub_cancel, ih, Nat.add_div_right i (by decide), Nat.add_mod_right, List.getElem?_cons_succ]

theorem getLsbD_byteSwap {j : Nat} (a : Word) (hj : j < 64) : (byteSwap a).getLsbD j = a.getLsbD (56 - j / 8 * 8 + j % 8) := by
  have hbyte : j / 8 < 8 := by omega
  have hbit : j % 8 < 8 := Nat.mod_lt _ (by decide)
  have hmirror : 8 - 1 - j / 8 < 8 := by omega
  have hplace : j % 8 + 8 * (8 - 1 - j / 8) = 56 - j / 8 * 8 + j % 8 := by omega
  rw [byteSwap, BitVec.getLsbD_ofNat, decide_eq_true hj, Bool.true_and, testBit_leNat,
    List.getElem?_reverse (by rwa [length_leBytes]), length_leBytes, getElem?_leBytes, if_pos hmirror, Option.any_some,
    BitVec.getLsbD_ofNat, decide_eq_true hbit, Bool.true_and, show (256 : Nat) = 2 ^ 8 from rfl, ← Nat.pow_mul,
    Nat.testBit_div_two_pow, BitVec.testBit_toNat, hplace]

/-! ## Rotates -/

theorem rotL_eq_rotateLeft (a b : Word) : rotL a b = a.rotateLeft b.toNat := BitVec.rotateLeft_def.symm

theorem rotR_eq_rotateRight (a b : Word) : rotR a b = a.rotateRight b.toNat := BitVec.rotateRight_def.symm

section
variable {j : Nat}

theorem getLsbD_rotL (a b : Word) (hj : j < 64) : (rotL a b).getLsbD ((j + b.toNat % 64) % 64) = a.getLsbD j := by
  rw [rotL_eq_rotateLeft, BitVec.getLsbD_rotateLeft]
  rcases Nat.lt_or_ge (j + b.toNat % 64) 64 with hin | hwraps
  · rw [Nat.mod_eq_of_lt hin, decide_eq_false (by omega), decide_eq_true hin, cond_false, Bool.true_and, Nat.add_sub_cancel]
  · have hmod : (j + b.toNat % 64) % 64 = j + b.toNat % 64 - 64 := by omega
    rw [hmod, decide_eq_true (by omega), cond_true]
    congr 1
    omega

theorem getLsbD_rotR (a b : Word) (hj : j < 64) : (rotR a b).getLsbD j = a.getLsbD ((j + b.toNat % 64) % 64) := by
  rw [rotR_eq_rotateRight, BitVec.getLsbD_rotateRight]
  rcases Nat.lt_or_ge (j + b.toNat % 64) 64 with hin | hwraps
  · rw [Nat.mod_eq_of_lt hin, decide_eq_true (by omega), cond_true, Nat.add_comm]
  · rw [decide_eq_false (by omega), decide_eq_true hj, cond_false, Bool.true_and]
    congr 1
    omega

end

/-! ## Bits placed at positions -/

section
variable {i q : Nat} {is : List Nat} {bs : List Bool}

theorem two_pow_dvd_placeBits {n : Nat} (h : ∀ i ∈ is, n ≤ i) : 2 ^ n ∣ placeBits is bs := by
  induction is generalizing bs with
  | nil => exact Nat.dvd_zero _
  | cons i is ih =>
    cases bs with
    | nil => exact Nat.dvd_zero _
    | cons b bs =>
      obtain ⟨hi, his⟩ := List.forall_mem_cons.1 h
      exact Nat.dvd_add (Nat.dvd_trans (Nat.pow_dvd_pow 2 hi) (Nat.dvd_mul_left _ _)) (ih his)

theorem testBit_b2n_mul_two_pow (b : Bool) (i q : Nat) : (b2n b * 2 ^ i).testBit q = (decide (i = q) && b) := by
  cases b with
  | false => simp [b2n]
  | true => rw [b2n, if_pos rfl, Nat.one_mul, Nat.testBit_two_pow, Bool.and_true]

theorem b2n_mul_two_pow_lt (b : Bool) (i : Nat) : b2n b * 2 ^ i < 2 ^ (i + 1) := by
  have hb : b2n b < 2 := by cases b <;> decide
  rw [Nat.pow_succ']
  exact Nat.mul_lt_mul_of_pos_right hb (Nat.two_pow_pos i)

/-- The first flag stands at the first position, the others where the rest of the list places them. -/
theorem testBit_placeBits_cons {b : Bool} (h : ∀ x ∈ is, i < x) (q : Nat) :
    (placeBits (i :: is) (b :: bs)).testBit q = ((decide (i = q) && b) || (placeBits is bs).testBit q) := by
  obtain ⟨t, ht⟩ := two_pow_dvd_placeBits (bs := bs) h
  rw [placeBits, Nat.add_comm, ht, Nat.succ_eq_add_one, Nat.two_pow_add_eq_or_of_lt (b2n_mul_two_pow_lt b i), Nat.testBit_or,
    testBit_b2n_mul_two_pow, Bool.or_comm]

theorem testBit_placeBits_of_notMem (hasc : is.Pairwise (· < ·)) (hq : q ∉ is) : (placeBits is bs).testBit q = false := by
  induction is generalizing bs with
  | nil => exact Nat.zero_testBit q
  | cons i is ih =>
    cases bs with
    | nil => exact Nat.zero_testBit q
    | cons b bs =>
      obtain ⟨hfirst, hrest⟩ := List.pairwise_cons.1 hasc
      obtain ⟨hne, hnotin⟩ := not_or.1 (mt List.mem_cons.2 hq)
      rw [testBit_placeBits_cons hfirst, ih hrest hnotin, decide_eq_false (Ne.symm hne), Bool.false_and, Bool.or_false]

/-- At the `j`-th of rising positions stands the `j`-th flag. -/
theorem testBit_placeBits {j : Nat} (hasc : is.Pairwise (· < ·)) (hj : is[j]? = some q) :
    (placeBits is bs).testBit q = bs[j]?.any id := by
  induction is generalizing bs j with
  | nil => exact absurd hj (by simp)
  | cons i is ih =>
    cases bs with
    | nil => exact Nat.zero_testBit q
    | cons b bs =>
      obtain ⟨hfirst, hrest⟩ := List.pairwise_cons.1 hasc
      rw [testBit_placeBits_cons hfirst]
      cases j with
      | zero =>
        obtain rfl : i = q := Option.some.inj hj
        rw [testBit_placeBits_of_notMem hrest fun hmem => absurd (hfirst i hmem) (Nat.lt_irrefl i)]
        simp
      | succ j =>
        have hmem : q ∈ is := List.mem_of_getElem? hj
        rw [ih hrest hj, decide_eq_false (Nat.ne_of_lt (hfirst q hmem)), Bool.false_and, Bool.false_or, List.getElem?_cons_succ]

end

/-! ## BEXT and BDEP -/

theorem pairwise_lt_maskPositions (m : Word) : (maskPositions m).Pairwise (· < ·) := by
  rw [maskPositions_eq]
  exact List.pairwise_lt_range.filter _

theorem mem_maskPositions {m : Word} {q : Nat} : q ∈ maskPositions m ↔ q < 64 ∧ m.getLsbD q = true := by
  rw [maskPositions_eq, List.mem_filter, List.mem_range]

theorem index_lt_of_maskPositions {m : Word} {j q : Nat} (h : (maskPositions m)[j]? = some q) : j < 64 := by
  obtain ⟨hlt, -⟩ := List.getElem?_eq_some_iff.1 h
  exact Nat.lt_of_lt_of_le hlt (List.length_filter_le _ _)

theorem getElem?_countFrom_zero {n j : Nat} (h : j < n) : (countFrom 0 n)[j]? = some j := by
  rw [countFrom_zero_eq_range, List.getElem?_range h]

theorem getLsbD_bitExtract (a m : Word) {j : Nat} (hj : j < 64) :
    (bitExtract a m).getLsbD j = (maskPositions m)[j]?.any (fun q => a.getLsbD q) := by
  have hasc : (countFrom 0 64).Pairwise (· < ·) := countFrom_zero_eq_range 64 ▸ List.pairwise_lt_range
  rw [bitExtract, BitVec.getLsbD_ofNat, decide_eq_true hj, Bool.true_and, testBit_placeBits hasc (getElem?_countFrom_zero hj),
    List.getElem?_map, Option.any_map]
  rfl

theorem getLsbD_bitDeposit_unselected (a : Word) {m : Word} {q : Nat} (hm : m.getLsbD q = false) : (bitDeposit a m).getLsbD q = false := by
  have hq : q ∉ maskPositions m := fun h => absurd (mem_maskPositions.1 h).2 (by rw [hm]; decide)
  rw [bitDeposit, BitVec.getLsbD_ofNat, testBit_placeBits_of_notMem (pairwise_lt_maskPositions m) hq, Bool.and_false]

theorem getLsbD_bitDeposit_selected (a : Word) {m : Word} {j q : Nat} (h : (maskPositions m)[j]? = some q) :
    (bitDeposit a m).getLsbD q = a.getLsbD j := by
  obtain ⟨hq, -⟩ := mem_maskPositions.1 (List.mem_of_getElem? h)
  rw [bitDeposit, BitVec.getLsbD_ofNat, decide_eq_true hq, Bool.true_and, testBit_placeBits (pairwise_lt_maskPositions m) h,
    List.getElem?_map, getElem?_countFrom_zero (index_lt_of_maskPositions h)]
  rfl

/-- Settles O17: each function of R453 by the place from which it takes a bit. -/
theorem bitManipulationResults : Obligations.BitManipulationResults := by
  unfold Obligations.BitManipulationResults
  intro c p dd da db n
  refine ⟨?bswap, ?rol, ?ror, ?roli, ?bext, ?bdep⟩
  case bswap => exact givesD_of_runLocal (fun _ => rfl) fun _ _ hj => getLsbD_byteSwap _ hj
  case rol => exact givesD_of_runLocal (fun _ => rfl) fun _ _ hj => getLsbD_rotL _ _ hj
  case ror => exact givesD_of_runLocal (fun _ => rfl) fun _ _ hj => getLsbD_rotR _ _ hj
  case roli =>
    refine givesD_of_runLocal (fun _ => rfl) fun k j hj => ?_
    rw [← toNat_countOf]
    exact getLsbD_rotL _ _ hj
  case bext =>
    refine givesD_of_runLocal (fun _ => rfl) fun k j hj => ?_
    rw [← maskPositions_eq, getLsbD_bitExtract _ _ hj]
    cases (maskPositions (k.getD db))[j]? <;> rfl
  case bdep =>
    refine givesD_of_runLocal (fun _ => rfl) fun k => ⟨fun q _ hm => getLsbD_bitDeposit_unselected _ hm, fun j q hq => ?_⟩
    rw [← maskPositions_eq] at hq
    exact getLsbD_bitDeposit_selected _ hq

end Sys2Proof.Machine
end

section
/-! PROOFS. Customer instructions (07 R194, R195, R198; O38). -/

namespace Sys2Proof.Machine

section
variable {s : State} {c : CoreId} {p : Pfx} {entry : Byte} {ops : List AnyReg} {i : Word} {cause detail : Nat}

/-- An entry byte in range, with a valid entry whose operands fit (07 R194, R195). -/
def State.entryFits (s : State) (entry : Byte) (ops : List AnyReg) : Bool :=
  decide (entry.toNat < 64) && bit (s.decodeEntry (entry.toNat % 64)) 12 && operandsFit (s.decodeEntry (entry.toNat % 64)) ops

theorem State.entryFits_iff : s.entryFits entry ops = true ↔ entry.toNat < 64 ∧ bit (s.decodeEntry (entry.toNat % 64)) 12 = true
    ∧ operandsFit (s.decodeEntry (entry.toNat % 64)) ops = true := by
  rw [State.entryFits, Bool.and_eq_true, Bool.and_eq_true, decide_eq_true_iff, and_assoc]

/-- The microwords of the entry `e`, run on what is seen once `CYCLES` is sampled. -/
def State.customerRun (s : State) (c : CoreId) (p : Pfx) (e : Nat) (ops : List AnyReg) (i : Word) (k : Core) : Except (Nat × Nat) Core :=
  let s1 := (s.sampleCycles k).1
  let k1 := (s.sampleCycles k).2
  s1.runMicro c p ops (if bits e 36 2 = 0 then 0 else immSigned p (bits e 36 2) i) 256 (bits e 0 12)
    { before := k1, after := k1, temps := [], fresh := s1.fresh }

/-- How a customer instruction of the entry `e` ends where its operands fit. -/
def customerBody (c : CoreId) (p : Pfx) (e : Nat) (ops : List AnyReg) (i : Word) (s : State) (k : Core) : Res :=
  if bits e 42 2 < k.status.pl.num then .trap s 0x02 0 none
  else match s.customerRun c p e ops i k with
    | .ok k2 => .done (s.sampleCycles k).1.bump k2 .seq
    | .error (cause, detail) => .trap (s.sampleCycles k).1 cause detail none

theorem exec_customer_fits (hfits : s.entryFits entry ops = true) :
    exec (.customerInstruction c p entry ops i) s =
      let e := s.decodeEntry (entry.toNat % 64)
      next (s.runInstr c p (customerShape e ops) (customerBody c p e ops i)) := by
  unfold State.entryFits at hfits
  change execCustomerInstruction c p entry ops i s = _
  simp only [execCustomerInstruction, hfits, Bool.not_true, Bool.false_eq_true, if_true, if_false]
  rfl

theorem exec_customer_unfit (hfits : s.entryFits entry ops = false) (hr : Runs s c p { bytes := 2, sycenOnly := true }) :
    exec (.customerInstruction c p entry ops i) s = .next (s.trapHere c (s.core c) 0x01 0 none) := by
  unfold State.entryFits at hfits
  change execCustomerInstruction c p entry ops i s = _
  simp only [execCustomerInstruction, hfits, Bool.not_false, Bool.false_eq_true, if_true, if_false]
  exact congrArg next (runInstr_trap hr rfl)

section
variable {e : Nat} {k k2 : Core}

theorem customerBody_level (h : bits e 42 2 < k.status.pl.num) : customerBody c p e ops i s k = .trap s 0x02 0 none := if_pos h

theorem customerBody_ok (h : k.status.pl.num ≤ bits e 42 2) (hrun : s.customerRun c p e ops i k = .ok k2) :
    customerBody c p e ops i s k = .done (s.sampleCycles k).1.bump k2 .seq := by
  rw [customerBody, if_neg (Nat.not_lt.2 h), hrun]

theorem customerBody_error (h : k.status.pl.num ≤ bits e 42 2) (hrun : s.customerRun c p e ops i k = .error (cause, detail)) :
    customerBody c p e ops i s k = .trap (s.sampleCycles k).1 cause detail none := by
  rw [customerBody, if_neg (Nat.not_lt.2 h), hrun]

end

end

/-- Settles O38: an entry that fits by its level and by how its microwords end, any other by the check of the entry. -/
theorem customerInstructions : Obligations.CustomerInstructions := by
  unfold Obligations.CustomerInstructions
  intro c p entry ops i s e k sh imm s1 k1 run fits
  refine ⟨fun hfits hr => ?fitting, fun hfits hr => ?unfit⟩
  case fitting =>
    rw [exec_customer_fits (State.entryFits_iff.2 hfits)]
    exact ⟨fun hlevel => congrArg next (runInstr_trap hr (customerBody_level hlevel)), fun hlevel =>
      ⟨fun _ hrun => congrArg next (runInstr_done hr (customerBody_ok hlevel hrun)),
        fun _ _ hrun => congrArg next (runInstr_trap hr (customerBody_error hlevel hrun))⟩⟩
  case unfit => exact exec_customer_unfit (Bool.eq_false_iff.2 (mt State.entryFits_iff.1 hfits)) hr

end Sys2Proof.Machine
end
